-- ==== Sys2Proof/Word.lean ====
section
/-! DEFINITION. The words of the 4820's memory records and frames (00_scope.md "Memory", R188): bytes, 16-bit
and 32-bit words, and the tier, zone and jam sets, bit fields with member k at bit k. -/

namespace Sys2Proof

/-- One byte of memory or of a serial frame. -/
abbrev Byte := BitVec 8

/-- A 16-bit field: ring indices, generations, revisions. -/
abbrev Half := BitVec 16

/-- A 32-bit SDRAM word, or a wrapping 32-bit count. -/
abbrev Word := BitVec 32

/-- A set of the 16 tiers (R188 "Sets"). -/
abbrev TierSet := BitVec 16

/-- A set of the 8 zones (R188 "Sets"). -/
abbrev ZoneSet := BitVec 8

/-- A set of the 64 positions (R188 "Sets"). -/
abbrev JamSet := BitVec 64

end Sys2Proof
end

