-- ==== Sys2Proof/Syntax.lean ====
section
/-! DEFINITION. The commands of the 4820, one constructor per row of spec/opcode_table.json, with their operands. -/

namespace Sys2Proof

/-- One word of a WRITE burst: its data and its four byte masks (R162). Mask bit k set means byte k is masked
and not written. -/
structure WriteWord where
  data : Word
  mask : BitVec 4
  deriving DecidableEq, Repr, Inhabited

/-- A host write to a 16-bit host word (a take word, a kind word, a ring index): the value on the byte lanes
and which of its two bytes is written (R3, R24, R149: "touches either byte"). -/
structure HalfWrite where
  value : Half
  lo : Bool
  hi : Bool
  deriving DecidableEq, Repr, Inhabited

/-- The commands. Docstrings name the row's rule; a command not enabled in the state changes nothing (log 2). -/
inductive Instr where
  /-- POWER_ON (R179): power-on with the CFGSEL pins at the strap given. -/
  | powerOn (strap : BitVec 4)
  /-- RESET_PIN (R180): RESET asserted; begun is how many transfers of a tenure under way have begun (log 32). -/
  | resetPin (strap : BitVec 4) (begun : Nat)
  /-- MODE_SET (R165): the 13 address bits and the bank bits. -/
  | modeSet (addr : BitVec 13) (bank : BitVec 2)
  /-- ACTIVATE (R161). -/
  | activate (bank : BitVec 2) (row : BitVec 13)
  /-- READ (R171): words is how many words are transferred before the next command (log 7). -/
  | read (bank : BitVec 2) (col : BitVec 9) (words : Nat)
  /-- READ_AUTO_PRECHARGE (R161). -/
  | readAutoPrecharge (bank : BitVec 2) (col : BitVec 9) (words : Nat)
  /-- WRITE (R169): the four words of the burst, of which words are transferred before the next command. -/
  | write (bank : BitVec 2) (col : BitVec 9) (w0 w1 w2 w3 : WriteWord) (words : Nat)
  /-- WRITE_AUTO_PRECHARGE (R161). -/
  | writeAutoPrecharge (bank : BitVec 2) (col : BitVec 9) (w0 w1 w2 w3 : WriteWord) (words : Nat)
  /-- PRECHARGE (R161). -/
  | precharge (bank : BitVec 2)
  /-- PRECHARGE_ALL (R161). -/
  | prechargeAll
  /-- REFRESH (R161). -/
  | refresh
  /-- SELF_REFRESH_ENTRY (R175). -/
  | selfRefreshEntry
  /-- SELF_REFRESH_EXIT (R175). -/
  | selfRefreshExit
  /-- BURST_TERMINATE (R163). -/
  | burstTerminate
  /-- NO_OPERATION (R161). -/
  | noOperation
  /-- BUS_GRANT (R173). -/
  | busGrant
  /-- TENURE_COMPLETE (R174). -/
  | tenureComplete
  /-- CONFIG_RETAKE (R186): a host write to the config take word, with the CFGSEL pins at the strap given. -/
  | configRetake (strap : BitVec 4) (h : HalfWrite)
  /-- LINE_UP_TAKE_REQUEST (R4): a host write to the line-up take word. -/
  | lineUpTakeRequest (h : HalfWrite)
  /-- PLANT_TAKE_REQUEST (R69): a host write to the plant take word. -/
  | plantTakeRequest (h : HalfWrite)
  /-- REVISION_WRITE (R24): a host write to the revision word of record i. -/
  | revisionWrite (i : Nat) (h : HalfWrite)
  /-- REVISION_TAKE (R25). -/
  | revisionTake
  /-- TAKE_RESUME (R29). -/
  | takeResume
  /-- SWEEP_VISIT (R35). -/
  | sweepVisit
  /-- WRITE_BACK (R36). -/
  | writeBack
  /-- BRANCH_FRAME_SENT (R42) on branch b. -/
  | branchFrameSent (b : Fin 4)
  /-- BRANCH_REPLY_RECEIVED (R43): bytes received on branch b. -/
  | branchReplyReceived (b : Fin 4) (bytes : List Byte)
  /-- BRANCH_FRAME_REJECTED (R43): one invalid frame on branch b. -/
  | branchFrameRejected (b : Fin 4)
  /-- BRANCH_REPLY_WINDOW_CLOSED (R42) on branch b. -/
  | branchReplyWindowClosed (b : Fin 4)
  /-- CARRIER_LOST (R60): the carrier input of branch b has been low for 1 s. -/
  | carrierLost (b : Fin 4)
  /-- CARRIER_PRESENT (R60): the carrier input of branch b has been high for 5 s. -/
  | carrierPresent (b : Fin 4)
  /-- RACK_FRAME_SENT (R94). -/
  | rackFrameSent
  /-- RACK_REPLY_RECEIVED (R95): bytes received on the rack link. -/
  | rackReplyReceived (bytes : List Byte)
  /-- RACK_FRAME_REJECTED (R95). -/
  | rackFrameRejected
  /-- RACK_REPLY_WINDOW_CLOSED (R94). -/
  | rackReplyWindowClosed
  /-- SEC1_EDGE (R109). -/
  | sec1Edge
  /-- MINUTE_EVENT (R111). -/
  | minuteEvent
  /-- SECONDS_LOSS_TIMEOUT (R110). -/
  | secondsLossTimeout
  /-- PASS_VISIT (R117). -/
  | passVisit
  /-- PASS_RESUME (R119). -/
  | passResume
  /-- ORDER_KIND_WRITE (R148): a host write to the kind word of an order slot. -/
  | orderKindWrite (slot : Nat) (h : HalfWrite)
  /-- ORDER_TAIL_WRITE (R149): a host write to the order tail. -/
  | orderTailWrite (h : HalfWrite)
  /-- JOURNAL_HEAD_WRITE (R156): a host write to the journal head. -/
  | journalHeadWrite (h : HalfWrite)
  /-- UNKNOWN_KIND (R151). -/
  | unknownKind
  /-- PURCHASE (R141). -/
  | purchase
  /-- CANCEL_PURCHASE (R142). -/
  | cancelPurchase
  /-- ADJUST (R143). -/
  | adjust
  /-- ADJUST_RESUME (R143). -/
  | adjustResume
  /-- RESEND (R63). -/
  | resend
  /-- REPOLL (R89). -/
  | repoll
  /-- ACKNOWLEDGE_OUTAGE (R87). -/
  | acknowledgeOutage
  /-- SET_CLOCK (R112). -/
  | setClock
  /-- NEXT_CYCLE (R114). -/
  | nextCycle
  /-- CARRIER_INPUT_CHANGE (R60): the carrier input of branch b goes high or low. -/
  | carrierInputChange (b : Fin 4) (high : Bool)
  deriving DecidableEq, Repr

end Sys2Proof
end

