-- ==== Sys2Proof/Decode.lean ====
section
/-! DEFINITION. Decoding. The opcode table gives no row any bits, so no word spells a command by it. What the part
does decode are the command lines of its controller side (11.9), written here as a function of those lines. -/

namespace Sys2Proof

/-- The command a word spells by the table's bits: no row gives bits, so none does. -/
def decodeTableWord (_nbits _w : Nat) : Option Instr := none

/-- The controller-side command lines of one clock (11.9); chip select, row strobe, column strobe and write enable
are true when low, that is, active. -/
structure CommandLines where
  select : Bool
  row : Bool
  column : Bool
  write : Bool
  /-- The clock enable line goes high, or goes low, at this clock. -/
  enableRise : Bool
  enableFall : Bool
  bank : BitVec 2
  addr : BitVec 13
  deriving DecidableEq, Repr

/-- The four words and the burst's length, which the lines of later clocks give. -/
structure BurstLines where
  w0 : WriteWord
  w1 : WriteWord
  w2 : WriteWord
  w3 : WriteWord
  words : Nat
  deriving DecidableEq, Repr

/-- Address bit 10 selects auto-precharge, and all banks on a PRECHARGE (11.9). -/
def CommandLines.bit10 (l : CommandLines) : Bool := l.addr.getLsbD 10

/-- The command the Memory Path decodes from the command lines (11.9); the column is address bits 0-8. A MODE SET
whose bank bits are not 0 is no MODE SET of the table: it decodes to none. -/
def decodeLines (l : CommandLines) (d : BurstLines) : Option Instr :=
  if l.enableRise then some .selfRefreshExit
  else if !l.select then some .noOperation
  else match l.row, l.column, l.write with
    | false, false, false => some .noOperation
    | true, false, false => some (.activate l.bank l.addr)
    | false, true, false =>
      some (if l.bit10 then .readAutoPrecharge l.bank (l.addr.setWidth 9) d.words
        else .read l.bank (l.addr.setWidth 9) d.words)
    | false, true, true =>
      some (if l.bit10 then .writeAutoPrecharge l.bank (l.addr.setWidth 9) d.w0 d.w1 d.w2 d.w3 d.words
        else .write l.bank (l.addr.setWidth 9) d.w0 d.w1 d.w2 d.w3 d.words)
    | false, false, true => some .burstTerminate
    | true, false, true => some (if l.bit10 then .prechargeAll else .precharge l.bank)
    | true, true, false => some (if l.enableFall then .selfRefreshEntry else .refresh)
    | true, true, true => if l.bank = 0 then some (.modeSet l.addr l.bank) else none

end Sys2Proof
end

