-- ==== Sys2Proof/Config.lean ====
section
/-! DEFINITION. What one 4820 fixes (the counts of 00_scope.md "Units and ranges"), the byte an unlisted
address reads as, and the FREE VALUES of the model: opaque constants with no body, which nothing can evaluate. -/

namespace Sys2Proof.Config

/-- Size of the SDRAM array in bytes, 64 MiB (00_scope.md "Memory"). -/
def arrayBytes : Nat := 67108864

/-- CFGSEL counts the CONFIG region's base in steps of 4 MiB (R167). -/
def configStep : Nat := 4194304

/-- On-chip journal queue capacity (R153). -/
def queueCapacity : Nat := 64

/-- A notice joins only below this length (R153: a notice never takes the last 8 free slots). -/
def noticeLimit : Nat := 56

/-- BUSURG is asserted from this queue length on (R153, R172). -/
def urgentLength : Nat := 48

/-- Bursts of one tenure (R173). -/
def tenureBursts : Nat := 16

/-- Largest minute backlog (R115). -/
def maxBacklog : Nat := 1440

/-- The greatest minute number; FFFFFFFFh stands for NONE (R109, R188). -/
def lastMinute : Nat := 4294967294

/-- Accumulated amounts are held within this bound (R128). -/
def amountLimit : Int := 2000000000

/-- The held numerator is held within this bound (R130). -/
def numeratorLimit : Int := 140737488355327

/-- Outage records of the Outage Table (R83). -/
def outageRecords : Nat := 64

/-- DESIGN CHOICE, unsafe (log 3): what a byte of the array that nothing has written reads as. -/
def blankByte : Byte := 0

/-- FREE VALUE (log 5): the row of the array that the n-th blind access to a bank reaches. The part cannot
tell which row it reaches (R164). -/
opaque blindRow (n : Nat) (bank : BitVec 2) : BitVec 13

/-- FREE VALUE (log 16): the code a CLOSED bank entry shows in the memory view (R176 gives none). -/
opaque closedBankCode : Word

/-- FREE VALUE (log 16): the code the group cursor shows at START in the source view (R107 gives none). -/
opaque startCursorCode : Word

/-- FREE VALUE (log 16): where the pass cursor stands after a pass has ended (R122 gives no value). -/
opaque restingCursor : BitVec 11

/-- FREE VALUE (log 17): the minutes-out field of a CYCLE TOTAL whose entry has no minute, or a minute
before out-since (R145 defines a distance only from out-since to the entry's minute). -/
opaque minutesOut (entryMinute : Option Nat) (outSince : Nat) : Half

/-- FREE VALUE (log 57): the amount field of an entry whose amount is outside the signed 32 bits of the field, as the
nominal amount of an OUTAGE CREDIT can be (R131 gives no bound, 11.6 gives the field 4 bytes). -/
opaque wideAmount (amount : Int) : BitVec 32

end Sys2Proof.Config
end

