-- ==== Sys2Proof/Machine/State.lean ====
section
/-! DEFINITION. The state of the 4820 as plain data: every piece of state the spec gives each block, the SDRAM
array beside the part, the lines it drives, and the queue of waiting commands; and the state right after reset. -/

namespace Sys2Proof.Machine

/-- Bytes by address: a list of (address, byte) pairs, addresses strictly rising, none equal to the blank byte. -/
abbrev Memory := List Host.Cell

/-! ### Why a step can stop -/

/-- Reasons a command stops with a fault. Both are safe: the command names a word that does not exist. -/
inductive Fault where
  /-- Raised by REVISION_WRITE naming a record of index 2,048 or more (00_scope.md: records 0 to 2047). Safe. -/
  | noSuchRecord
  /-- Raised by ORDER_KIND_WRITE naming a slot of index 256 or more (R148: up to 256 slots). Safe. -/
  | noSuchSlot
  deriving DecidableEq, Repr

/-- Reasons a command is refused by the model. -/
inductive Refusal where
  /-- Raised by an arm of exec whose command has no meaning yet (none is left). Safe. -/
  | notModelled (mnemonic : String)
  deriving DecidableEq, Repr

/-! ### Outcome codes (11.8) -/

/-- The outcome codes of takes and orders. `raw` is a byte the fill read that names no outcome. -/
inductive OutcomeCode where
  | notTaken | pending | done | held
  | rateRange | sourceSetting | channelRecord | blackoutCount | blackoutEntry
  | statusCode | zoneRange | notATap | portRange | portTaken | finalPending
  | rootKind | elementKind | parent | address | plantInUse
  | unknownKind | clockUnset | indexRange | notInService | parameterRange
  | tooLate | listFull | alreadyEntitled | conflict | notFound | stepRange | stepBack
  | raw (b : Byte)
  deriving DecidableEq, Repr, Inhabited

/-! ### Part level (R178 to R187) -/

/-- Part state (R179). -/
inductive PartState where
  | awaitMode | fill | running | configFault | transparent
  deriving DecidableEq, Repr, Inhabited

/-- Fault code (R182). -/
inductive FaultCode where
  | none | format | regionPlace | regionSize | overlap | ringSize | calendar | plantTake | lineUpTake
  deriving DecidableEq, Repr, Inhabited

/-- Fill stage (R181). -/
inductive FillStage where
  | none | configBlock | checkpoint | plant | lineUp | subscriber | orderRing
  deriving DecidableEq, Repr, Inhabited

/-- Last reset cause (R179). -/
inductive ResetCause where
  | power | pin | modeRecovery | configRetake
  deriving DecidableEq, Repr, Inhabited

/-- The base and size in bytes of one region (R178). -/
structure Span where
  base : Nat
  size : Nat
  deriving DecidableEq, Repr, Inhabited

/-- The seven regions (R167). -/
inductive Region where
  | config | status | subscriber | lineUp | plant | orderRing | journalRing
  deriving DecidableEq, Repr, Inhabited

/-- The configuration block as read (R178). -/
structure ConfigValues where
  format : Nat
  status : Span
  subscriber : Span
  lineUp : Span
  plant : Span
  orderRing : Span
  journalRing : Span
  orderCapacity : Nat
  journalCapacity : Nat
  initialStart : Nat
  initialM : Nat
  initialCycle : Byte
  creditThreshold : Nat
  deriving DecidableEq, Repr, Inhabited

/-- Part-level state (R178, R181, R184, R187). -/
structure Part where
  state : PartState
  fault : FaultCode
  stage : FillStage
  cause : ResetCause
  /-- CFGSEL as last sampled (R178). -/
  cfgsel : BitVec 4
  /-- The level of the four strap pins. -/
  strap : BitVec 4
  config : Option ConfigValues
  mapInForce : Bool
  /-- The checkpoint as the fill found it, 32 bytes, or none (R184). -/
  startView : List Byte
  startBlank : Bool
  /-- Byte addresses that are valid-marked hold 1 (R183). -/
  marks : Memory
  /-- Fill reads of the stage already delivered (R181). -/
  fillNext : Nat
  heldHead : Half
  heldTail : Half
  deriving DecidableEq, Repr, Inhabited

/-! ### Memory Path and Tenure Engine (R161 to R177) -/

/-- Memory state (R161). -/
inductive MemState where
  | normal | selfRefresh
  deriving DecidableEq, Repr, Inhabited

/-- One word of a host write as the Memory Path sees it: its byte address, data and byte masks. -/
structure HostWord where
  addr : Nat
  data : Word
  mask : BitVec 4
  deriving DecidableEq, Repr, Inhabited

/-- Take words handed to their owners when a burst ends (R169), and the config retake request (R186). -/
inductive TakeEvent where
  | revision (i : Nat)
  | lineUpTake
  | plantTake
  | kindWord (slot : Nat)
  | orderTail (w : HostWord)
  | journalHead (w : HostWord)
  | configTake
  deriving DecidableEq, Repr, Inhabited

/-- The data of a burst in progress. -/
inductive BurstData where
  /-- A READ: the four words taken at the READ command (R171). -/
  | reading (words : List Word)
  /-- A WRITE: its four words. -/
  | writing (words : List WriteWord)
  deriving DecidableEq, Repr, Inhabited

/-- A burst in progress (R162, R163). -/
structure Burst where
  bank : BitVec 2
  row : BitVec 13
  col : BitVec 9
  /-- The part does not watch its words: the bank's entry was CLOSED at the command (R164), or the part has left its run
  since (R166; log 56). -/
  blind : Bool
  autoPrecharge : Bool
  /-- Words transferred so far. -/
  next : Nat
  data : BurstData
  /-- Take words captured so far, in burst order (R169). -/
  events : List TakeEvent
  deriving DecidableEq, Repr, Inhabited

/-- Memory Path (R161 to R171). -/
structure MemPath where
  /-- Bank table: an open row or CLOSED. -/
  banks : Vector (Option (BitVec 13)) 4
  mem : MemState
  /-- CAS latency in force, or NONE. -/
  cas : Option (BitVec 3)
  blind : Word
  /-- Protected-write count. -/
  guarded : Word
  /-- Byte address of the last protected word written, or 0. -/
  lastGuarded : Nat
  /-- Notice mark (R170). -/
  mark : Option Nat
  burst : Option Burst
  deriving DecidableEq, Repr, Inhabited

/-- Request state (R172). -/
inductive RequestState where
  | idle | requesting | holding
  deriving DecidableEq, Repr, Inhabited

/-- A checkpoint as queued (R116): the calendar, pass minute and generations. -/
structure Checkpoint where
  cycle : Byte
  start : Nat
  m : Nat
  nextM : Nat
  passMinute : Option Nat
  lineUpGen : Half
  plantGen : Half
  deriving DecidableEq, Repr, Inhabited

/-- A composed tenure (R173): how many fill reads and journal entries it took, the checkpoint with the journal
indices of the composition, and whether it took the write-back. -/
structure Tenure where
  fillReads : Nat
  entries : Nat
  checkpoint : Option (Checkpoint × Half × Half)
  writeBack : Bool
  deriving DecidableEq, Repr, Inhabited

/-- Tenure Engine (R172 to R174). -/
structure Engine where
  request : RequestState
  checkpoint : Option Checkpoint
  tenure : Option Tenure
  count : Word
  deriving DecidableEq, Repr, Inhabited

/-! ### Line-Up Engine (R1 to R20) -/

/-- One source record (R1). -/
structure SourceSetting where
  arm : Nat
  trigger : Nat
  nTrip : Nat
  nClear : Nat
  supervised : Bool
  deriving DecidableEq, Repr, Inhabited

/-- One channel record (R1) of the current line-up. -/
structure Channel where
  used : Bool
  primary : Nat
  backup : Option Nat
  tier : Nat
  deriving DecidableEq, Repr, Inhabited

/-- One blackout entry (R1). -/
structure Blackout where
  position : Nat
  zones : ZoneSet
  start : Nat
  stop : Nat
  deriving DecidableEq, Repr, Inhabited

/-- A line-up (R2). -/
structure LineUp where
  rates : Vector Int 16
  sources : Vector SourceSetting 32
  channels : Vector Channel 64
  blackouts : List Blackout
  deriving DecidableEq, Repr, Inhabited

/-- The effective source of a position, or none, and whether it runs on its backup (R12, R13). -/
structure Effective where
  source : Option Nat
  onBackup : Bool
  deriving DecidableEq, Repr, Inhabited

/-- Line-Up Engine (R1, R2, R10, R12, R16). -/
structure LineUpEngine where
  mirror : Memory
  current : LineUp
  gen : Option Half
  held : Bool
  outcome : OutcomeCode
  effective : Vector Effective 64
  active : List Bool
  zones : Vector ZoneSet 64
  deriving DecidableEq, Repr, Inhabited

/-! ### Subscriber Store (R21 to R40, R134) -/

/-- Record state (R23). -/
inductive RecordState where
  | free | active | suspended | final
  deriving DecidableEq, Repr, Inhabited

/-- Purchase state (R134). -/
inductive PurchaseState where
  | booked | opening | confirmed | charged
  deriving DecidableEq, Repr, Inhabited

/-- One purchase entry (R134). -/
structure Purchase where
  position : Nat
  state : PurchaseState
  start : Nat
  stop : Nat
  price : Int
  dark : Nat
  deriving DecidableEq, Repr, Inhabited

/-- Owned port and zone of a record (R22). -/
structure Owned where
  element : Nat
  port : Nat
  zone : Nat
  deriving DecidableEq, Repr, Inhabited

/-- The live block (R22). -/
structure Live where
  outcome : OutcomeCode
  state : RecordState
  takenRev : Half
  cycle : Byte
  appliedOn : Bool
  confirmed : Bool
  stuck : Bool
  saturated : Bool
  appliedTiers : TierSet
  owned : Option Owned
  heldMinutes : Nat
  tierAmount : Int
  eventAmount : Int
  remainder : Nat
  heldNumerator : Int
  outSince : Option Nat
  purchases : List Purchase
  deriving DecidableEq, Repr, Inhabited

/-- The intent section's fields (R21); the mirror and the taken intent both read so. -/
structure Intent where
  revision : Half
  status : Nat
  zone : Nat
  tiers : TierSet
  element : Nat
  port : Nat
  account : Word
  deriving DecidableEq, Repr, Inhabited

/-- One record of the Subscriber Store, its intent mirror aside. -/
structure Subscriber where
  taken : Intent
  live : Live
  dirty : Bool
  filled : Bool
  /-- The state code the fill has read where it is none of the four, until the rebuild takes the record as FREE (R38);
  `live` holds FREE meanwhile and every other field as read. -/
  oddState : Option Byte
  deriving DecidableEq, Repr, Inhabited

/-- Where a VACANT take stands that is stopped for a journal slot (R29). -/
inductive TakeStep where
  | close | credit | purchases
  deriving DecidableEq, Repr, Inhabited

/-- Where an ADJUST stands that waits for a journal slot (R143). -/
inductive AdjustStep where
  | close | add
  deriving DecidableEq, Repr, Inhabited

/-- What holds the store while it waits for a slot (R29, R120, R143); a paused pass is in Pass. -/
inductive Hold where
  | take (i : Nat) (step : TakeStep)
  | adjust (step : AdjustStep)
  deriving DecidableEq, Repr, Inhabited

/-- What the store has served at the present point between two visits (R120). -/
inductive Turn where
  | fresh | takeServed | orderServed
  deriving DecidableEq, Repr, Inhabited

/-- The Subscriber Store as a whole (R24, R36, R120). -/
structure Store where
  /-- The intent mirrors by offset in the SUBSCRIBER region. -/
  mirror : Memory
  queue : List Nat
  hold : Option Hold
  /-- The model's own: the money entry the producer waited for has joined, and the producer has yet to go on (R153;
  log 31). -/
  answered : Bool
  turn : Turn
  cursor : Nat
  copy : Option (Nat × Live)
  deriving DecidableEq, Repr, Inhabited

/-! ### Port Table and Branch Link Controllers (R32 to R65) -/

/-- The state of a port: OFF, or ON with a tier set and a jam set (R32). -/
inductive PortState where
  | off
  | on (tiers : TierSet) (jam : JamSet)
  deriving DecidableEq, Repr, Inhabited

/-- Port conditions (R47). -/
inductive PortCondition where
  | idle | dirty | inFlight | parked | stuck
  deriving DecidableEq, Repr, Inhabited

/-- One port record (R32). -/
structure Port where
  owner : Option Nat
  desired : PortState
  applied : PortState
  confirmed : Bool
  sent : Option PortState
  mismatch : Nat
  condition : PortCondition
  deriving DecidableEq, Repr, Inhabited

/-- Branch link state (R41). -/
inductive LinkState where
  | silent | idle | sending | listening
  deriving DecidableEq, Repr, Inhabited

/-- Carrier state (R60). -/
inductive Carrier where
  | unsettled | present | lost
  deriving DecidableEq, Repr, Inhabited

/-- Which carrier timer runs (R60). -/
inductive CarrierTimer where
  | stopped | low | high
  deriving DecidableEq, Repr, Inhabited

/-- The holding stage of a Branch Link Controller (R42). -/
structure Exchange where
  element : Nat
  address : Nat
  /-- The port of a PORT LOAD; none for a STATUS QUERY. -/
  port : Option Nat
  attempt : Nat
  frame : List Byte
  /-- No further attempt is begun (R60, R61). -/
  last : Bool
  /-- The result is discarded (R61, R62). -/
  discard : Bool
  deriving DecidableEq, Repr, Inhabited

/-- One Branch Link Controller with its branch's dirty list (R41, R48, R57 to R60, R64). -/
structure Branch where
  link : LinkState
  hold : Option Exchange
  dirty : List Nat
  repoll : List Nat
  cursor : Option Nat
  run : Nat
  carrier : Carrier
  input : Bool
  timing : CarrierTimer
  exchanges : Word
  unanswered : Word
  rejected : Word
  deriving DecidableEq, Repr, Inhabited

/-! ### Plant Monitor and Outage Table (R66 to R92) -/

/-- Element kinds (R66). -/
inductive ElementKind where
  | branch | node | amplifier | tap
  deriving DecidableEq, Repr, Inhabited

/-- Supervision states (R73). -/
inductive Supervision where
  | unverified | answering | failing | suppressed
  deriving DecidableEq, Repr, Inhabited

/-- Hysteresis states of amplifiers and sources (R75, R104). -/
inductive Hysteresis where
  | unarmed | armed | tripped
  deriving DecidableEq, Repr, Inhabited

/-- A supervision record (R73). -/
structure SupRecord where
  state : Supervision
  history : BitVec 16
  unanswered : Nat
  answered : Nat
  runStart : Option Nat
  level : Hysteresis
  low : Nat
  high : Nat
  lowStart : Option Nat
  failure : Option Nat
  deriving DecidableEq, Repr, Inhabited

/-- An element record of the current element table (R66, R67). -/
structure ElementRecord where
  inUse : Bool
  kind : ElementKind
  parent : Nat
  address : Nat
  arm : Nat
  trigger : Nat
  deriving DecidableEq, Repr, Inhabited

/-- The start minute kept in an unrecorded mark (R88). -/
structure Mark where
  start : Option Nat
  deriving DecidableEq, Repr, Inhabited

/-- One element: its table record, supervision record, unrecorded mark, and what its branch's controller has
heard from its unit (R56). -/
structure Element where
  record : ElementRecord
  sup : SupRecord
  mark : Option Mark
  heard : Option Byte
  doubt : Bool
  deriving DecidableEq, Repr, Inhabited

/-- Plant Monitor, its elements aside (R66, R67). -/
structure Plant where
  mirror : Memory
  gen : Option Half
  outcome : OutcomeCode
  deriving DecidableEq, Repr, Inhabited

/-- Kind of an outage record (R83). -/
inductive OutageKind where
  | plant | source
  deriving DecidableEq, Repr, Inhabited

/-- State of an outage record (R83). -/
inductive OutageState where
  | opened | covered | closing | closed
  deriving DecidableEq, Repr, Inhabited

/-- Close cause (R83). -/
inductive CloseCause where
  | none | recovered | withdrawn
  deriving DecidableEq, Repr, Inhabited

/-- An outage record (R83). -/
structure Outage where
  id : Byte
  kind : OutageKind
  object : Nat
  state : OutageState
  start : Option Nat
  stop : Option Nat
  affected : Nat
  cause : CloseCause
  acknowledged : Bool
  deriving DecidableEq, Repr, Inhabited

/-- An opening that waits for the object's CLOSING record (R84). -/
structure Opening where
  kind : OutageKind
  object : Nat
  start : Option Nat
  deriving DecidableEq, Repr, Inhabited

/-- Outage Table (R83, R84, R88). -/
structure OutageTable where
  records : List Outage
  nextId : Byte
  marks : Vector (Option Mark) 32
  waiting : List Opening
  deriving DecidableEq, Repr, Inhabited

/-! ### Rack Link Controller and Source Supervisor (R93 to R108) -/

/-- Rack link state (R93). -/
inductive RackLink where
  | silent | sending | listening
  deriving DecidableEq, Repr, Inhabited

/-- The exchange a rack frame makes (R97, R98). -/
inductive RackJob where
  | set (position : Nat) (source : Nat)
  | query (group : Nat)
  deriving DecidableEq, Repr, Inhabited

/-- The rack link's holding stage (R94). -/
structure RackExchange where
  job : RackJob
  attempt : Nat
  frame : List Byte
  deriving DecidableEq, Repr, Inhabited

/-- Confirmed crosspoint (R99). -/
inductive Confirmed where
  | source (s : Nat)
  | nothing
  | unknown
  deriving DecidableEq, Repr, Inhabited

/-- Crosspoint conditions (R99). -/
inductive PointCondition where
  | idle | marked | inFlight | stuck
  deriving DecidableEq, Repr, Inhabited

/-- Crosspoint record of a position (R99). -/
structure Crosspoint where
  confirmed : Confirmed
  mismatch : Nat
  condition : PointCondition
  deriving DecidableEq, Repr, Inhabited

/-- Rack Link Controller (R93, R99, R101, R107). -/
structure Rack where
  link : RackLink
  hold : Option RackExchange
  pendingList : List Nat
  points : Vector Crosspoint 64
  cursor : Option Nat
  owed : Bool
  exchanges : Word
  unanswered : Word
  rejected : Word
  deriving DecidableEq, Repr, Inhabited

/-- A source hysteresis record (R104). -/
structure Source where
  state : Hysteresis
  low : Nat
  high : Nat
  lowStart : Option Nat
  lastLevel : Option Byte
  lastUnanswered : Bool
  deriving DecidableEq, Repr, Inhabited

/-! ### Minute Clock and pass (R109 to R124) -/

/-- Clock state (R109, R110). -/
inductive ClockState where
  | unset | running | held
  deriving DecidableEq, Repr, Inhabited

/-- Cycle calendar (R113). -/
structure Calendar where
  cycle : Byte
  start : Nat
  m : Nat
  nextM : Nat
  deriving DecidableEq, Repr, Inhabited

/-- Minute Clock (R109 to R115). -/
structure Clock where
  state : ClockState
  minute : Option Nat
  seconds : Nat
  lossTimer : Bool
  cal : Calendar
  backlog : Nat
  nextPass : Option Nat
  dropped : Word
  deriving DecidableEq, Repr, Inhabited

/-- Pass state (R117, R119). -/
inductive PassState where
  | idle | visiting | paused
  deriving DecidableEq, Repr, Inhabited

/-- Where a paused visit stands: its stage and the place in the purchase list (R119). -/
structure PausePoint where
  stage : Nat
  place : Nat
  deriving DecidableEq, Repr, Inhabited

/-- The subscriber pass (R116 to R122). -/
structure Pass where
  state : PassState
  minute : Option Nat
  cursor : Nat
  point : Option PausePoint
  deriving DecidableEq, Repr, Inhabited

/-! ### Order Taker and Journal Queue (R148 to R160) -/

/-- An order as the working copy holds it (11.6). -/
structure Order where
  kind : Nat
  index : Nat
  word8 : Nat
  word12 : Nat
  word16 : Nat
  word20 : Nat
  deriving DecidableEq, Repr, Inhabited

/-- The outcome word of a slot (R148). -/
structure SlotOutcome where
  code : OutcomeCode
  index : Half
  deriving DecidableEq, Repr, Inhabited

/-- Taking state (R150). -/
inductive TakingState where
  | idle | waiting
  deriving DecidableEq, Repr, Inhabited

/-- Order Taker (R148 to R150). -/
structure OrderTaker where
  mirror : Memory
  head : Half
  tail : Half
  outcomes : Vector SlotOutcome 256
  taking : TakingState
  work : Option Order
  done : Word
  refused : Word
  deriving DecidableEq, Repr, Inhabited

/-- Substitution cause (R14). -/
inductive SubstCause where
  | source | take
  deriving DecidableEq, Repr, Inhabited

/-- The amount a SATURATED notice names (R128, R130). -/
inductive Amount where
  | tier | event | held
  deriving DecidableEq, Repr, Inhabited

/-- The kind of a journal entry with the fields its rule lists (R152, 11.6). -/
inductive EntryBody where
  | purchaseCharge (position start stop : Nat)
  | purchaseRefund (position start stop dark : Nat)
  | adjustment (eventAfter : Int)
  | outageCredit (m heldMinutes : Nat) (numerator : Int) (outSince : Option Nat)
  | cycleTotal (final saturated : Bool) (purchases remainder : Nat) (tier event : Int) (heldMinutes : Nat)
      (minutesOut : Half)
  | outageOpened (id : Byte) (kind : OutageKind) (start : Option Nat) (affected : Nat)
  | outageUnrecorded (kind : OutageKind) (start : Option Nat)
  | outageClosed (id : Byte) (kind : OutageKind) (start stop : Option Nat) (cause : CloseCause)
  | substitution (cause : SubstCause) (left now : Option Nat) (primary : Nat)
  | portStuck (owner : Option Nat) (port : Nat) (reported : PortState)
  | crosspointStuck (sent : Nat) (reported : Option Nat)
  | purchaseLapsed (position start stop : Nat)
  | clockHeld (seconds : Nat)
  | minutesDropped (minute : Nat) (count : Word)
  | saturated (what : Amount)
  | protectedWrite (region : Region) (addr : Nat) (count : Word)
  deriving DecidableEq, Repr, Inhabited

/-- A journal entry, its ring index aside (R152). -/
structure Entry where
  index : Nat
  minute : Option Nat
  account : Word
  amount : Int
  cycle : Byte
  body : EntryBody
  deriving DecidableEq, Repr, Inhabited

/-- An entry in the on-chip queue: QUEUED, or WRITING with its ring index stamped (R153, R155). -/
structure Queued where
  entry : Entry
  ring : Half
  writing : Bool
  deriving DecidableEq, Repr, Inhabited

/-- Journal Queue (R153, R154). -/
structure Journal where
  queue : List Queued
  head : Half
  tail : Half
  dropped : Word
  deriving DecidableEq, Repr, Inhabited

/-! ### The part, the array, the lines -/

/-- Everything the part holds. -/
structure Chip where
  part : Part
  path : MemPath
  engine : Engine
  lineUp : LineUpEngine
  subs : Vector Subscriber 2048
  store : Store
  ports : Vector Port 2560
  sweep : Option Nat
  branches : Vector Branch 4
  elements : Vector Element 640
  plant : Plant
  rack : Rack
  sources : Vector Source 32
  outages : OutageTable
  clock : Clock
  pass : Pass
  orders : OrderTaker
  journal : Journal
  /-- The model's own counter of free values drawn (log 5). -/
  drawn : Nat
  deriving DecidableEq, Repr, Inhabited

/-- A command on the array side (R161, R174). -/
inductive ArrayCmd where
  | forward (i : Instr)
  /-- A word of a WRITE burst as forwarded, with the masks the Memory Path drives (R170). -/
  | forwardWord (w : HostWord)
  | prechargeAll
  /-- An ACTIVATE of the engine's own for a row it needs (R174). -/
  | activate (bank row : Nat)
  /-- A PRECHARGE of the engine's own, before another row of the bank is activated (log 40). -/
  | precharge (bank : Nat)
  /-- One burst of a tenure, by the byte address of its first word (R174). -/
  | burst (writing : Bool) (addr : Nat)
  deriving DecidableEq, Repr

/-- What the part drives: read data to the controller side, and commands on the array side in the last step that
drove any. -/
structure Lines where
  readData : List Word
  arrayCmds : List ArrayCmd
  deriving DecidableEq, Repr

/-- The machine: the part, the SDRAM array, the lines, and the commands that wait, first in first out. -/
structure State where
  chip : Chip
  array : Memory
  lines : Lines
  pending : List Instr
  deriving DecidableEq, Repr

/-! ### Named updates -/

def Chip.setPart (c : Chip) (x : Part) : Chip := { c with part := x }
def Chip.setPath (c : Chip) (x : MemPath) : Chip := { c with path := x }
def Chip.setEngine (c : Chip) (x : Engine) : Chip := { c with engine := x }
def Chip.setLineUp (c : Chip) (x : LineUpEngine) : Chip := { c with lineUp := x }
def Chip.setSubs (c : Chip) (x : Vector Subscriber 2048) : Chip := { c with subs := x }
def Chip.setStore (c : Chip) (x : Store) : Chip := { c with store := x }
def Chip.setPorts (c : Chip) (x : Vector Port 2560) : Chip := { c with ports := x }
def Chip.setSweep (c : Chip) (x : Option Nat) : Chip := { c with sweep := x }
def Chip.setBranches (c : Chip) (x : Vector Branch 4) : Chip := { c with branches := x }
def Chip.setElements (c : Chip) (x : Vector Element 640) : Chip := { c with elements := x }
def Chip.setPlant (c : Chip) (x : Plant) : Chip := { c with plant := x }
def Chip.setRack (c : Chip) (x : Rack) : Chip := { c with rack := x }
def Chip.setSources (c : Chip) (x : Vector Source 32) : Chip := { c with sources := x }
def Chip.setOutages (c : Chip) (x : OutageTable) : Chip := { c with outages := x }
def Chip.setClock (c : Chip) (x : Clock) : Chip := { c with clock := x }
def Chip.setPass (c : Chip) (x : Pass) : Chip := { c with pass := x }
def Chip.setOrders (c : Chip) (x : OrderTaker) : Chip := { c with orders := x }
def Chip.setJournal (c : Chip) (x : Journal) : Chip := { c with journal := x }
def Chip.setDrawn (c : Chip) (x : Nat) : Chip := { c with drawn := x }

def State.setChip (s : State) (x : Chip) : State := { s with chip := x }
def State.setArray (s : State) (x : Memory) : State := { s with array := x }
def State.setLines (s : State) (x : Lines) : State := { s with lines := x }

/-- A step of the part that neither reads nor writes the array and drives no line. -/
def State.onChip (s : State) (f : Chip → Chip) : State := s.setChip (f s.chip)

/-! ### Reset values, block by block

Each is the "power-on reset" column of the block's reset table; what the table leaves open is named in log 13. -/

/-- R161, R177: every bank CLOSED, NORMAL, no CAS latency, counts 0, mark NONE. -/
def MemPath.reset : MemPath :=
  { banks := Vector.replicate 4 none, mem := .normal, cas := none, blind := 0, guarded := 0, lastGuarded := 0
    mark := none, burst := none }

/-- R177. -/
def Engine.reset : Engine := { request := .idle, checkpoint := none, tenure := none, count := 0 }

/-- The line-up that stands while none is in force: every position UNUSED, no source supervised (R20). -/
def LineUp.empty : LineUp :=
  { rates := Vector.replicate 16 0
    sources := Vector.replicate 32 { arm := 0, trigger := 0, nTrip := 0, nClear := 0, supervised := false }
    channels := Vector.replicate 64 { used := false, primary := 0, backup := none, tier := 0 }
    blackouts := [] }

/-- R20. -/
def LineUpEngine.reset : LineUpEngine :=
  { mirror := [], current := LineUp.empty, gen := none, held := false, outcome := .notTaken
    effective := Vector.replicate 64 { source := none, onBackup := false }
    active := [], zones := Vector.replicate 64 0 }

/-- A FREE record's live block: all amounts, held values and purchases zero or empty (R23). -/
def Live.free : Live :=
  { outcome := .notTaken, state := .free, takenRev := 0, cycle := 0, appliedOn := false, confirmed := false
    stuck := false, saturated := false, appliedTiers := 0, owned := none, heldMinutes := 0, tierAmount := 0
    eventAmount := 0, remainder := 0, heldNumerator := 0, outSince := none, purchases := [] }

/-- A record before the fill (R39; log 13). -/
def Subscriber.reset : Subscriber :=
  { taken := { revision := 0, status := 0, zone := 0, tiers := 0, element := 0, port := 0, account := 0 }
    live := Live.free, dirty := false, filled := false, oddState := none }

/-- R39. -/
def Store.reset : Store :=
  { mirror := [], queue := [], hold := none, answered := false, turn := .fresh, cursor := 0, copy := none }

/-- R40: no owner, desired OFF, count 0, PARKED. -/
def Port.reset : Port :=
  { owner := none, desired := .off, applied := .off, confirmed := false, sent := none, mismatch := 0
    condition := .parked }

/-- R65, with the carrier input low and its low timer running (log 13). -/
def Branch.reset : Branch :=
  { link := .silent, hold := none, dirty := [], repoll := [], cursor := none, run := 0, carrier := .unsettled
    input := false, timing := .low, exchanges := 0, unanswered := 0, rejected := 0 }

/-- A fresh supervision record (R73). -/
def SupRecord.fresh : SupRecord :=
  { state := .unverified, history := 0, unanswered := 0, answered := 0, runStart := none, level := .unarmed
    low := 0, high := 0, lowStart := none, failure := none }

/-- An element that is not in use (R91). -/
def Element.reset : Element :=
  { record := { inUse := false, kind := .node, parent := 0, address := 0, arm := 0, trigger := 0 }
    sup := SupRecord.fresh, mark := none, heard := none, doubt := false }

/-- R91. -/
def Plant.reset : Plant := { mirror := [], gen := none, outcome := .notTaken }

/-- R92. -/
def OutageTable.reset : OutageTable :=
  { records := [], nextId := 0, marks := Vector.replicate 32 none, waiting := [] }

/-- R108. -/
def Rack.reset : Rack :=
  { link := .silent, hold := none, pendingList := []
    points := Vector.replicate 64 { confirmed := .unknown, mismatch := 0, condition := .idle }
    cursor := none, owed := false, exchanges := 0, unanswered := 0, rejected := 0 }

/-- R108. -/
def Source.reset : Source :=
  { state := .unarmed, low := 0, high := 0, lowStart := none, lastLevel := none, lastUnanswered := false }

/-- R124. The calendar comes from the fill. -/
def Clock.reset : Clock :=
  { state := .unset, minute := none, seconds := 0, lossTimer := false
    cal := { cycle := 0, start := 0, m := 0, nextM := 0 }, backlog := 0, nextPass := none, dropped := 0 }

/-- R124. -/
def Pass.reset : Pass := { state := .idle, minute := none, cursor := 0, point := none }

/-- R159. -/
def OrderTaker.reset : OrderTaker :=
  { mirror := [], head := 0, tail := 0, outcomes := Vector.replicate 256 { code := .notTaken, index := 0 }
    taking := .idle, work := none, done := 0, refused := 0 }

/-- R160. -/
def Journal.reset : Journal := { queue := [], head := 0, tail := 0, dropped := 0 }

/-- R187, with the strap sampled at this reset (R178). -/
def Part.reset (strap : BitVec 4) (cause : ResetCause) : Part :=
  { state := .awaitMode, fault := .none, stage := .none, cause := cause, cfgsel := strap, strap := strap
    config := none, mapInForce := false, startView := [], startBlank := false, marks := [], fillNext := 0
    heldHead := 0, heldTail := 0 }

/-- Every block at its power-on value (R179), with the given strap and cause. -/
def Chip.reset (strap : BitVec 4) (cause : ResetCause) : Chip :=
  { part := Part.reset strap cause, path := MemPath.reset, engine := Engine.reset, lineUp := LineUpEngine.reset
    subs := Vector.replicate 2048 Subscriber.reset, store := Store.reset
    ports := Vector.replicate 2560 Port.reset, sweep := none, branches := Vector.replicate 4 Branch.reset
    elements := Vector.replicate 640 Element.reset, plant := Plant.reset, rack := Rack.reset
    sources := Vector.replicate 32 Source.reset, outages := OutageTable.reset, clock := Clock.reset
    pass := Pass.reset, orders := OrderTaker.reset, journal := Journal.reset, drawn := 0 }

/-- The machine right after power-on (R179), with the CFGSEL strap at 0 (log 14), an array nothing has written
(log 3), no line driven and no command waiting. -/
def State.reset : State :=
  { chip := Chip.reset 0 .power, array := [], lines := { readData := [], arrayCmds := [] }, pending := [] }

end Sys2Proof.Machine
end

