-- ==== Sys2Proof/Machine/Ops.lean ====
section
/-! DEFINITION. The named operations over memory, tables and the records of the part that every meaning uses. -/

namespace Sys2Proof.Machine

/-! ### Tables -/

/-- The i-th record of a table; a record outside the table reads as the default one. -/
def vget {α : Type} {n : Nat} [Inhabited α] (v : Vector α n) (i : Nat) : α := v[i]?.getD default

/-- The table with its i-th record updated; outside the table nothing changes. -/
def vupd {α : Type} {n : Nat} (v : Vector α n) (i : Nat) (f : α → α) : Vector α n :=
  if h : i < n then v.set i (f v[i]) else v

/-- Apply a step for each of the numbers 0 to n - 1 in ascending order (00_scope.md "Index order"). -/
def forIndices {α : Type} (n : Nat) (f : α → Nat → α) (x : α) : α := (List.range n).foldl f x

/-! ### Memory -/

/-- The byte at an address. -/
def Memory.read : Memory → Nat → Byte
  | [], _ => Config.blankByte
  | (k, v) :: m, a => if k = a then v else Memory.read m a

/-- Write one byte, keeping the canonical form. -/
def Memory.write : Memory → Nat → Byte → Memory
  | [], a, b => if b = Config.blankByte then [] else [(a, b)]
  | (k, v) :: m, a, b =>
    if a < k then (if b = Config.blankByte then (k, v) :: m else (a, b) :: (k, v) :: m)
    else if a = k then (if b = Config.blankByte then m else (a, b) :: m)
    else (k, v) :: Memory.write m a b

/-- Write bytes at rising addresses from a. -/
def Memory.writeBytes : Memory → Nat → List Byte → Memory
  | m, _, [] => m
  | m, a, b :: bs => Memory.writeBytes (Memory.write m a b) (a + 1) bs

/-- Addresses of a memory all lie above the bound, rising, and no entry is blank. -/
def Memory.wfAbove : Nat → Memory → Bool
  | _, [] => true
  | lo, (k, v) :: m => lo ≤ k && v != Config.blankByte && Memory.wfAbove (k + 1) m

/-- The canonical form: addresses strictly rising, no entry equal to what an unlisted address reads as. -/
def Memory.wf (m : Memory) : Bool := Memory.wfAbove 0 m

/-- n bytes from a, in rising address order. -/
def Memory.bytes (m : Memory) (a n : Nat) : List Byte := (List.range n).map fun k => Memory.read m (a + k)

/-- The little-endian number of a list of bytes (R188). -/
def natOfBytes : List Byte → Nat
  | [] => 0
  | b :: bs => b.toNat + 256 * natOfBytes bs

/-- n bytes of a number, little-endian (R188). -/
def bytesOfNat : Nat → Nat → List Byte
  | 0, _ => []
  | n + 1, v => BitVec.ofNat 8 v :: bytesOfNat n (v / 256)

/-- n bytes of a signed number, two's complement, little-endian (R188). -/
def bytesOfInt (n : Nat) (v : Int) : List Byte := bytesOfNat n (v % (256 ^ n : Nat)).toNat

/-- An unsigned field of n bytes at a (R188). -/
def Memory.nat (m : Memory) (a n : Nat) : Nat := natOfBytes (Memory.bytes m a n)

/-- The signed value of an n-byte field whose unsigned value is v (R188). -/
def signedOf (n v : Nat) : Int := if 2 * v < 256 ^ n then (v : Int) else (v : Int) - (256 ^ n : Nat)

/-- A signed field of n bytes at a (R188). -/
def Memory.int (m : Memory) (a n : Nat) : Int := signedOf n (Memory.nat m a n)

/-- A minute number or NONE as its 32-bit field holds it: NONE is all ones (R188). -/
def minuteField : Option Nat → Nat
  | some m => m
  | none => 4294967295

/-- The minute number a 32-bit field holds: all ones is NONE (R188). -/
def minuteOfField (v : Nat) : Option Nat := if v = 4294967295 then none else some v

/-- The four bytes of a word, least significant first (R188). -/
def wordBytes (w : Word) : List Byte := bytesOfNat 4 w.toNat

/-- The 32-bit word of four bytes (R188). -/
def wordOfBytes (bs : List Byte) : Word := BitVec.ofNat 32 (natOfBytes bs)

/-- The array's word at a byte address. -/
def Memory.word (m : Memory) (a : Nat) : Word := wordOfBytes (Memory.bytes m a 4)

/-- Byte lane k of a word. -/
def lane (w : Word) (k : Nat) : Byte := (w >>> (8 * k)).setWidth 8

/-- Is byte k of a host word written, that is, not masked (R162)? -/
def HostWord.touches (w : HostWord) (k : Nat) : Bool := k < 4 && !w.mask.getLsbD k

/-- Does the write touch either of bytes 0 and 1 of the word? -/
def HostWord.touchesLow (w : HostWord) : Bool := w.touches 0 || w.touches 1

/-- A word whose four bytes are all masked writes nothing (R162). -/
def HostWord.writes (w : HostWord) : Bool := w.touches 0 || w.touches 1 || w.touches 2 || w.touches 3

/-- The host word that a write to a 16-bit word makes: its upper two bytes are masked. -/
def halfWord (h : HalfWrite) (addr : Nat) : HostWord :=
  { addr := addr, data := h.value.setWidth 32
    mask := BitVec.ofNat 4 (12 + (if h.lo then 0 else 1) + (if h.hi then 0 else 2)) }

/-- The unmasked bytes of a host word written to a memory whose keys are byte addresses less `base`. -/
def Memory.writeHost (m : Memory) (base : Nat) (w : HostWord) : Memory :=
  forIndices 4 (fun m k => if w.touches k then Memory.write m (w.addr - base + k) (lane w.data k) else m) m

/-- Valid marks for the unmasked bytes of a host word (R183). -/
def markBytes (m : Memory) (w : HostWord) : Memory :=
  forIndices 4 (fun m k => if w.touches k then Memory.write m (w.addr + k) 1 else m) m

/-- The candidate value of a ring index: the bytes written, and the index in force for the bytes not written
(R149, R156). -/
def candidate (w : HostWord) (inForce : Half) : Half :=
  BitVec.ofNat 16
    ((if w.touches 0 then (lane w.data 0).toNat else inForce.toNat % 256)
      + 256 * (if w.touches 1 then (lane w.data 1).toNat else inForce.toNat / 256))

/-! ### Sets -/

/-- The set whose members are the k below n with p k. -/
def setOf (n : Nat) (p : Nat → Bool) : BitVec n := BitVec.ofFnLE fun k : Fin n => p k

/-! ### Selectors of the part -/

/-- The record of subscriber i. -/
def Chip.sub (c : Chip) (i : Nat) : Subscriber := vget c.subs i

/-- Port record p. -/
def Chip.port (c : Chip) (p : Nat) : Port := vget c.ports p

/-- Branch link controller b. -/
def Chip.branch (c : Chip) (b : Nat) : Branch := vget c.branches b

/-- Element e. -/
def Chip.element (c : Chip) (e : Nat) : Element := vget c.elements e

/-- Source s. -/
def Chip.source (c : Chip) (s : Nat) : Source := vget c.sources s

/-- Crosspoint record of position q. -/
def Chip.point (c : Chip) (q : Nat) : Crosspoint := vget c.rack.points q

/-- Channel record of position q in the current line-up. -/
def Chip.channel (c : Chip) (q : Nat) : Channel := vget c.lineUp.current.channels q

/-- Effective source of position q. -/
def Chip.effective (c : Chip) (q : Nat) : Effective := vget c.lineUp.effective q

/-- The configuration values taken at the fill. -/
def Chip.config (c : Chip) : ConfigValues := c.part.config.getD default

/-- The Minute Clock's current minute number; NONE while the clock is UNSET (R109). -/
def Chip.now (c : Chip) : Option Nat := c.clock.minute

/-- The part is RUNNING. -/
def Chip.running (c : Chip) : Bool := c.part.state == .running

/-! ### Updates of one record -/

/-- Update the record of subscriber i. -/
def Chip.updSub (c : Chip) (i : Nat) (f : Subscriber → Subscriber) : Chip := c.setSubs (vupd c.subs i f)

/-- Update port p. -/
def Chip.updPort (c : Chip) (p : Nat) (f : Port → Port) : Chip := c.setPorts (vupd c.ports p f)

/-- Update branch link controller b. -/
def Chip.updBranch (c : Chip) (b : Nat) (f : Branch → Branch) : Chip := c.setBranches (vupd c.branches b f)

/-- Update element e. -/
def Chip.updElement (c : Chip) (e : Nat) (f : Element → Element) : Chip := c.setElements (vupd c.elements e f)

/-- Update the supervision record of element e. -/
def Chip.updSup (c : Chip) (e : Nat) (f : SupRecord → SupRecord) : Chip :=
  c.updElement e fun el => { el with sup := f el.sup }

/-- Update source s. -/
def Chip.updSource (c : Chip) (s : Nat) (f : Source → Source) : Chip := c.setSources (vupd c.sources s f)

/-- Update the crosspoint record of position q. -/
def Chip.updPoint (c : Chip) (q : Nat) (f : Crosspoint → Crosspoint) : Chip :=
  c.setRack { c.rack with points := vupd c.rack.points q f }

/-- Change a live block; any change of a field sets the dirty mark (R36). -/
def Chip.updLive (c : Chip) (i : Nat) (f : Live → Live) : Chip :=
  c.updSub i fun r => if f r.live = r.live then r else { r with live := f r.live, dirty := true }

/-- Set the dirty mark of record i (R36). -/
def Chip.markDirty (c : Chip) (i : Nat) : Chip := c.updSub i fun r => { r with dirty := true }

/-- Append to an ordered collection without duplicates (R24, R58). -/
def appendNew (l : List Nat) (x : Nat) : List Nat := if l.contains x then l else l ++ [x]

/-! ### Plant relations (R67) -/

/-- The ancestors of an element, nearest first, climbing at most `fuel` parents (R67). -/
def ancestorsFrom (es : Vector Element 640) : Nat → Nat → List Nat
  | 0, _ => []
  | fuel + 1, e =>
    if e < 4 then []
    else (vget es e).record.parent :: ancestorsFrom es fuel (vget es e).record.parent

/-- The ancestors of element e (R67); a chain has at most 640 elements. -/
def Chip.ancestors (c : Chip) (e : Nat) : List Nat := ancestorsFrom c.elements 640 e

/-- The root at the end of the chain of ancestors. -/
def rootFrom (es : Vector Element 640) (e : Nat) : Nat := (ancestorsFrom es 640 e).getLastD e

/-- The branch of element e: the root at the end of its chain (R67). -/
def Chip.branchOf (c : Chip) (e : Nat) : Nat := rootFrom c.elements e

/-- Does element e have a FAILING ancestor? -/
def Chip.failingAbove (c : Chip) (e : Nat) : Bool :=
  (c.ancestors e).any fun a => (c.element a).record.inUse && (c.element a).sup.state == .failing

/-- Is x in the subtree of e: e itself or an in-use element with e among its ancestors (R67)? -/
def Chip.inSubtree (c : Chip) (e x : Nat) : Bool :=
  (c.element x).record.inUse && (x == e || (c.ancestors x).contains e)

/-- Is element e an in-use element of kind TAP? -/
def Chip.isTap (c : Chip) (e : Nat) : Bool := (c.element e).record.inUse && (c.element e).record.kind == .tap

/-- Can the unit of element e be loaded: an in-use TAP that is ANSWERING (R47, PARKED)? -/
def Chip.loadable (c : Chip) (e : Nat) : Bool := c.isTap e && (c.element e).sup.state == .answering

/-- A record is out while it owns a port on a tap that is FAILING, SUPPRESSED or UNVERIFIED (R82). -/
def Chip.out (c : Chip) (i : Nat) : Bool :=
  match (c.sub i).live.owned with
  | some o => (c.element o.element).sup.state != .answering
  | none => false

/-- Does source s have an open source outage: is it supervised and TRIPPED (R12, R104)? -/
def Chip.sourceOut (c : Chip) (s : Nat) : Bool := (c.source s).state == .tripped

/-- The minute an event outside the pass counts for, at record i (R121). -/
def Chip.eventMinute (c : Chip) (i : Nat) : Option Nat :=
  match c.pass.state with
  | .idle => c.clock.nextPass
  | _ => if i < c.pass.cursor then c.pass.minute.map (· + 1) else c.pass.minute

end Sys2Proof.Machine
end

