-- ==== Sys2Proof/Machine/Flags.lean ====
section
/-! DEFINITION. Code values of every named state (11.8), and the output pins as functions of the state. -/

namespace Sys2Proof.Machine

/-- Outcome codes (11.8). -/
def OutcomeCode.byte : OutcomeCode → Byte
  | .notTaken => 0x00 | .pending => 0x01 | .done => 0x02 | .held => 0x03
  | .rateRange => 0x10 | .sourceSetting => 0x11 | .channelRecord => 0x12 | .blackoutCount => 0x13
  | .blackoutEntry => 0x14
  | .statusCode => 0x20 | .zoneRange => 0x21 | .notATap => 0x22 | .portRange => 0x23 | .portTaken => 0x24
  | .finalPending => 0x25
  | .rootKind => 0x30 | .elementKind => 0x31 | .parent => 0x32 | .address => 0x33 | .plantInUse => 0x34
  | .unknownKind => 0x40 | .clockUnset => 0x41 | .indexRange => 0x42 | .notInService => 0x43
  | .parameterRange => 0x44
  | .tooLate => 0x50 | .listFull => 0x51 | .alreadyEntitled => 0x52 | .conflict => 0x53 | .notFound => 0x54
  | .stepRange => 0x55 | .stepBack => 0x56
  | .raw b => b

/-- The named outcome codes. -/
def OutcomeCode.named : List OutcomeCode :=
  [.notTaken, .pending, .done, .held, .rateRange, .sourceSetting, .channelRecord, .blackoutCount, .blackoutEntry,
   .statusCode, .zoneRange, .notATap, .portRange, .portTaken, .finalPending, .rootKind, .elementKind, .parent,
   .address, .plantInUse, .unknownKind, .clockUnset, .indexRange, .notInService, .parameterRange, .tooLate,
   .listFull, .alreadyEntitled, .conflict, .notFound, .stepRange, .stepBack]

/-- The outcome a byte names; a byte that names none is kept as it is. -/
def OutcomeCode.ofByte (b : Byte) : OutcomeCode := (OutcomeCode.named.find? (·.byte == b)).getD (.raw b)

def PartState.code : PartState → Nat
  | .awaitMode => 0 | .fill => 1 | .running => 2 | .configFault => 3 | .transparent => 4

def FaultCode.code : FaultCode → Nat
  | .none => 0 | .format => 1 | .regionPlace => 2 | .regionSize => 3 | .overlap => 4 | .ringSize => 5
  | .calendar => 6 | .plantTake => 7 | .lineUpTake => 8

def FillStage.code : FillStage → Nat
  | .none => 0 | .configBlock => 1 | .checkpoint => 2 | .plant => 3 | .lineUp => 4 | .subscriber => 5
  | .orderRing => 6

def ResetCause.code : ResetCause → Nat
  | .power => 0 | .pin => 1 | .modeRecovery => 2 | .configRetake => 3

def Region.code : Region → Nat
  | .config => 0 | .status => 1 | .subscriber => 2 | .lineUp => 3 | .plant => 4 | .orderRing => 5
  | .journalRing => 6

def RecordState.code : RecordState → Nat
  | .free => 0 | .active => 1 | .suspended => 2 | .final => 3

def RecordState.ofCode : Nat → Option RecordState
  | 0 => some .free | 1 => some .active | 2 => some .suspended | 3 => some .final | _ => none

def PurchaseState.code : PurchaseState → Nat
  | .booked => 1 | .opening => 2 | .confirmed => 3 | .charged => 4

def PurchaseState.ofCode : Nat → Option PurchaseState
  | 1 => some .booked | 2 => some .opening | 3 => some .confirmed | 4 => some .charged | _ => none

def ElementKind.ofCode : Nat → Option ElementKind
  | 1 => some .branch | 2 => some .node | 3 => some .amplifier | 4 => some .tap | _ => none

def Supervision.code : Supervision → Nat
  | .unverified => 0 | .answering => 1 | .failing => 2 | .suppressed => 3

def Hysteresis.code : Hysteresis → Nat
  | .unarmed => 0 | .armed => 1 | .tripped => 2

def OutageState.code : OutageState → Nat
  | .opened => 0 | .covered => 1 | .closing => 2 | .closed => 3

def OutageKind.code : OutageKind → Nat
  | .plant => 0 | .source => 1

def CloseCause.code : CloseCause → Nat
  | .none => 0 | .recovered => 1 | .withdrawn => 2

def SubstCause.code : SubstCause → Nat
  | .source => 0 | .take => 1

def Amount.code : Amount → Nat
  | .tier => 0 | .event => 1 | .held => 2

def PointCondition.code : PointCondition → Nat
  | .idle => 0 | .marked => 1 | .inFlight => 2 | .stuck => 4

def LinkState.code : LinkState → Nat
  | .silent => 0 | .idle => 1 | .sending => 2 | .listening => 3

def RackLink.code : RackLink → Nat
  | .silent => 0 | .sending => 1 | .listening => 2

def Carrier.code : Carrier → Nat
  | .unsettled => 0 | .present => 1 | .lost => 2

def ClockState.code : ClockState → Nat
  | .unset => 0 | .running => 1 | .held => 2

def PassState.code : PassState → Nat
  | .idle => 0 | .visiting => 1 | .paused => 2

def RequestState.code : RequestState → Nat
  | .idle => 0 | .requesting => 1 | .holding => 2

/-- DEDUCED (log 15): memory states in their rule's order, from 0. -/
def MemState.code : MemState → Nat
  | .normal => 0 | .selfRefresh => 1

/-- DEDUCED (log 15): taking states in their rule's order, from 0. -/
def TakingState.code : TakingState → Nat
  | .idle => 0 | .waiting => 1

/-- A source field that is none or NOTHING holds FFh (R188, 11.6). -/
def sourceByte : Option Nat → Byte
  | some s => BitVec.ofNat 8 s
  | none => 0xFF

/-- Confirmed crosspoint codes (11.3): FEh UNKNOWN, FFh NOTHING. -/
def Confirmed.byte : Confirmed → Byte
  | .source s => BitVec.ofNat 8 s
  | .nothing => 0xFF
  | .unknown => 0xFE

/-- A flag as a number. -/
def flag (b : Bool) : Nat := if b then 1 else 0

/-! ### Output pins -/

/-- BUSREQ is asserted while REQUESTING or HOLDING (R172). -/
def State.busreq (s : State) : Bool := s.chip.engine.request != .idle

/-- BUSURG: RUNNING with 48 or more entries in the on-chip queue (R172). -/
def Chip.busurg (c : Chip) : Bool := c.running && Config.urgentLength ≤ c.journal.queue.length

/-- ATTN (R157): RUNNING with the journal tail differing from the head, CONFIG FAULT, and TRANSPARENT. -/
def Chip.attn (c : Chip) : Bool :=
  match c.part.state with
  | .running => c.journal.tail != c.journal.head
  | .configFault => true
  | .transparent => true
  | _ => false

/-- The driver enable of a branch link: only a SENDING controller drives its link (R41). -/
def Chip.branchDrives (c : Chip) (b : Nat) : Bool := (c.branch b).link == .sending

/-- The driver enable of the rack link (R93). -/
def Chip.rackDrives (c : Chip) : Bool := c.rack.link == .sending

end Sys2Proof.Machine
end

