-- ==== Sys2Proof/Machine/Operands.lean ====
section
/-! DEFINITION. The fields of the records the part reads (11.2 to 11.6): configuration block, checkpoint, line-up,
plant, intent and live sections, order slots; and the bytes of the live section and of the checkpoint it writes. -/

namespace Sys2Proof.Machine

/-! ### CONFIG region (11.2) -/

/-- Base of the CONFIG region: CFGSEL x 4 MiB (R167). -/
def Chip.configBase (c : Chip) : Nat := c.part.cfgsel.toNat * Config.configStep

/-- The configuration block at base b (11.2). -/
def configAt (m : Memory) (b : Nat) : ConfigValues :=
  { format := m.nat b 4
    status := { base := m.nat (b + 4) 4, size := m.nat (b + 8) 4 }
    subscriber := { base := m.nat (b + 12) 4, size := m.nat (b + 16) 4 }
    lineUp := { base := m.nat (b + 20) 4, size := m.nat (b + 24) 4 }
    plant := { base := m.nat (b + 28) 4, size := m.nat (b + 32) 4 }
    orderRing := { base := m.nat (b + 36) 4, size := m.nat (b + 40) 4 }
    journalRing := { base := m.nat (b + 44) 4, size := m.nat (b + 48) 4 }
    orderCapacity := m.nat (b + 52) 2
    journalCapacity := m.nat (b + 54) 2
    initialStart := m.nat (b + 56) 4
    initialM := m.nat (b + 60) 4
    initialCycle := BitVec.ofNat 8 (m.nat (b + 64) 1)
    creditThreshold := m.nat (b + 66) 2 }

/-- The fields of a checkpoint record (11.2, R184). -/
structure CheckpointFields where
  mark : Nat
  cycle : Byte
  start : Nat
  m : Nat
  nextM : Nat
  head : Half
  tail : Half
  deriving DecidableEq, Repr

/-- The checkpoint record at address a (11.2). -/
def checkpointAt (m : Memory) (a : Nat) : CheckpointFields :=
  { mark := m.nat a 2, cycle := BitVec.ofNat 8 (m.nat (a + 2) 1), start := m.nat (a + 4) 4
    m := m.nat (a + 8) 4, nextM := m.nat (a + 12) 4
    head := BitVec.ofNat 16 (m.nat (a + 24) 2), tail := BitVec.ofNat 16 (m.nat (a + 26) 2) }

/-- A cycle length is 1,440 to 44,640 minutes (R113). -/
def cycleLengthOk (n : Nat) : Bool := 1440 ≤ n && n ≤ 44640

/-- Blank: the mark is not 4820h, or M or next M is out of range (R184). -/
def CheckpointFields.blank (f : CheckpointFields) : Bool :=
  f.mark != 0x4820 || !cycleLengthOk f.m || !cycleLengthOk f.nextM

/-- The 32 bytes of a checkpoint record (11.2). -/
def Checkpoint.bytes (k : Checkpoint) (head tail : Half) : List Byte :=
  bytesOfNat 2 0x4820 ++ [k.cycle, 0] ++ bytesOfNat 4 k.start ++ bytesOfNat 4 k.m ++ bytesOfNat 4 k.nextM
    ++ bytesOfNat 4 (minuteField k.passMinute) ++ bytesOfNat 2 k.lineUpGen.toNat ++ bytesOfNat 2 k.plantGen.toNat
    ++ bytesOfNat 2 head.toNat ++ bytesOfNat 2 tail.toNat ++ bytesOfNat 4 0

/-! ### LINE-UP and PLANT regions (11.5), by offset -/

/-- The take word of a LINE-UP or PLANT mirror. -/
def takeWord (m : Memory) : Half := BitVec.ofNat 16 (m.nat 0 2)

/-- Tier rate t of the mirror. -/
def mirrorRate (m : Memory) (t : Nat) : Int := m.int (16 + 4 * t) 4

/-- Source record s of the mirror. -/
def mirrorSource (m : Memory) (s : Nat) : SourceSetting :=
  { arm := m.nat (80 + 8 * s) 1, trigger := m.nat (81 + 8 * s) 1, nTrip := m.nat (82 + 8 * s) 1
    nClear := m.nat (83 + 8 * s) 1, supervised := m.nat (84 + 8 * s) 1 % 2 == 1 }

/-- The use code of position q in the mirror. -/
def mirrorUse (m : Memory) (q : Nat) : Nat := m.nat (336 + 4 * q) 1

/-- Channel record q of the mirror; a backup of FFh is NONE (R188). -/
def mirrorChannel (m : Memory) (q : Nat) : Channel :=
  { used := mirrorUse m q == 1, primary := m.nat (337 + 4 * q) 1
    backup := if m.nat (338 + 4 * q) 1 = 255 then none else some (m.nat (338 + 4 * q) 1)
    tier := m.nat (339 + 4 * q) 1 }

/-- The blackout count of the mirror. -/
def mirrorCount (m : Memory) : Nat := m.nat 592 2

/-- Blackout slot k of the mirror. -/
def mirrorBlackout (m : Memory) (k : Nat) : Blackout :=
  { position := m.nat (608 + 12 * k) 1, zones := BitVec.ofNat 8 (m.nat (609 + 12 * k) 1)
    start := m.nat (612 + 12 * k) 4, stop := m.nat (616 + 12 * k) 4 }

/-- The line-up a take copies from the mirror: the first count blackout entries only (R6, step 1). -/
def mirrorLineUp (m : Memory) : LineUp :=
  { rates := Vector.ofFn fun t => mirrorRate m t
    sources := Vector.ofFn fun s => mirrorSource m s
    channels := Vector.ofFn fun q => mirrorChannel m q
    blackouts := (List.range (mirrorCount m)).map (mirrorBlackout m) }

/-- The kind code of element e in the PLANT mirror. -/
def mirrorKind (m : Memory) (e : Nat) : Nat := m.nat (17 + 8 * e) 1

/-- Element record e of the PLANT mirror (11.5). A kind code outside 1 to 4 stands only in records that are not in
use, or that a take refuses; it reads as NODE. -/
def mirrorElement (m : Memory) (e : Nat) : ElementRecord :=
  { inUse := m.nat (16 + 8 * e) 1 % 2 == 1, kind := (ElementKind.ofCode (mirrorKind m e)).getD .node
    parent := m.nat (18 + 8 * e) 2, address := m.nat (20 + 8 * e) 2
    arm := m.nat (22 + 8 * e) 1, trigger := m.nat (23 + 8 * e) 1 }

/-! ### Subscriber record (11.4) -/

/-- The intent section at address a. -/
def intentAt (m : Memory) (a : Nat) : Intent :=
  { revision := BitVec.ofNat 16 (m.nat a 2), status := m.nat (a + 2) 1, zone := m.nat (a + 3) 1
    tiers := BitVec.ofNat 16 (m.nat (a + 4) 2), element := m.nat (a + 6) 2, port := m.nat (a + 8) 1
    account := BitVec.ofNat 32 (m.nat (a + 12) 4) }

/-- The intent mirror of record i, by offset in the SUBSCRIBER region. -/
def Chip.intent (c : Chip) (i : Nat) : Intent := intentAt c.store.mirror (128 * i)

/-- The owned-port field: bits 0-9 element, 10-11 port, 12-14 zone; FFFFh NONE (11.4). DESIGN CHOICE (unsafe): bit 15 of
any other value is ignored (log 65). -/
def ownedOfField (v : Nat) : Option Owned :=
  if v = 65535 then none
  else some { element := v % 1024, port := v / 1024 % 4, zone := v / 4096 % 8 }

/-- The owned-port field of a record (11.4); bit 15 is written 0 but in NONE (log 65). -/
def ownedField : Option Owned → Nat
  | some o => o.element % 1024 + 1024 * (o.port % 4) + 4096 * (o.zone % 8)
  | none => 65535

/-- The purchase slot at address a: none when empty or when its state code is above 4 (R188). DESIGN CHOICE (unsafe): the
price field is unsigned (log 62). -/
def purchaseAt (m : Memory) (a : Nat) : Option Purchase :=
  (PurchaseState.ofCode (m.nat (a + 1) 1)).map fun st =>
    { position := m.nat a 1, state := st, dark := m.nat (a + 2) 2, start := m.nat (a + 4) 4
      stop := m.nat (a + 8) 4, price := m.nat (a + 12) 4 }

/-- The purchase slots at address a: the non-empty ones in slot order (R188). -/
def purchasesAt (m : Memory) (a : Nat) : List Purchase :=
  (List.range 4).filterMap fun k => purchaseAt m (a + 16 * k)

/-- Does some purchase slot hold a state code above 4 (R188)? -/
def purchasesOdd (m : Memory) (a : Nat) : Bool := (List.range 4).any fun k => 4 < m.nat (a + 16 * k + 1) 1

/-- The live block that a live section at address a (the section's own base, record base + 32) holds. A state code that
is none of the four stands beside it (`oddStateAt`), the block's own state being FREE. -/
def liveAt (m : Memory) (a : Nat) : Live :=
  { outcome := OutcomeCode.ofByte (m.read a), state := (RecordState.ofCode (m.nat (a + 1) 1)).getD .free
    takenRev := BitVec.ofNat 16 (m.nat (a + 2) 2), cycle := m.read (a + 4)
    appliedOn := (m.read (a + 5)).getLsbD 0, confirmed := (m.read (a + 5)).getLsbD 1
    stuck := (m.read (a + 5)).getLsbD 2, saturated := (m.read (a + 5)).getLsbD 3
    appliedTiers := BitVec.ofNat 16 (m.nat (a + 6) 2), owned := ownedOfField (m.nat (a + 8) 2)
    heldMinutes := m.nat (a + 10) 2, tierAmount := m.int (a + 12) 4, eventAmount := m.int (a + 16) 4
    remainder := m.nat (a + 20) 2, heldNumerator := m.int (a + 22) 6
    outSince := minuteOfField (m.nat (a + 28) 4), purchases := purchasesAt m (a + 32) }

/-- The state code of a live section where it is none of the four (R38). -/
def oddStateAt (m : Memory) (a : Nat) : Option Byte :=
  if (RecordState.ofCode (m.nat (a + 1) 1)).isNone then some (m.read (a + 1)) else none

/-- A live block of unknown state code as the rebuild takes it: FREE with amounts, held values, saturation flag and
purchases zeroed and owned port NONE (R38). -/
def Live.asFree (l : Live) : Live :=
  { Live.free with
    outcome := l.outcome, takenRev := l.takenRev, cycle := l.cycle, appliedOn := l.appliedOn
    confirmed := l.confirmed, stuck := l.stuck, appliedTiers := l.appliedTiers }

/-- The 16 bytes of a purchase slot (11.4). -/
def Purchase.bytes (p : Purchase) : List Byte :=
  [BitVec.ofNat 8 p.position, BitVec.ofNat 8 p.state.code] ++ bytesOfNat 2 p.dark ++ bytesOfNat 4 p.start
    ++ bytesOfNat 4 p.stop ++ bytesOfInt 4 p.price

/-- The 64 bytes of the purchase slots: the list packed from slot 0, the rest empty (R188). -/
def purchaseSlots (l : List Purchase) : List Byte :=
  ((l.flatMap Purchase.bytes) ++ List.replicate 64 0).take 64

/-- The 96 bytes of the live section (11.4). -/
def Live.bytes (l : Live) : List Byte :=
  [l.outcome.byte, BitVec.ofNat 8 l.state.code] ++ bytesOfNat 2 l.takenRev.toNat
    ++ [l.cycle, BitVec.ofNat 8 (flag l.appliedOn + 2 * flag l.confirmed + 4 * flag l.stuck + 8 * flag l.saturated)]
    ++ bytesOfNat 2 l.appliedTiers.toNat ++ bytesOfNat 2 (ownedField l.owned) ++ bytesOfNat 2 l.heldMinutes
    ++ bytesOfInt 4 l.tierAmount ++ bytesOfInt 4 l.eventAmount ++ bytesOfNat 2 l.remainder
    ++ bytesOfInt 6 l.heldNumerator ++ bytesOfNat 4 (minuteField l.outSince) ++ purchaseSlots l.purchases

/-- The live section of a record as it is merged: its live block, with the state code the fill read until the rebuild
(R38, R171). -/
def Subscriber.liveBytes (r : Subscriber) : List Byte :=
  match r.oddState with
  | some code => r.live.bytes.set 1 code
  | none => r.live.bytes

/-! ### Order slots (11.6) -/

/-- The order in the slot at offset a of the order ring mirror. DESIGN CHOICE (log 18): the parameters at 8, 12, 16
and 20 are 32-bit fields. -/
def orderAt (m : Memory) (a : Nat) : Order :=
  { kind := m.nat a 2, index := m.nat (a + 4) 2, word8 := m.nat (a + 8) 4, word12 := m.nat (a + 12) 4
    word16 := m.nat (a + 16) 4, word20 := m.nat (a + 20) 4 }

/-- The slot an order index lies in: index mod capacity (R150). -/
def Chip.slotOf (c : Chip) (i : Half) : Nat := i.toNat % c.config.orderCapacity

end Sys2Proof.Machine
end

