-- ==== Sys2Proof/Machine/Frames.lean ====
section
/-! DEFINITION. Link frames (R189): the bytes of a frame the part sends, and the scan of the bytes a link receives. -/

namespace Sys2Proof.Machine

/-- The lead byte of every frame (R189). -/
def leadByte : Byte := 0x7E

/-- The sum of bytes mod 256. -/
def byteSum : List Byte → Byte
  | [] => 0
  | b :: bs => b + byteSum bs

/-- A frame as sent: lead, address, kind, length, payload and check (R189). -/
def frameOf (addr : Nat) (kind : Byte) (payload : List Byte) : List Byte :=
  let body := bytesOfNat 2 (addr % 1024) ++ [kind, BitVec.ofNat 8 payload.length] ++ payload
  leadByte :: (body ++ [0 - byteSum body])

/-- A received frame: its address field, kind, length byte, payload, and the sum of all bytes after the lead. -/
structure Frame where
  addr : Nat
  kind : Byte
  length : Nat
  payload : List Byte
  sum : Byte
  deriving DecidableEq, Repr

/-- The frame that follows a lead byte, with as many payload bytes as its length byte gives, if all its bytes are
there (R43). -/
def frameAfterLead (bs : List Byte) : Option Frame :=
  match bs with
  | a0 :: a1 :: k :: n :: rest =>
    if n.toNat < rest.length then
      some { addr := natOfBytes [a0, a1], kind := k, length := n.toNat, payload := rest.take n.toNat
             sum := byteSum ([a0, a1, k, n] ++ rest.take (n.toNat + 1)) }
    else none
  | _ => none

/-- Scan received bytes for the first valid frame, counting the frames discarded before it (R43, R95; log 35). A
discarded frame is passed whole; a frame whose bytes are not all there is dropped without counting. `skip` bytes are
passed over first. -/
def scanFrames (valid : Frame → Bool) : Nat → List Byte → Nat × Option Frame
  | _, [] => (0, none)
  | k + 1, _ :: bs => scanFrames valid k bs
  | 0, b :: bs =>
    if b = leadByte then
      match frameAfterLead bs with
      | none => (0, none)
      | some f =>
        if valid f then (0, some f)
        else
          let r := scanFrames valid (f.length + 5) bs
          (r.1 + 1, r.2)
    else scanFrames valid 0 bs

/-- Does a frame pass the checks common to the two links: the address in the holding stage, the kind and fixed length
of the reply expected, and a sum of zero (R43, R95)? -/
def Frame.fits (f : Frame) (addr : Nat) (kind : Byte) (length : Nat) : Bool :=
  f.addr == addr && f.kind == kind && f.length == length && f.sum == 0

/-- The level, flags and load count byte at a place of a payload. -/
def payloadByte (p : List Byte) (k : Nat) : Byte := p.getD k 0

/-- The port state a PORT LOAD or PORT REPLY payload holds (R189). -/
def portOfPayload (p : List Byte) : PortState :=
  if (payloadByte p 0).getLsbD 7 then
    .on (BitVec.ofNat 16 (natOfBytes ((p.drop 1).take 2))) (BitVec.ofNat 64 (natOfBytes ((p.drop 3).take 8)))
  else .off

end Sys2Proof.Machine
end

