-- ==== Sys2Proof/Machine/JournalQueue.lean ====
section
/-! DEFINITION. Journal entries and the on-chip queue (R152 to R155): what an entry's bytes are, how an entry joins,
waits or is dropped, and what the queue offers to the Tenure Engine. -/

namespace Sys2Proof.Machine

/-! ### Entries (R152, 11.6) -/

/-- Money entries and notices (R152). -/
def EntryBody.money : EntryBody → Bool
  | .purchaseCharge .. => true
  | .purchaseRefund .. => true
  | .adjustment .. => true
  | .outageCredit .. => true
  | .cycleTotal .. => true
  | .outageOpened .. => false
  | .outageUnrecorded .. => false
  | .outageClosed .. => false
  | .substitution .. => false
  | .portStuck .. => false
  | .crosspointStuck .. => false
  | .purchaseLapsed .. => false
  | .clockHeld .. => false
  | .minutesDropped .. => false
  | .saturated .. => false
  | .protectedWrite .. => false

/-- The kind code within its class (11.8). -/
def EntryBody.kind : EntryBody → Nat
  | .purchaseCharge .. => 0
  | .purchaseRefund .. => 1
  | .adjustment .. => 2
  | .outageCredit .. => 3
  | .cycleTotal .. => 4
  | .outageOpened .. => 0
  | .outageClosed .. => 1
  | .outageUnrecorded .. => 2
  | .substitution .. => 3
  | .portStuck .. => 4
  | .crosspointStuck .. => 5
  | .purchaseLapsed .. => 6
  | .clockHeld .. => 7
  | .minutesDropped .. => 8
  | .saturated .. => 9
  | .protectedWrite .. => 10

/-- The 11 payload bytes of a port state, in the form of a PORT LOAD: port and ON flag, tier set, jam set (R189). -/
def portPayload (port : Nat) : PortState → List Byte
  | .off => BitVec.ofNat 8 (port % 4) :: List.replicate 10 0
  | .on t j => BitVec.ofNat 8 (port % 4 + 128) :: (bytesOfNat 2 t.toNat ++ bytesOfNat 8 j.toNat)

/-- The short detail field (11.6). -/
def EntryBody.short : EntryBody → Nat
  | .purchaseCharge p _ _ => p
  | .purchaseRefund _ _ _ d => d
  | .adjustment _ => 0
  | .outageCredit m _ _ _ => m
  | .cycleTotal _ _ _ r _ _ _ _ => r
  | .outageOpened _ _ _ n => n
  | .outageUnrecorded _ _ => 0
  | .outageClosed _ _ _ _ cause => cause.code
  | .substitution cause _ _ _ => cause.code
  | .portStuck owner _ _ => owner.getD 65535
  | .crosspointStuck _ _ => 0
  | .purchaseLapsed p _ _ => p
  | .clockHeld s => s
  | .minutesDropped _ _ => 0
  | .saturated _ => 0
  | .protectedWrite r _ _ => r.code

/-- The detail bytes named by the kind, from offset 20 (11.6). -/
def EntryBody.detail : EntryBody → List Byte
  | .purchaseCharge _ s e => bytesOfNat 4 s ++ bytesOfNat 4 e
  | .purchaseRefund p s e _ => bytesOfNat 4 s ++ bytesOfNat 4 e ++ bytesOfNat 1 p
  | .adjustment a => bytesOfInt 4 a
  | .outageCredit _ h n o => bytesOfNat 2 h ++ bytesOfInt 6 n ++ bytesOfNat 4 (minuteField o)
  | .cycleTotal _ _ _ _ t e h mo => bytesOfInt 4 t ++ bytesOfInt 4 e ++ bytesOfNat 2 h ++ bytesOfNat 2 mo.toNat
  | .outageOpened id k s _ => [id, BitVec.ofNat 8 k.code, 0, 0] ++ bytesOfNat 4 (minuteField s)
  | .outageUnrecorded k s => [0, BitVec.ofNat 8 k.code, 0, 0] ++ bytesOfNat 4 (minuteField s)
  | .outageClosed id k s e _ =>
    [id, BitVec.ofNat 8 k.code, 0, 0] ++ bytesOfNat 4 (minuteField s) ++ bytesOfNat 4 (minuteField e)
  | .substitution _ l n p => [sourceByte l, sourceByte n, BitVec.ofNat 8 p]
  | .portStuck _ p r => portPayload p r
  | .crosspointStuck s r => [BitVec.ofNat 8 s, sourceByte r]
  | .purchaseLapsed _ s e => bytesOfNat 4 s ++ bytesOfNat 4 e
  | .clockHeld _ => []
  | .minutesDropped m n => bytesOfNat 4 m ++ bytesOfNat 4 n.toNat
  | .saturated a => [BitVec.ofNat 8 a.code]
  | .protectedWrite _ a n => bytesOfNat 4 a ++ bytesOfNat 4 n.toNat

/-- The index field with the flags of a CYCLE TOTAL: final mark at bit 11, saturation at 12, purchases at 13-15. -/
def Entry.indexField (e : Entry) : Nat :=
  match e.body with
  | .cycleTotal fin sat n _ _ _ _ _ => e.index % 2048 + 2048 * flag fin + 4096 * flag sat + 8192 * (n % 8)
  | _ => e.index % 4096

/-- The amount field: signed 32 bits; the field of an amount outside them is free (R131, R188; log 57). -/
def amountField (a : Int) : Word :=
  if -2147483648 ≤ a ∧ a ≤ 2147483647 then BitVec.ofInt 32 a else Config.wideAmount a

/-- The 32 bytes of an entry under its ring index (R152, 11.6). -/
def Entry.bytes (e : Entry) (ring : Half) : List Byte :=
  ([BitVec.ofNat 8 (128 * flag e.body.money + e.body.kind), e.cycle] ++ bytesOfNat 2 ring.toNat
    ++ bytesOfNat 4 (minuteField e.minute) ++ bytesOfNat 2 e.indexField ++ bytesOfNat 2 e.body.short
    ++ bytesOfNat 4 e.account.toNat ++ bytesOfNat 4 (amountField e.amount).toNat ++ e.body.detail ++ List.replicate 12 0).take 32

/-! ### Offers (R153) -/

/-- A money entry waits for a slot: that of a paused pass, of a stopped take or of a waiting ADJUST, until it is
answered (R153; log 31). -/
def Chip.moneyWaiting (c : Chip) : Bool := (c.pass.state == .paused || c.store.hold.isSome) && !c.store.answered

/-- Free slots of the queue. -/
def Chip.freeSlots (c : Chip) : Nat := Config.queueCapacity - c.journal.queue.length

/-- Does the queue take a money entry now (R153)? -/
def Chip.moneyRoom (c : Chip) : Bool := c.journal.queue.length < Config.queueCapacity

/-- Does the queue take a notice now (R153)? -/
def Chip.noticeRoom (c : Chip) : Bool := c.journal.queue.length < Config.noticeLimit

/-- An entry joins the tail, QUEUED (R153). -/
def Chip.join (c : Chip) (e : Entry) : Chip :=
  c.setJournal { c.journal with queue := c.journal.queue ++ [{ entry := e, ring := 0, writing := false }] }

/-- A money entry joins when a slot is free; its producer has asked for room before (R119). -/
def Chip.money (c : Chip) (e : Entry) : Chip := if c.moneyRoom then c.join e else c

/-- A notice joins, or is dropped and counted (R153). -/
def Chip.notice (c : Chip) (e : Entry) : Chip :=
  if c.noticeRoom then c.join e
  else c.setJournal { c.journal with dropped := c.journal.dropped + 1 }

/-- A notice of the current minute that is about no subscriber (log 27). -/
def Chip.noticeOf (c : Chip) (index : Nat) (body : EntryBody) : Chip :=
  c.notice { index := index, minute := c.now, account := 0, amount := 0, cycle := 0, body := body }

/-- Does a money entry for subscriber i wait in the queue, QUEUED or WRITING (R37, R153)? -/
def Chip.moneyWaitsFor (c : Chip) (i : Nat) : Bool :=
  c.journal.queue.any fun q => q.entry.body.money && q.entry.index == i

/-! ### The ring (R154, R155) -/

/-- Entries in the ring: (tail - head) mod 65,536 (R154). -/
def Chip.ringUsed (c : Chip) : Nat := (c.journal.tail - c.journal.head).toNat

/-- Free space of the ring (R154). -/
def Chip.ringFree (c : Chip) : Nat := c.config.journalCapacity - c.ringUsed

/-- Entries WRITING. -/
def Chip.writingCount (c : Chip) : Nat := (c.journal.queue.filter (·.writing)).length

/-- Journal transfers offered: the QUEUED entries, at most the free space less those WRITING (R155). -/
def Chip.journalOffer (c : Chip) : Nat :=
  if c.running then
    min (c.journal.queue.filter (fun q => !q.writing)).length (c.ringFree - c.writingCount)
  else 0

/-- Hand the n oldest QUEUED entries to a tenure: they become WRITING, stamped tail + place in the queue (R155). -/
def handEntries (tail : Half) : Nat → Nat → List Queued → List Queued
  | _, _, [] => []
  | n, k, q :: qs =>
    if q.writing then q :: handEntries tail n (k + 1) qs
    else
      match n with
      | 0 => q :: qs
      | n + 1 => { q with ring := tail + BitVec.ofNat 16 k, writing := true } :: handEntries tail n (k + 1) qs

/-- The journal ring address of an index: slot index mod C (R154). -/
def Chip.ringAddr (c : Chip) (ring : Half) : Nat :=
  c.config.journalRing.base + 32 * (ring.toNat % c.config.journalCapacity)

end Sys2Proof.Machine
end

