-- ==== Sys2Proof/Machine/Billing.lean ====
section
/-! DEFINITION. The Billing Unit (R125 to R145): accrual with remainder, clamping, held runs and their resolution,
money entries, and the close on touch. -/

namespace Sys2Proof.Machine

/-- The per-minute numerator S: the rates of the applied tier set in the current line-up (R125). -/
def perMinute (rates : Vector Int 16) (tiers : TierSet) : Int :=
  ((List.range 16).map fun t => if tiers.getLsbD t then vget rates t else 0).sum

/-- S of record i (R125). A record that owns no port has applied state OFF and an empty applied tier set (log 25). -/
def Chip.numerator (c : Chip) (i : Nat) : Int := perMinute c.lineUp.current.rates (c.sub i).live.appliedTiers

/-- x held within plus and minus l (00_scope.md "Clamped"). -/
def clampTo (l x : Int) : Int := max (-l) (min l x)

/-- The account reference of the taken intent (R144). -/
def Chip.account (c : Chip) (i : Nat) : Word := (c.sub i).taken.account

/-- An entry about subscriber i with its account reference and record's cycle number (R144, 11.6). -/
def Chip.entryFor (c : Chip) (i : Nat) (minute : Option Nat) (amount : Int) (body : EntryBody) : Entry :=
  { index := i, minute := minute, account := c.account i, amount := amount
    cycle := if body.money then (c.sub i).live.cycle
      else match body with
        | .saturated _ => (c.sub i).live.cycle
        | _ => 0
    body := body }

/-- A clamp happened: set the saturation flag and, if it was clear, raise SATURATED (R128, R130). -/
def Chip.saturate (c : Chip) (i : Nat) (what : Amount) (minute : Option Nat) : Chip :=
  if (c.sub i).live.saturated then c
  else (c.updLive i fun l => { l with saturated := true }).notice (c.entryFor i minute 0 (.saturated what))

/-- Add q to the tier amount, clamped (R126, R128). -/
def Chip.addTier (c : Chip) (i : Nat) (q : Int) (minute : Option Nat) : Chip :=
  let sum := (c.sub i).live.tierAmount + q
  let c' := c.updLive i fun l => { l with tierAmount := clampTo Config.amountLimit sum }
  if clampTo Config.amountLimit sum = sum then c' else c'.saturate i .tier minute

/-- Add x to the event amount, clamped (R128, R137, R138, R143). -/
def Chip.addEvent (c : Chip) (i : Nat) (x : Int) (minute : Option Nat) : Chip :=
  let sum := (c.sub i).live.eventAmount + x
  let c' := c.updLive i fun l => { l with eventAmount := clampTo Config.amountLimit sum }
  if clampTo Config.amountLimit sum = sum then c' else c'.saturate i .event minute

/-- Accrue a numerator n with remainder: r' = r + n, q = floor(r' / M), r = r' - q M, tier amount + q (R126, R131).
Lean's / and % on Int with a positive divisor round toward negative infinity. -/
def Chip.accrue (c : Chip) (i : Nat) (n : Int) (minute : Option Nat) : Chip :=
  let r := ((c.sub i).live.remainder : Int) + n
  (c.updLive i fun l => { l with remainder := (r % (c.clock.cal.m : Int)).toNat }).addTier i
    (r / (c.clock.cal.m : Int)) minute

/-- A billed minute (R126); the live block is marked dirty with each. -/
def Chip.billMinute (c : Chip) (i : Nat) (minute : Option Nat) : Chip :=
  (c.accrue i (c.numerator i) minute).markDirty i

/-- A held minute m (R130). -/
def Chip.holdMinute (c : Chip) (i : Nat) (m : Nat) : Chip :=
  let sum := (c.sub i).live.heldNumerator + c.numerator i
  let c' := c.updLive i fun l =>
    { l with
      heldMinutes := min 65535 (l.heldMinutes + 1)
      heldNumerator := clampTo Config.numeratorLimit sum
      outSince := some (l.outSince.getD m) }
  if clampTo Config.numeratorLimit sum = sum then c' else c'.saturate i .held (some m)

/-- Clear the held values (R131). -/
def Chip.clearHeld (c : Chip) (i : Nat) : Chip :=
  c.updLive i fun l => { l with heldMinutes := 0, heldNumerator := 0, outSince := none }

/-- Does the run end in a credit: held minutes at or above the credit threshold (R131)? -/
def Chip.creditDue (c : Chip) (i : Nat) : Bool := c.config.creditThreshold ≤ (c.sub i).live.heldMinutes

/-- The OUTAGE CREDIT entry of record i (R131, R144). -/
def Chip.creditEntry (c : Chip) (i : Nat) (minute : Option Nat) : Entry :=
  let l := (c.sub i).live
  c.entryFor i minute (l.heldNumerator / (c.clock.cal.m : Int))
    (.outageCredit c.clock.cal.m l.heldMinutes l.heldNumerator l.outSince)

/-- Resolve a held run by credit; a slot is free (R131). -/
def Chip.credit (c : Chip) (i : Nat) (minute : Option Nat) : Chip :=
  (c.money (c.creditEntry i minute)).clearHeld i

/-- Resolve a held run by back-charge (R131). -/
def Chip.backCharge (c : Chip) (i : Nat) (minute : Option Nat) : Chip :=
  (c.accrue i (c.sub i).live.heldNumerator minute).clearHeld i

/-- Resolve an open held run; for a credit a slot is free (R131). -/
def Chip.resolveHeld (c : Chip) (i : Nat) (minute : Option Nat) : Chip :=
  if c.creditDue i then c.credit i minute else c.backCharge i minute

/-- Minutes out of a CYCLE TOTAL: the distance from out-since to the entry's minute, stopping at 65,534, or 65,535
when out-since is NONE (R145). Where no such distance exists the value is free (log 17). -/
def minutesOutField (entryMinute outSince : Option Nat) : Half :=
  match outSince, entryMinute with
  | none, _ => 65535
  | some o, some m => if o ≤ m then BitVec.ofNat 16 (min 65534 (m - o)) else Config.minutesOut (some m) o
  | some o, none => Config.minutesOut none o

/-- The CYCLE TOTAL entry of record i (R118, R145). -/
def Chip.cycleEntry (c : Chip) (i : Nat) (minute : Option Nat) : Entry :=
  let l := (c.sub i).live
  c.entryFor i minute (clampTo Config.amountLimit (l.tierAmount + l.eventAmount))
    (.cycleTotal (l.state == .final) l.saturated l.purchases.length l.remainder l.tierAmount l.eventAmount
      l.heldMinutes (minutesOutField minute l.outSince))

/-- The live block after its close on touch (R118, R31). -/
def Live.closed (l : Live) (cycle : Byte) : Live :=
  let l' := { l with tierAmount := 0, eventAmount := 0, remainder := 0, saturated := false, cycle := cycle }
  if l.state = .final then
    { l' with state := .free, heldMinutes := 0, heldNumerator := 0, outSince := none, purchases := [] }
  else l'

/-- Is the record's cycle number other than the calendar's (R118)? -/
def Chip.stale (c : Chip) (i : Nat) : Bool := (c.sub i).live.cycle != c.clock.cal.cycle

/-- Close on touch of record i; a slot is free (R118). -/
def Chip.closeOnTouch (c : Chip) (i : Nat) (minute : Option Nat) : Chip :=
  (c.money (c.cycleEntry i minute)).updLive i fun l => l.closed c.clock.cal.cycle

/-- The close on touch of record i where its cycle number is stale (R118). -/
def Chip.closeIfStale (c : Chip) (i : Nat) (minute : Option Nat) : Chip :=
  if c.stale i then c.closeOnTouch i minute else c

/-- Slots a resolution on applied going OFF needs (R132). -/
def Chip.offSlots (c : Chip) (i : Nat) : Nat := flag (c.stale i) + flag (c.creditDue i)

/-- Applied going OFF with a held run open: resolved at once when every slot it needs is free, closing the record on
touch first if its cycle number is stale; otherwise left to stage 5 (R118, R132). -/
def Chip.resolveOff (c : Chip) (i : Nat) : Chip :=
  if (c.sub i).live.outSince.isNone then c
  else if c.offSlots i ≤ c.freeSlots then
    let minute := c.eventMinute i
    (c.closeIfStale i minute).resolveHeld i minute
  else c

/-- The PURCHASE CHARGE entry (R137, R144). -/
def Chip.chargeEntry (c : Chip) (i : Nat) (p : Purchase) (minute : Option Nat) : Entry :=
  c.entryFor i minute p.price (.purchaseCharge p.position p.start p.stop)

/-- Charge: price to the event amount and a PURCHASE CHARGE entry, together; a slot is free (R119, R137). The SATURATED
notice of a clamp is offered before the entry joins (log 58). -/
def Chip.charge (c : Chip) (i : Nat) (p : Purchase) (minute : Option Nat) : Chip :=
  (c.addEvent i p.price minute).money (c.chargeEntry i p minute)

/-- Refund: price subtracted from the event amount and a PURCHASE REFUND entry; a slot is free (R138). The SATURATED
notice of a clamp is offered before the entry joins (log 58). -/
def Chip.refund (c : Chip) (i : Nat) (p : Purchase) (minute : Option Nat) : Chip :=
  (c.addEvent i (-p.price) minute).money
    (c.entryFor i minute (-p.price) (.purchaseRefund p.position p.start p.stop p.dark))

/-- Does the refund apply: at least a quarter of the window dark (R138)? -/
def Purchase.refundDue (p : Purchase) : Bool := p.stop - p.start ≤ 4 * p.dark

/-- PURCHASE LAPSED (R138, R29). -/
def Chip.lapsed (c : Chip) (i : Nat) (p : Purchase) (minute : Option Nat) : Chip :=
  c.notice (c.entryFor i minute 0 (.purchaseLapsed p.position p.start p.stop))

end Sys2Proof.Machine
end

