-- ==== Sys2Proof/Machine/Ports.lean ====
section
/-! DEFINITION. The Port Table (R32 to R35, R47 to R56): desired states, recomputes, port conditions, dirty lists,
parking and unparking, and what the Subscriber Store is told. -/

namespace Sys2Proof.Machine

/-! ### Desired state (R33) -/

/-- Does the purchase list unjam position q: an entry for q in state OPENING, CONFIRMED or CHARGED (R33)? -/
def unjams (l : List Purchase) (q : Nat) : Bool := l.any fun p => p.position == q && p.state != .booked

/-- Is position q in the jam set of an ON port with tier set t, zone z and purchase list l (R33)? -/
def Chip.jams (c : Chip) (t : TierSet) (z : Nat) (l : List Purchase) (q : Nat) : Bool :=
  !(c.channel q).used
    || (!t.getLsbD (c.channel q).tier && !unjams l q)
    || (vget c.lineUp.zones q).getLsbD z

/-- The ON state of record i's port (R33). -/
def Chip.onState (c : Chip) (i : Nat) : PortState :=
  let r := c.sub i
  .on r.taken.tiers (setOf 64 (c.jams r.taken.tiers r.taken.zone r.live.purchases))

/-- The desired state of a port with the given owner (R33). -/
def Chip.desiredFor (c : Chip) (owner : Option Nat) : PortState :=
  match owner with
  | some i => if (c.sub i).live.state = .active then c.onState i else .off
  | none => .off

/-- The desired state of port p (R33). -/
def Chip.desiredOf (c : Chip) (p : Nat) : PortState := c.desiredFor (c.port p).owner

/-! ### Dirty lists and conditions (R47, R48) -/

/-- A port needs a load when desired and applied differ or applied is unconfirmed (R47). -/
def Port.needsLoad (p : Port) : Bool := p.desired != p.applied || !p.confirmed

/-- The branch of the element that port p belongs to. -/
def Chip.portBranch (c : Chip) (p : Nat) : Nat := c.branchOf (p / 4)

/-- Append port p at the tail of its branch's dirty list and make it DIRTY (R47, R48). -/
def Chip.makeDirty (c : Chip) (p : Nat) : Chip :=
  (c.updPort p fun r => { r with condition := .dirty }).updBranch (c.portBranch p) fun b =>
    { b with dirty := appendNew b.dirty p }

/-- Take port p off every dirty list (R48). -/
def Chip.offDirty (c : Chip) (p : Nat) : Chip :=
  forIndices 4 (fun c b => c.updBranch b fun r => { r with dirty := r.dirty.filter (· != p) }) c

/-- Put port p into a condition that is not on a list. -/
def Chip.setCondition (c : Chip) (p : Nat) (k : PortCondition) : Chip :=
  c.updPort p fun r => { r with condition := k }

/-- The test of R47 for the conditions IDLE and DIRTY; every other condition stays. -/
def Chip.testPort (c : Chip) (p : Nat) : Chip :=
  match (c.port p).condition with
  | .idle => if (c.port p).needsLoad then c.makeDirty p else c
  | .dirty => if (c.port p).needsLoad then c else (c.offDirty p).setCondition p .idle
  | .inFlight => c
  | .parked => c
  | .stuck => c

/-- Copy the applied state, confirmed flag and STUCK condition of port p to its owner's summary (R55). -/
def Chip.copySummary (c : Chip) (p : Nat) : Chip :=
  let r := c.port p
  match r.owner with
  | none => c
  | some i =>
    c.updLive i fun l =>
      { l with
        appliedOn := r.applied != .off
        appliedTiers := match r.applied with
          | .on t _ => t
          | .off => 0
        confirmed := r.confirmed
        stuck := r.condition == .stuck }

/-- The applied port summary of a record that owns no port: OFF (R125; log 25). -/
def Chip.dropSummary (c : Chip) (i : Nat) : Chip :=
  c.updLive i fun l => { l with appliedOn := false, appliedTiers := 0, confirmed := false, stuck := false }

/-- Port p leaves STUCK: mismatch count 0, condition by the test of R47 from IDLE, summary copied (R54). -/
def Chip.leaveStuck (c : Chip) (p : Nat) : Chip :=
  (((c.updPort p fun r => { r with mismatch := 0, condition := .idle }).testPort p).copySummary p)

/-- Recompute port p (R34): a changed desired state is applied to the port's condition (R47, R54). DEDUCED (unsafe): a
STUCK port leaves STUCK by R54 also where it needs no load under the new desired state (log 66). -/
def Chip.recompute (c : Chip) (p : Nat) : Chip :=
  let d := c.desiredOf p
  if d = (c.port p).desired then c
  else
    let c' := c.updPort p fun r => { r with desired := d }
    if (c'.port p).condition = .stuck then c'.leaveStuck p else c'.testPort p

/-- The port number of a record's owned port. -/
def Owned.number (o : Owned) : Nat := o.element * 4 + o.port

/-- The port number of the port record i owns, if any. -/
def Chip.ownedPort (c : Chip) (i : Nat) : Option Nat := (c.sub i).live.owned.map Owned.number

/-- A change of state of a purchase of record i recomputes the owner's port (R34, R134). -/
def Chip.recomputeOwned (c : Chip) (i : Nat) : Chip :=
  match c.ownedPort i with
  | some p => c.recompute p
  | none => c

/-- Recompute every owned port whose owner's taken zone is in the set, in port order (R17, R34). -/
def Chip.recomputeZones (c : Chip) (zs : ZoneSet) : Chip :=
  if zs = 0 then c
  else forIndices 2560 (fun c p =>
    match (c.port p).owner with
    | some i => if zs.getLsbD (c.sub i).taken.zone then c.recompute p else c
    | none => c) c

/-! ### Unconfirming, parking, unparking (R52 to R54, R56, R63) -/

/-- Make the applied state of port p unconfirmed. -/
def Chip.unconfirm (c : Chip) (p : Nat) : Chip :=
  (c.updPort p fun r => { r with confirmed := false }).copySummary p

/-- A unit report or a RESEND at port p: applied unconfirmed; IDLE and STUCK become DIRTY at the tail, the latter
with count 0; DIRTY, PARKED and IN FLIGHT stay (R54, R56, R63). -/
def Chip.doubtPort (c : Chip) (p : Nat) : Chip :=
  match (c.port p).condition with
  | .idle => ((c.unconfirm p).makeDirty p)
  | .stuck => ((c.updPort p fun r => { r with confirmed := false }).leaveStuck p)
  | .dirty => c.unconfirm p
  | .parked => c.unconfirm p
  | .inFlight => c.unconfirm p

/-- The four ports of element e in port order. -/
def Chip.eachPort (c : Chip) (e : Nat) (f : Chip → Nat → Chip) : Chip :=
  forIndices 4 (fun c k => f c (e * 4 + k)) c

/-- Park port p (R52): an IN FLIGHT port waits for its exchange to end. -/
def Chip.parkPort (c : Chip) (p : Nat) : Chip :=
  match (c.port p).condition with
  | .idle => c.setCondition p .parked
  | .dirty => (c.offDirty p).setCondition p .parked
  | .stuck => (c.setCondition p .parked).copySummary p
  | .parked => c
  | .inFlight => c

/-- Park the ports of element e (R52). -/
def Chip.parkElement (c : Chip) (e : Nat) : Chip := c.eachPort e Chip.parkPort

/-- Unpark port p (R53): applied unconfirmed, mismatch 0, DIRTY at the tail; an IN FLIGHT port keeps its condition
until its exchange settles it. -/
def Chip.unparkPort (c : Chip) (p : Nat) : Chip :=
  let c' := (c.updPort p fun r => { r with confirmed := false, mismatch := 0 }).copySummary p
  match (c'.port p).condition with
  | .inFlight => c'
  | .idle => c'.makeDirty p
  | .dirty => c'.makeDirty p
  | .parked => c'.makeDirty p
  | .stuck => (c'.makeDirty p).copySummary p

/-- Unpark the ports of element e if it is an in-use TAP (R53). -/
def Chip.unparkElement (c : Chip) (e : Nat) : Chip := if c.isTap e then c.eachPort e Chip.unparkPort else c

/-! ### Reports (R50 to R52, R55, R136) -/

/-- Confirm every OPENING purchase whose position lies outside the reported jam set (R136). -/
def confirmPurchases (jam : JamSet) (l : List Purchase) : List Purchase :=
  l.map fun p =>
    if p.state = .opening ∧ jam.getLsbD p.position = false then { p with state := .confirmed } else p

/-- Hand the owner of port p the state its tap reported: summary, confirmations, and the resolution of an open held
run when applied goes from ON to OFF (R55, R132, R136). -/
def Chip.report (c : Chip) (p : Nat) (st : PortState) : Chip :=
  match (c.port p).owner with
  | none => c
  | some i =>
    let wasOn := (c.sub i).live.appliedOn
    let c1 := c.copySummary p
    match st with
    | .on _ jam =>
      let l := (c1.sub i).live.purchases
      if confirmPurchases jam l = l then c1
      else (c1.updLive i fun v => { v with purchases := confirmPurchases jam l }).recomputeOwned i
    | .off => if wasOn then c1.resolveOff i else c1

/-- PORT STUCK (R50). -/
def Chip.portStuck (c : Chip) (p : Nat) (st : PortState) : Chip :=
  c.noticeOf p (.portStuck (c.port p).owner p st)

/-- The mismatch count after a reply: 0 when it matches the sent state, else raised, stopping at 3 (R50). -/
def mismatchAfter (sent : Option PortState) (st : PortState) (n : Nat) : Nat :=
  if sent = some st then 0 else min 3 (n + 1)

/-- Settle the port of an answered PORT LOAD from the state its PORT REPLY reports (R50; R52 where its unit cannot be
loaded). PORT STUCK is raised before the owner's report makes its entries (log 49). DESIGN CHOICE (unsafe): a third
mismatch makes the port STUCK by the table of R50 also where the reply matches a desired state that has changed
meanwhile (log 63). -/
def Chip.settleAnswered (c : Chip) (p : Nat) (st : PortState) : Chip :=
  let n := mismatchAfter (c.port p).sent st (c.port p).mismatch
  let c1 := c.updPort p fun r => { r with applied := st, confirmed := true, sent := none, mismatch := n }
  let c2 :=
    if c.loadable (p / 4) then
      if n < 3 then (c1.setCondition p .idle).testPort p
      else (c1.setCondition p .stuck).portStuck p st
    else c1.setCondition p .parked
  c2.report p st

/-- Settle the port of an unanswered PORT LOAD (R51; R52 where its unit cannot be loaded). -/
def Chip.settleUnanswered (c : Chip) (p : Nat) : Chip :=
  let c1 := c.updPort p fun r => { r with confirmed := false, sent := none }
  (if c.loadable (p / 4) then c1.makeDirty p else c1.setCondition p .parked).copySummary p

end Sys2Proof.Machine
end

