-- ==== Sys2Proof/Machine/BranchLink.lean ====
section
/-! DEFINITION. The Branch Link Controllers' selection: the poll cursor, the repoll lists and the arbiter (R41, R42,
R45, R46, R49, R57 to R59). -/

namespace Sys2Proof.Machine

/-- Is element e pollable by the cursor of branch b (R57)? -/
def Chip.pollable (c : Chip) (b e : Nat) : Bool :=
  (c.element e).record.inUse && 4 ≤ e && (c.element e).sup.state != .suppressed && c.branchOf e == b

/-- The cursor's next element: the first pollable element above the cursor, wrapping to the lowest; from START the
lowest (R57). -/
def Chip.cursorNext (c : Chip) (b : Nat) : Option Nat :=
  let lowest := (List.range 640).find? (c.pollable b)
  match (c.branch b).cursor with
  | none => lowest
  | some k => ((List.range 640).find? fun e => decide (k < e) && c.pollable b e).or lowest

/-- Has branch b a poll waiting (R57, R58)? -/
def Chip.pollWaiting (c : Chip) (b : Nat) : Bool :=
  !(c.branch b).repoll.isEmpty || (c.cursorNext b).isSome

/-- STATUS QUERY and PORT LOAD kinds, and their replies with the fixed payload lengths (R189). -/
def statusQuery : Byte := 0x01
def statusReply : Byte := 0x81
def portLoad : Byte := 0x02
def portReply : Byte := 0x82
def statusLength : Nat := 3
def portLength : Nat := 12

/-- Put an exchange with element e into the holding stage of branch b and go SENDING, attempt 1 (R42). -/
def Chip.startExchange (c : Chip) (b e : Nat) (port : Option Nat) (frame : List Byte) : Chip :=
  c.updBranch b fun r =>
    { r with
      link := .sending
      hold := some { element := e, address := (c.element e).record.address, port := port, attempt := 1
                     frame := frame, last := false, discard := false } }

/-- Select a port load: the port leaves the list, IN FLIGHT, its desired state becomes its sent state (R46, R49). -/
def Chip.startLoad (c : Chip) (b p : Nat) : Chip :=
  let d := (c.port p).desired
  (((c.updPort p fun r => { r with condition := .inFlight, sent := some d }).updBranch b fun r =>
      { r with dirty := r.dirty.filter (· != p), run := min 8 (r.run + 1) }).startExchange b (p / 4) (some p)
    (frameOf (c.element (p / 4)).record.address portLoad (portPayload (p % 4) d)))

/-- Poll element e of branch b (R45). -/
def Chip.startPoll (c : Chip) (b e : Nat) : Chip :=
  c.startExchange b e none (frameOf (c.element e).record.address statusQuery [])

/-- The arbiter of branch b selects (R59). A poll takes the head of the repoll list, or else the cursor's next. -/
def Chip.select (c : Chip) (b : Nat) : Chip :=
  let poll :=
    let c' := c.updBranch b fun r => { r with run := 0 }
    match (c.branch b).repoll with
    | e :: rest => (c'.updBranch b fun r => { r with repoll := rest }).startPoll b e
    | [] =>
      match c.cursorNext b with
      | some e => (c'.updBranch b fun r => { r with cursor := some e }).startPoll b e
      | none => c'
  match (c.branch b).dirty with
  | p :: _ => if (c.branch b).run < 8 || !c.pollWaiting b then c.startLoad b p else poll
  | [] => if c.pollWaiting b then poll else c.updBranch b fun r => { r with link := .idle }

/-- May branch b make exchanges: the part is RUNNING and the branch root ANSWERING (R41)? -/
def Chip.linkOpen (c : Chip) (b : Nat) : Bool :=
  c.running && (c.element b).record.inUse && (c.element b).sup.state == .answering

/-- A controller with no exchange in progress: SILENT where no exchange may be made, otherwise it selects (R41). -/
def Chip.armBranch (c : Chip) (b : Nat) : Chip :=
  if (c.branch b).hold.isSome then c
  else if c.linkOpen b then c.select b
  else if (c.branch b).link = .silent then c
  else c.updBranch b fun r => { r with link := .silent }

/-- The four controllers in branch order. -/
def Chip.armBranches (c : Chip) : Chip := forIndices 4 Chip.armBranch c

/-- Append element e to its branch's repoll list (R58). -/
def Chip.repollAppend (c : Chip) (e : Nat) : Chip :=
  c.updBranch (c.branchOf e) fun r => { r with repoll := appendNew r.repoll e }

/-- Take element e off every repoll list (R58). -/
def Chip.offRepoll (c : Chip) (e : Nat) : Chip :=
  forIndices 4 (fun c b => c.updBranch b fun r => { r with repoll := r.repoll.filter (· != e) }) c

end Sys2Proof.Machine
end

