-- ==== Sys2Proof/Machine/Outages.lean ====
section
/-! DEFINITION. The Outage Table and the unrecorded marks (R83 to R88). -/

namespace Sys2Proof.Machine

/-- Is the object still failing (R88): an element in state FAILING, or a source whose outage is open? -/
def Chip.stillFailing (c : Chip) (kind : OutageKind) (object : Nat) : Bool :=
  match kind with
  | .plant => (c.element object).record.inUse && (c.element object).sup.state == .failing
  | .source => c.sourceOut object

/-- The affected count at the opening (R84). -/
def Chip.affected (c : Chip) (kind : OutageKind) (object : Nat) : Nat :=
  match kind with
  | .plant => ((List.range 2048).filter fun i =>
      (c.sub i).live.state == .active &&
        match (c.sub i).live.owned with
        | some o => c.isTap o.element && c.inSubtree object o.element
        | none => false).length
  | .source => ((List.range 64).filter fun q => (c.channel q).used && (c.channel q).primary == object).length

/-- Advance the next-id counter past ids held in the table (R83); the table holds at most 64 of 256 ids. -/
def advanceId (records : List Outage) : Nat → Byte → Byte
  | 0, n => n
  | fuel + 1, n => if records.any (·.id == n + 1) then advanceId records fuel (n + 1) else n + 1

/-- The unrecorded mark of an object. -/
def Chip.markOf (c : Chip) (kind : OutageKind) (object : Nat) : Option Mark :=
  match kind with
  | .plant => (c.element object).mark
  | .source => vget c.outages.marks object

/-- Set or clear the unrecorded mark of an object (R88). -/
def Chip.setMark (c : Chip) (kind : OutageKind) (object : Nat) (m : Option Mark) : Chip :=
  match kind with
  | .plant => c.updElement object fun e => { e with mark := m }
  | .source => c.setOutages { c.outages with marks := vupd c.outages.marks object fun _ => m }

/-- The table with its oldest CLOSED record removed (R84). -/
def reclaim (records : List Outage) : List Outage := records.eraseP (·.state == .closed)

/-- Append a new OPEN record at the tail of `records`, take its id, and raise OUTAGE OPENED (R83, R84). -/
def Chip.appendRecord (c : Chip) (records : List Outage) (o : Opening) : Chip :=
  let n := c.affected o.kind o.object
  let r : Outage :=
    { id := c.outages.nextId, kind := o.kind, object := o.object, state := .opened, start := o.start, stop := none
      affected := n, cause := .none, acknowledged := false }
  (c.setOutages { c.outages with
      records := records ++ [r], nextId := advanceId (records ++ [r]) 256 c.outages.nextId }).noticeOf o.object
    (.outageOpened c.outages.nextId o.kind o.start n)

/-- Open a record, or mark the object unrecorded when the table holds 64 records and none is CLOSED (R84). An object
already marked keeps its mark and raises no second notice (R88). -/
def Chip.openNow (c : Chip) (o : Opening) : Chip :=
  if c.outages.records.length < Config.outageRecords then
    (c.setMark o.kind o.object none).appendRecord c.outages.records o
  else if c.outages.records.any (·.state == .closed) then
    (c.setMark o.kind o.object none).appendRecord (reclaim c.outages.records) o
  else if (c.markOf o.kind o.object).isSome then c
  else (c.setMark o.kind o.object (some { start := o.start })).noticeOf o.object (.outageUnrecorded o.kind o.start)

/-- The record of an object in one of the given states. -/
def Chip.recordOf (c : Chip) (kind : OutageKind) (object : Nat) (p : OutageState → Bool) : Option Outage :=
  c.outages.records.find? fun r => r.kind == kind && r.object == object && p r.state

/-- An opening is requested (R84): it waits while the object holds a CLOSING record; one opening waits for an object,
the newest (log 28). -/
def Chip.openRequest (c : Chip) (o : Opening) : Chip :=
  if (c.recordOf o.kind o.object (· == .closing)).isSome then
    c.setOutages { c.outages with
      waiting := (c.outages.waiting.filter fun w => !(w.kind == o.kind && w.object == o.object)) ++ [o] }
  else c.openNow o

/-- The marked objects in the order they are served: elements 0-639, then sources 0-31 (R88). -/
def Chip.markedObjects (c : Chip) : List (OutageKind × Nat) :=
  (((List.range 640).map fun e => (OutageKind.plant, e)) ++ ((List.range 32).map fun s => (OutageKind.source, s))).filter
    fun k => (c.markOf k.1 k.2).isSome

/-- Serve the first marked object that is still failing with the place freed or the CLOSED record left (R86, R88). -/
def Chip.serveMarked (c : Chip) : Chip :=
  match c.markedObjects.find? fun k => c.stillFailing k.1 k.2 with
  | some k => c.openNow { kind := k.1, object := k.2, start := ((c.markOf k.1 k.2).map (·.start)).getD none }
  | none => c

/-- Update the record with the given id. -/
def Chip.updRecord (c : Chip) (id : Byte) (f : Outage → Outage) : Chip :=
  c.setOutages { c.outages with records := c.outages.records.map fun r => if r.id = id then f r else r }

/-- Remove the record with the given id; the records behind it keep their order (R86, R87). -/
def Chip.freeRecord (c : Chip) (id : Byte) : Chip :=
  c.setOutages { c.outages with records := c.outages.records.filter (·.id != id) }

/-- The opening that waited on an object proceeds if the object is still failing (R84, R86). -/
def Chip.openWaiting (c : Chip) (kind : OutageKind) (object : Nat) : Chip :=
  let mine := fun w : Opening => w.kind == kind && w.object == object
  match c.outages.waiting.find? mine with
  | none => c
  | some w =>
    let c' := c.setOutages { c.outages with waiting := c.outages.waiting.filter fun w => !mine w }
    if c'.stillFailing kind object then c'.openNow w else c'

/-- A record becomes CLOSED (R86): freed if acknowledged, then a marked object is served, then a waiting opening. -/
def Chip.recordClosed (c : Chip) (r : Outage) : Chip :=
  let c1 := if r.acknowledged then c.freeRecord r.id else c.updRecord r.id fun x => { x with state := .closed }
  (c1.serveMarked).openWaiting r.kind r.object

/-- Close a record with a cause (R86): CLOSING with OUTAGE CLOSED offered, or CLOSED at once if it is dropped. -/
def Chip.closeRecord (c : Chip) (r : Outage) (cause : CloseCause) : Chip :=
  let room := c.noticeRoom
  let c1 := (c.updRecord r.id fun x => { x with state := .closing, stop := c.now, cause := cause }).noticeOf r.object
    (.outageClosed r.id r.kind r.start c.now cause)
  if room then c1 else c1.recordClosed r

/-- The OUTAGE CLOSED notice of a CLOSING record has been written (R86, R174). -/
def Chip.noticeWritten (c : Chip) (e : Entry) : Chip :=
  match e.body with
  | .outageClosed id .. =>
    match c.outages.records.find? fun r => r.id == id && r.state == .closing with
    | some r => c.recordClosed r
    | none => c
  | _ => c

/-- Close the OPEN or COVERED record of an object in a state p, if it has one. -/
def Chip.closeOf (c : Chip) (kind : OutageKind) (object : Nat) (p : OutageState → Bool) (cause : CloseCause) : Chip :=
  match c.recordOf kind object p with
  | some r => c.closeRecord r cause
  | none => c

/-- The number of objects marked unrecorded (R90). -/
def Chip.unrecordedCount (c : Chip) : Nat := c.markedObjects.length

end Sys2Proof.Machine
end

