-- ==== Sys2Proof/Machine/Monitor.lean ====
section
/-! DEFINITION. The Plant Monitor's supervision (R73 to R81, R85) and the end of a branch exchange (R44, R56, R62). -/

namespace Sys2Proof.Machine

/-! ### Counts and level hysteresis (R74, R75, R104) -/

/-- A hysteresis record as both kinds of supervision keep it: its state, counts and low-run start. -/
structure LevelRun where
  state : Hysteresis
  low : Nat
  high : Nat
  start : Option Nat
  deriving DecidableEq, Repr

/-- Count one sample in both directions (R75, R104): at or below the trigger level it raises the low count, which
stops at nTrip; at or above the arm level it raises the high count, which stops at nClear. The low-run start keeps its minute when the
low count is cleared without a change of state (log 52). -/
def LevelRun.count (r : LevelRun) (arm trigger nTrip nClear v : Nat) (now : Option Nat) : LevelRun :=
  { state := r.state
    low := if v ≤ trigger then min nTrip (r.low + 1) else 0
    high := if arm ≤ v then min nClear (r.high + 1) else 0
    start := if v ≤ trigger ∧ r.low = 0 then now else r.start }

/-- The state change after the counts (R75, R104); a change clears both counts. DESIGN CHOICE (unsafe): the low-run start
of an AMPLIFIER keeps its minute at a change (log 64); that of a source becomes NONE in `Source.sample` (R104). -/
def LevelRun.change (r : LevelRun) (nTrip nClear : Nat) : LevelRun :=
  if r.state = .unarmed ∧ r.high = nClear then { r with state := .armed, low := 0, high := 0 }
  else if r.state ≠ .tripped ∧ r.low = nTrip then { r with state := .tripped, low := 0, high := 0 }
  else if r.state = .tripped ∧ r.high = nClear then { r with state := .armed, low := 0, high := 0 }
  else r

/-- One level sample. -/
def LevelRun.sample (r : LevelRun) (arm trigger nTrip nClear v : Nat) (now : Option Nat) : LevelRun :=
  (r.count arm trigger nTrip nClear v now).change nTrip nClear

/-- The hysteresis of a supervision record. -/
def SupRecord.run (r : SupRecord) : LevelRun := { state := r.level, low := r.low, high := r.high, start := r.lowStart }

/-- A level sample at a supervision record: N_trip 3, N_clear 2 (R75). -/
def SupRecord.sample (r : SupRecord) (arm trigger v : Nat) (now : Option Nat) : SupRecord :=
  let x := r.run.sample arm trigger 3 2 v now
  { r with level := x.state, low := x.low, high := x.high, lowStart := x.start }

/-- Step 1 of R74: the result joins the reply history. -/
def SupRecord.shift (r : SupRecord) (answered : Bool) : SupRecord :=
  { r with history := (r.history <<< 1) ||| (if answered then 1 else 0) }

/-- Step 2 of R74: the counts. -/
def SupRecord.tally (r : SupRecord) (answered : Bool) (now : Option Nat) : SupRecord :=
  if answered then { r with unanswered := 0, answered := min 2 (r.answered + 1) }
  else { r with answered := 0, unanswered := min 3 (r.unanswered + 1)
                runStart := if r.unanswered = 0 then now else r.runStart }

/-! ### State changes of an element -/

/-- Element x becomes SUPPRESSED, with the effects on its own record, ports and lists (R79 step 2, R71 step 5). -/
def Chip.suppress (c : Chip) (x : Nat) : Chip :=
  let c1 := ((c.updSup x fun r => { r with state := .suppressed, answered := 0, unanswered := 0 }).offRepoll x).parkElement x
  match c1.recordOf .plant x (· == .opened) with
  | some r => c1.updRecord r.id fun o => { o with state := .covered }
  | none => c1

/-- Element x becomes UNVERIFIED with a fresh supervision record and joins its branch's repoll list (R80, R71). -/
def Chip.freshen (c : Chip) (x : Nat) : Chip := (c.updSup x fun _ => SupRecord.fresh).repollAppend x

/-- The record or request for an element that has become FAILING (R79 step 3, R85, R88). -/
def Chip.recordFailure (c : Chip) (e : Nat) (start : Option Nat) : Chip :=
  match c.recordOf .plant e (· == .covered) with
  | some r => c.updRecord r.id fun o => { o with state := .opened }
  | none =>
    match (c.element e).mark with
    | some m => c.openRequest { kind := .plant, object := e, start := m.start }
    | none => c.openRequest { kind := .plant, object := e, start := start }

/-- Suppress the descendants of e that are not SUPPRESSED, in index order (R79 step 2). -/
def Chip.suppressBelow (c : Chip) (e : Nat) : Chip :=
  forIndices 640 (fun c x =>
    if x ≠ e ∧ c.inSubtree e x = true ∧ (c.element x).sup.state ≠ .suppressed then c.suppress x else c) c

/-- Element e becomes FAILING; localisation (R76, R79). A failed root's exchange makes no further attempt (R60). -/
def Chip.failElement (c : Chip) (e : Nat) (start : Option Nat) : Chip :=
  let c1 := ((c.updSup e fun r => { r with state := .failing, failure := start }).parkElement e).suppressBelow e
  let c2 := c1.recordFailure e start
  if e < 4 then c2.updBranch e fun b => { b with hold := b.hold.map fun x => { x with last := true } } else c2

/-- Element e enters ANSWERING: no failure start, no unrecorded mark (R77, R88). -/
def Chip.enterAnswering (c : Chip) (e : Nat) : Chip :=
  (c.updSup e fun r => { r with state := .answering, failure := none }).setMark .plant e none

/-- An UNVERIFIED element is verified (R77, R85). -/
def Chip.verifyElement (c : Chip) (e : Nat) : Chip :=
  ((c.enterAnswering e).unparkElement e).closeOf .plant e (· == .covered) .recovered

/-- Make UNVERIFIED the SUPPRESSED descendants of e that have no FAILING ancestor (R80 step 2). -/
def Chip.releaseBelow (c : Chip) (e : Nat) : Chip :=
  forIndices 640 (fun c x =>
    if x ≠ e ∧ c.inSubtree e x = true ∧ (c.element x).sup.state = .suppressed ∧ c.failingAbove x = false
    then c.freshen x else c) c

/-- A FAILING element recovers (R80). -/
def Chip.recoverElement (c : Chip) (e : Nat) : Chip :=
  (((c.enterAnswering e).closeOf .plant e (· == .opened) .recovered).releaseBelow e).unparkElement e

/-- Is the element an amplifier whose hysteresis is TRIPPED? -/
def Element.lowLevel (el : Element) : Bool := el.record.kind == .amplifier && el.sup.level == .tripped

/-- Step 4 of R74: R76 and R77, from the state the element had before and whether its hysteresis has just become
TRIPPED. -/
def Chip.decideState (c : Chip) (e : Nat) (answered justTripped : Bool) : Chip :=
  let el := c.element e
  match el.sup.state with
  | .suppressed => c
  | .failing => if el.sup.answered = 2 ∧ el.lowLevel = false then c.recoverElement e else c
  | .unverified =>
    if el.sup.unanswered = 3 then c.failElement e el.sup.runStart
    else if answered && !el.lowLevel then c.verifyElement e else c
  | .answering =>
    if el.sup.unanswered = 3 then c.failElement e el.sup.runStart
    else if el.record.kind == .amplifier && justTripped then c.failElement e el.sup.lowStart else c

/-- The result of an exchange at the supervision record of its element (R74); the level is the level byte of an
answered STATUS REPLY. -/
def Chip.superviseResult (c : Chip) (e : Nat) (answered : Bool) (level : Option Nat) : Chip :=
  let el := c.element e
  if el.sup.state = .suppressed then c.updSup e fun r => r.shift answered
  else
    let r1 := (el.sup.shift answered).tally answered c.now
    let r2 := match level with
      | some v => if el.record.kind = .amplifier then r1.sample el.record.arm el.record.trigger v c.now else r1
      | none => r1
    (c.updSup e fun _ => r2).decideState e answered (r1.level != .tripped && r2.level == .tripped)

/-! ### Roots (R78) -/

/-- A carrier state is handed to the Plant Monitor for root b (R78). -/
def Chip.handCarrier (c : Chip) (b : Nat) (k : Carrier) : Chip :=
  match k, (c.element b).sup.state with
  | .present, .unverified => c.verifyElement b
  | .present, .failing => c.recoverElement b
  | .lost, .unverified => c.failElement b c.now
  | .lost, .answering => c.failElement b c.now
  | _, _ => c

/-- Hand the carrier state in force to every UNVERIFIED root (R60). DESIGN CHOICE (unsafe): in branch order, one root's
hand-over whole before the next (log 60). -/
def Chip.handCarriers (c : Chip) : Chip :=
  forIndices 4 (fun c b =>
    if (c.element b).record.inUse && (c.element b).sup.state == .unverified then c.handCarrier b (c.branch b).carrier
    else c) c

/-! ### The end of a branch exchange (R44) -/

/-- The summary of a STATUS REPLY differs from the applied state of some port (R56). -/
def Chip.summaryDiffers (c : Chip) (e : Nat) (flags : Byte) : Bool :=
  (List.range 4).any fun k => flags.getLsbD k != ((c.port (e * 4 + k)).applied != .off)

/-- Does a STATUS REPLY of TAP element e make a report: restart, summary mismatch or unexplained load (R56)? -/
def Chip.unitReports (c : Chip) (e : Nat) (flags count : Byte) : Bool :=
  flags.getLsbD 7 || c.summaryDiffers e flags
    || (!flags.getLsbD 7 && !(c.element e).doubt
        && match (c.element e).heard with
          | some h => h != count
          | none => false)

/-- The unit of element e has been heard with a load count (R56). -/
def Chip.heardUnit (c : Chip) (e : Nat) (count : Byte) : Chip :=
  c.updElement e fun el => { el with heard := some count, doubt := false }

/-- The unit-report check of an answered STATUS REPLY from TAP element e (R56). -/
def Chip.unitReport (c : Chip) (e : Nat) (flags count : Byte) : Chip :=
  (if c.unitReports e flags count then c.eachPort e Chip.doubtPort else c).heardUnit e count

/-- Step 3 of R44 for a PORT LOAD of port p on element e, with the load count it leaves (R50 to R52, R56). -/
def Chip.settleLoad (c : Chip) (e p : Nat) (reply : Option (List Byte)) : Chip :=
  match reply with
  | some pl => (c.settleAnswered p (portOfPayload pl)).heardUnit e (payloadByte pl 11)
  | none => (c.settleUnanswered p).updElement e fun el => { el with doubt := true }

/-- After a poll of element e: the unit-report check, and back to the repoll list while UNVERIFIED (R56, R58). -/
def Chip.settlePoll (c : Chip) (e : Nat) (reply : Option (List Byte)) : Chip :=
  let c1 := match reply with
    | some pl => if c.isTap e then c.unitReport e (payloadByte pl 1) (payloadByte pl 2) else c
    | none => c
  if (c1.element e).record.inUse && (c1.element e).sup.state == .unverified then c1.repollAppend e else c1

/-- Hand the result of exchange x on: steps 2 to 4 of R44. -/
def Chip.handResult (c : Chip) (x : Exchange) (reply : Option (List Byte)) : Chip :=
  match x.port with
  | some p => (c.superviseResult x.element reply.isSome none).settleLoad x.element p reply
  | none =>
    (c.superviseResult x.element reply.isSome (reply.map fun pl => (payloadByte pl 0).toNat)).settlePoll x.element
      reply

/-- The exchange of branch b ends, answered with a payload or unanswered (R44); a discarded one is only counted
(R62). -/
def Chip.endExchange (c : Chip) (b : Nat) (reply : Option (List Byte)) : Chip :=
  match (c.branch b).hold with
  | none => c
  | some x =>
    let c1 := c.updBranch b fun r =>
      { r with exchanges := r.exchanges + 1
               unanswered := if reply.isSome then r.unanswered else r.unanswered + 1 }
    let c2 := if x.discard then c1 else c1.handResult x reply
    (c2.updBranch b fun r => { r with hold := none, link := .idle }).armBranch b

/-- Is a received frame a valid reply to exchange x (R43)? -/
def Exchange.accepts (x : Exchange) (f : Frame) : Bool :=
  match x.port with
  | none => f.fits x.address statusReply statusLength
  | some p => f.fits x.address portReply portLength && (payloadByte f.payload 0).toNat % 4 == p % 4

/-- Does branch b read what arrives: its exchange is not discarded (R62)? -/
def Chip.readsReplies (c : Chip) (b : Nat) : Bool :=
  match (c.branch b).hold with
  | some x => !x.discard
  | none => true

/-- Bytes received on branch b in a reply window (R43); what arrives for a discarded exchange is not read (R62). -/
def Chip.branchReceives (c : Chip) (b : Nat) (bytes : List Byte) : Chip :=
  match (c.branch b).hold with
  | none => c
  | some x =>
    if x.discard then c
    else
      let r := scanFrames x.accepts 0 bytes
      let c1 := c.updBranch b fun k => { k with rejected := k.rejected + BitVec.ofNat 32 r.1 }
      match r.2 with
      | some f => c1.endExchange b (some f.payload)
      | none => c1

/-- A reply window of branch b closes without a valid reply (R42, R60, R61). -/
def Chip.windowCloses (c : Chip) (b : Nat) : Chip :=
  match (c.branch b).hold with
  | none => c
  | some x =>
    if x.attempt < 3 && !x.last then
      c.updBranch b fun r => { r with link := .sending, hold := some { x with attempt := x.attempt + 1 } }
    else c.endExchange b none

/-- The carrier state of branch b changes and, while the part is RUNNING, is handed to the Plant Monitor (R60). -/
def Chip.carrierChanges (c : Chip) (b : Nat) (k : Carrier) (level : Bool) : Chip :=
  let c1 := c.updBranch b fun r => { r with carrier := k, input := level, timing := .stopped }
  if c1.running then c1.handCarrier b k else c1

/-- Which timer runs for a carrier state and an input level (R60). -/
def timerFor (k : Carrier) (level : Bool) : CarrierTimer :=
  match k, level with
  | .present, true => .stopped
  | .lost, false => .stopped
  | _, true => .high
  | _, false => .low

end Sys2Proof.Machine
end

