-- ==== Sys2Proof/Machine/RackPoints.lean ====
section
/-! DEFINITION. The crosspoint records, the pending list and the rack arbiter (R94, R97 to R101). -/

namespace Sys2Proof.Machine

/-- The confirmed crosspoint a source makes. -/
def confirmedOf : Option Nat → Confirmed
  | some s => .source s
  | none => .nothing

/-- A position needs a crosspoint set when it is USED and its effective source differs from its confirmed crosspoint
(R99). -/
def Chip.needsSet (c : Chip) (q : Nat) : Bool :=
  (c.channel q).used
    && match (c.effective q).source with
      | some s => (c.point q).confirmed != .source s
      | none => false

/-- Position q becomes MARKED at the tail of the pending list (R99). -/
def Chip.markPoint (c : Chip) (q : Nat) : Chip :=
  let c' := c.updPoint q fun r => { r with condition := .marked }
  c'.setRack { c'.rack with pendingList := appendNew c'.rack.pendingList q }

/-- Position q becomes IDLE and leaves the pending list (R99). -/
def Chip.idlePoint (c : Chip) (q : Nat) : Chip :=
  let c' := c.updPoint q fun r => { r with condition := .idle }
  c'.setRack { c'.rack with pendingList := c'.rack.pendingList.filter (· != q) }

/-- MARKED at the tail if the position needs a set, otherwise IDLE (R100, R102). -/
def Chip.testPoint (c : Chip) (q : Nat) : Chip := if c.needsSet q then c.markPoint q else c.idlePoint q

/-- The mismatch count of position q set to 0 (R100, R102). -/
def Chip.clearMismatch (c : Chip) (q : Nat) : Chip := c.updPoint q fun r => { r with mismatch := 0 }

/-- An offer of position q, with or without a change of its effective source (R100). -/
def Chip.offerPoint (c : Chip) (q : Nat) (changed : Bool) : Chip :=
  match (c.point q).condition with
  | .idle => c.testPoint q
  | .marked => if c.needsSet q then c else c.idlePoint q
  | .inFlight => c
  | .stuck => if changed then (c.clearMismatch q).testPoint q else c

/-- A withdrawal of position q, which has become UNUSED (R100). -/
def Chip.withdrawPoint (c : Chip) (q : Nat) : Chip :=
  match (c.point q).condition with
  | .idle => c
  | .marked => c.idlePoint q
  | .inFlight => c
  | .stuck => (c.clearMismatch q).idlePoint q

/-! ### The arbiter (R101) -/

/-- Rack frame kinds, and their replies with the fixed payload lengths (R189). -/
def crosspointSet : Byte := 0x03
def crosspointReply : Byte := 0x83
def groupQuery : Byte := 0x04
def groupReply : Byte := 0x84

/-- The router's unit address (R93). -/
def routerAddress : Nat := 1

/-- The frame of a rack exchange (R97, R98). -/
def RackJob.frame : RackJob → List Byte
  | .set q s => frameOf routerAddress crosspointSet [BitVec.ofNat 8 q, BitVec.ofNat 8 s]
  | .query g => frameOf routerAddress groupQuery [BitVec.ofNat 8 g]

/-- Put a rack exchange into the holding stage and go SENDING, attempt 1 (R94). -/
def Chip.startRack (c : Chip) (job : RackJob) : Chip :=
  c.setRack { c.rack with link := .sending, hold := some { job := job, attempt := 1, frame := job.frame } }

/-- The group cursor's next group (R101). -/
def nextGroup : Option Nat → Nat
  | some g => (g + 1) % 8
  | none => 0

/-- The rack arbiter selects (R101). -/
def Chip.selectRack (c : Chip) : Chip :=
  let query :=
    let g := nextGroup c.rack.cursor
    (c.setRack { c.rack with cursor := some g, owed := false }).startRack (.query g)
  match c.rack.pendingList with
  | q :: rest =>
    if c.rack.owed then query
    else
      (c.setRack
          { c.rack with
            pendingList := rest
            points := vupd c.rack.points q fun r => { r with condition := .inFlight } }).startRack
        (.set q ((c.effective q).source.getD 0))
  | [] => query

/-- A rack link with no exchange in progress selects while the part is RUNNING, and is SILENT otherwise (R93). -/
def Chip.armRack (c : Chip) : Chip :=
  if c.rack.hold.isSome then c
  else if c.running then c.selectRack
  else if c.rack.link = .silent then c
  else c.setRack { c.rack with link := .silent }

end Sys2Proof.Machine
end

