-- ==== Sys2Proof/Machine/Sources.lean ====
section
/-! DEFINITION. Effective sources and substitution (R12 to R15), and the Source Supervisor (R104 to R106). -/

namespace Sys2Proof.Machine

/-- The effective source of position q under the current line-up and the open source outages (R12). -/
def Chip.effectiveOf (c : Chip) (q : Nat) : Effective :=
  let ch := c.channel q
  if ch.used = false then { source := none, onBackup := false }
  else
    match ch.backup with
    | some b =>
      if c.sourceOut ch.primary && !c.sourceOut b then { source := some b, onBackup := true }
      else { source := some ch.primary, onBackup := false }
    | none => { source := some ch.primary, onBackup := false }

/-- Store the effective source of position q. -/
def Chip.setEffective (c : Chip) (q : Nat) (e : Effective) : Chip :=
  c.setLineUp { c.lineUp with effective := vupd c.lineUp.effective q fun _ => e }

/-- SUBSTITUTION, when the old effective source or the new one is a backup (R14; log 24). It carries the primary of the
channel record in force after the change, for a position that has become UNUSED the unchecked primary field (log 46). -/
def Chip.substitution (c : Chip) (q : Nat) (old new : Effective) (cause : SubstCause) : Chip :=
  if old.onBackup || new.onBackup then
    c.noticeOf q (.substitution cause old.source new.source (c.channel q).primary)
  else c

/-- Recompute the effective source of position q (R12 to R15). At a take, `cause` TAKE, an unchanged effective source
that differs from the confirmed crosspoint is offered again (R15). -/
def Chip.recomputeEffective (c : Chip) (cause : SubstCause) (q : Nat) : Chip :=
  let old := c.effective q
  let new := c.effectiveOf q
  let c1 := c.setEffective q new
  if old.source = new.source then
    if cause = .take ∧ c1.needsSet q = true then c1.offerPoint q false else c1
  else
    let c2 := c1.substitution q old new cause
    if new.source.isSome then c2.offerPoint q true else c2.withdrawPoint q

/-- A source outage of s has opened or closed: recompute the USED positions with s as primary or backup (R13). -/
def Chip.recomputeUsing (c : Chip) (s : Nat) : Chip :=
  forIndices 64 (fun c q =>
    if (c.channel q).used && ((c.channel q).primary == s || (c.channel q).backup == some s)
    then c.recomputeEffective .source q else c) c

/-! ### Source hysteresis (R104 to R106) -/

/-- The hysteresis of a source record. -/
def Source.run (r : Source) : LevelRun := { state := r.state, low := r.low, high := r.high, start := r.lowStart }

/-- A sample at a source record with its settings (R104): an unsupervised source only keeps the level; a change of
state sets the low-run start to NONE. -/
def Source.sample (r : Source) (g : SourceSetting) (v : Byte) (silent : Bool) (now : Option Nat) : Source :=
  let r1 := { r with lastLevel := some v, lastUnanswered := silent }
  if g.supervised then
    let x := r.run.sample g.arm g.trigger g.nTrip g.nClear v.toNat now
    { r1 with state := x.state, low := x.low, high := x.high
              lowStart := if x.state = r.state then x.start else none }
  else r1

/-- The minute of the first low sample of the run a sample belongs to (R104, R105). -/
def Source.runStart (r : Source) (now : Option Nat) : Option Nat := if r.low = 0 then now else r.lowStart

/-- The outage of source s opens (R105). -/
def Chip.sourceOpens (c : Chip) (s : Nat) (start : Option Nat) : Chip :=
  (c.openRequest { kind := .source, object := s, start := start }).recomputeUsing s

/-- The outage of source s closes (R106). -/
def Chip.sourceCloses (c : Chip) (s : Nat) : Chip :=
  ((c.setMark .source s none).closeOf .source s (· == .opened) .recovered).recomputeUsing s

/-- One level sample at source s, with all it hands on (R96 step 3, R104). -/
def Chip.sampleSource (c : Chip) (s : Nat) (v : Byte) (silent : Bool) : Chip :=
  let old := c.source s
  let new := old.sample (vget c.lineUp.current.sources s) v silent c.now
  let c1 := c.updSource s fun _ => new
  if old.state ≠ .tripped ∧ new.state = .tripped then c1.sourceOpens s (old.runStart c.now)
  else if old.state = .tripped ∧ new.state ≠ .tripped then c1.sourceCloses s
  else c1

end Sys2Proof.Machine
end

