-- ==== Sys2Proof/Machine/LineUps.lean ====
section
/-! DEFINITION. Blackouts (R16 to R18) and the line-up take (R3 to R11). -/

namespace Sys2Proof.Machine

/-! ### Blackouts -/

/-- Is an entry active for a minute; none while the clock is UNSET (R16)? -/
def Blackout.activeAt (e : Blackout) : Option Nat → Bool
  | some m => e.start ≤ m && m < e.stop
  | none => false

/-- The activity of every entry of a list. -/
def activity (l : List Blackout) (now : Option Nat) : List Bool := l.map (·.activeAt now)

/-- The union of the zone sets of the entries that pass a test, given entry and activity. -/
def zoneUnion (p : Blackout → Bool → Bool) : List Blackout → List Bool → ZoneSet
  | e :: es, a :: act => (if p e a then e.zones else 0) ||| zoneUnion p es act
  | _, _ => 0

/-- The blackout zone set of every position (R16). -/
def zoneSets (l : List Blackout) (act : List Bool) : Vector ZoneSet 64 :=
  Vector.ofFn fun q => zoneUnion (fun e a => a && e.position == q.val) l act

/-- The zones of the entries whose activity changes: the affected zone set (R17). -/
def changedZones : List Blackout → List Bool → List Bool → ZoneSet
  | e :: es, a :: act, b :: act' => (if a != b then e.zones else 0) ||| changedZones es act act'
  | _, _, _ => 0

/-- Evaluate the blackout list for the current minute number and rebuild the zone sets (R16, R18). -/
def Chip.evaluateList (c : Chip) : Chip :=
  let act := activity c.lineUp.current.blackouts c.now
  c.setLineUp { c.lineUp with active := act, zones := zoneSets c.lineUp.current.blackouts act }

/-- The evaluation of a minute event or of SET CLOCK from UNSET, with the affected zones handed on (R17). -/
def Chip.evaluateBlackouts (c : Chip) : Chip :=
  let l := c.lineUp.current.blackouts
  c.evaluateList.recomputeZones (changedZones l c.lineUp.active (activity l c.now))

/-! ### The checks (R4) -/

def rateOk (r : Int) : Bool := -999999 ≤ r && r ≤ 999999

def SourceSetting.ok (g : SourceSetting) : Bool :=
  g.trigger < g.arm && 1 ≤ g.nTrip && g.nTrip ≤ 15 && 1 ≤ g.nClear && g.nClear ≤ 15

/-- Channel record q of the mirror passes check 4. -/
def channelOk (m : Memory) (q : Nat) : Bool :=
  let ch := mirrorChannel m q
  mirrorUse m q == 0
    || (mirrorUse m q == 1 && ch.primary < 32 && ch.tier < 16
        && match ch.backup with
          | some b => b < 32 && b != ch.primary
          | none => true)

/-- Blackout slot k of the mirror passes check 6. -/
def blackoutOk (m : Memory) (k : Nat) : Bool :=
  let e := mirrorBlackout m k
  e.position < 64 && mirrorUse m e.position == 1 && e.start < e.stop && e.zones != 0

/-- Checks 2 to 6 of R4: the first failure's code. -/
def checkLineUp (m : Memory) : Option OutcomeCode :=
  if !(List.range 16).all fun t => rateOk (mirrorRate m t) then some .rateRange
  else if !(List.range 32).all fun s => (mirrorSource m s).ok then some .sourceSetting
  else if !(List.range 64).all (channelOk m) then some .channelRecord
  else if 48 < mirrorCount m then some .blackoutCount
  else if !(List.range (mirrorCount m)).all (blackoutOk m) then some .blackoutEntry
  else none

/-! ### The take (R5 to R8) -/

/-- A changed source's hysteresis record at a take: its counts are cleared, and a changed supervised flag makes it
UNARMED (R7). -/
def Source.retake (r : Source) (reset : Bool) : Source :=
  let state := if reset then Hysteresis.unarmed else r.state
  { r with low := 0, high := 0, state := state, lowStart := if state = r.state then r.lowStart else none }

/-- Source s at a take, from its old and its new settings (R7). A take that moves the source to UNARMED changes its
state, and so sets its low-run start to NONE (R104); cleared counts alone keep it (log 52). -/
def Chip.takeSource (c : Chip) (old : Vector SourceSetting 32) (s : Nat) : Chip :=
  let g := vget old s
  let g' := vget c.lineUp.current.sources s
  if g = g' then c
  else
    let was := c.sourceOut s
    let c1 := c.updSource s fun r => r.retake (g.supervised != g'.supervised)
    if was && g.supervised && !g'.supervised then c1.sourceCloses s else c1

/-- A line-up take that has passed its checks (R6); the sweep starts only while RUNNING (R6, R11). Step 3 handles the
changed sources in ascending index, each whole (log 45). -/
def Chip.takeLineUp (c : Chip) : Chip :=
  let old := c.lineUp.current.sources
  let c1 := c.setLineUp
    { c.lineUp with
      current := mirrorLineUp c.lineUp.mirror, gen := some (takeWord c.lineUp.mirror), outcome := .done }
  let c2 := forIndices 32 (fun c s => c.takeSource old s) c1
  let c3 := forIndices 64 (fun c q => c.recomputeEffective .take q) c2
  let c4 := c3.evaluateList
  if c4.running then c4.setSweep (some 0) else c4

/-- Show an outcome in the outcome word. -/
def Chip.lineUpOutcome (c : Chip) (o : OutcomeCode) : Chip := c.setLineUp { c.lineUp with outcome := o }

/-- Checks 2 to 6, then the take or the refusal (R4 to R6). -/
def Chip.tryLineUp (c : Chip) : Chip :=
  match checkLineUp c.lineUp.mirror with
  | some o => c.lineUpOutcome o
  | none => c.takeLineUp

/-- Does the mirror's take word differ from the generation in force, every value differing from NONE (R3, R68)? -/
def newGeneration (m : Memory) (gen : Option Half) : Bool := gen != some (takeWord m)

/-- Does the part take requests for a region: RUNNING, or FILL after the automatic take (R3, R68)? -/
def Chip.takesRequests (c : Chip) (gen : Option Half) : Bool :=
  c.running || (c.part.state == .fill && gen.isSome)

/-- A captured write touched the line-up take word (R3, R10). -/
def Chip.lineUpEvent (c : Chip) : Chip :=
  if !c.takesRequests c.lineUp.gen || !newGeneration c.lineUp.mirror c.lineUp.gen || c.lineUp.held then c
  else if c.sweep.isSome then c.setLineUp { c.lineUp with held := true, outcome := .held }
  else c.tryLineUp

/-- The sweep has ended: a HELD take is handled by R4, its note cleared first (R10). -/
def Chip.heldTake (c : Chip) : Chip :=
  if c.lineUp.held then
    let c1 := c.setLineUp { c.lineUp with held := false }
    if newGeneration c1.lineUp.mirror c1.lineUp.gen then c1.tryLineUp else c1.lineUpOutcome .done
  else c

/-- The sweep visits the port at its cursor (R35): every port is recomputed and the cursor moves on; after port 2559
the sweep ends and a HELD take is handled. -/
def Chip.sweepStep (c : Chip) : Chip :=
  match c.sweep with
  | none => c
  | some p =>
    let c1 := c.recompute p
    if p + 1 < 2560 then c1.setSweep (some (p + 1)) else (c1.setSweep none).heldTake

end Sys2Proof.Machine
end

