-- ==== Sys2Proof/Machine/Clocks.lean ====
section
/-! DEFINITION. The Minute Clock, the cycle calendar, the backlog and the start of a pass (R109 to R116). -/

namespace Sys2Proof.Machine

/-! ### The cycle calendar (R113) -/

/-- A boundary is due for minute m. -/
def Calendar.due (k : Calendar) (m : Nat) : Bool := k.start + k.m ≤ m

/-- The calendar after one boundary. -/
def Calendar.boundary (k : Calendar) : Calendar :=
  { cycle := k.cycle + 1, start := k.start + k.m, m := k.nextM, nextM := k.nextM }

/-- Bring the calendar forward to minute m, one boundary after another (R113). After the first boundary every cycle
has length next M, so the number of further boundaries is a quotient. -/
def Calendar.forward (k : Calendar) (m : Nat) : Calendar :=
  if k.due m then
    let k1 := k.boundary
    let n := (m - k1.start) / k1.m
    { k1 with cycle := k1.cycle + BitVec.ofNat 8 n, start := k1.start + n * k1.m }
  else k

/-! ### Checkpoint and pass start (R116) -/

/-- Queue the checkpoint, replacing one still queued (R116, R172). -/
def Chip.queueCheckpoint (c : Chip) : Chip :=
  c.setEngine { c.engine with
    checkpoint := some
      { cycle := c.clock.cal.cycle, start := c.clock.cal.start, m := c.clock.cal.m, nextM := c.clock.cal.nextM
        passMinute := c.pass.minute, lineUpGen := c.lineUp.gen.getD 0, plantGen := c.plant.gen.getD 0 } }

/-- Start a pass for the next pass minute (R116). -/
def Chip.startPass (c : Chip) : Chip :=
  let m := c.clock.nextPass.getD 0
  let cal := if c.clock.cal.due m then c.clock.cal.boundary else c.clock.cal
  let c1 := c.setClock { c.clock with nextPass := some (m + 1), backlog := c.clock.backlog - 1, cal := cal }
  let c2 := c1.setPass { state := .visiting, minute := some m, cursor := 0, point := none }
  (c2.setStore { c2.store with turn := .fresh }).queueCheckpoint

/-- A pass starts when the backlog is not zero and no pass is under way (R116). -/
def Chip.passIfDue (c : Chip) : Chip :=
  if c.pass.state = .idle ∧ c.clock.backlog ≠ 0 then c.startPass else c

/-! ### Minute events (R111, R115) -/

/-- The backlog takes a minute event, dropping the oldest waiting minute when it is full (R115). -/
def Chip.takeMinute (c : Chip) : Chip :=
  if c.clock.backlog < Config.maxBacklog then c.setClock { c.clock with backlog := c.clock.backlog + 1 }
  else
    let m := c.clock.nextPass.getD 0
    (c.setClock { c.clock with nextPass := some (m + 1), dropped := c.clock.dropped + 1 }).noticeOf 0
      (.minutesDropped m (c.clock.dropped + 1))

/-- The minute number rises by one (R109). -/
def Chip.raiseMinute (c : Chip) : Chip := c.setClock { c.clock with minute := c.clock.minute.map (· + 1) }

/-- One minute event (R111), with the branch links selecting what it gave them (R41). -/
def Chip.minuteEvent (c : Chip) : Chip :=
  ((c.raiseMinute.takeMinute).evaluateBlackouts.passIfDue).armBranches

/-- k minute events, one after another (R112). -/
def Chip.minuteEvents (c : Chip) (k : Nat) : Chip := forIndices k (fun c _ => c.minuteEvent) c

/-! ### SEC1 (R109, R110) -/

/-- Is the clock counting: the part RUNNING and the clock not UNSET (R109)? -/
def Chip.clockCounts (c : Chip) : Bool := c.running && c.clock.state != .unset

/-- Can the minute number rise: it stops at FFFFFFFEh (R109)? -/
def Chip.minuteCanRise (c : Chip) : Bool :=
  match c.clock.minute with
  | some m => m < Config.lastMinute
  | none => false

/-- The seconds count wraps: it becomes 0, the minute number rises, and a minute event occurs (R109). -/
def Chip.wrapSeconds (c : Chip) : Chip := (c.setClock { c.clock with seconds := 0 }).minuteEvent

/-- A rising edge of SEC1 (R109, R110): in HELD it takes the clock back to RUNNING and counts. -/
def Chip.secondEdge (c : Chip) : Chip :=
  let c1 := c.setClock { c.clock with state := .running, lossTimer := true }
  if c.clock.seconds < 59 then c1.setClock { c1.clock with seconds := c.clock.seconds + 1 }
  else if c.minuteCanRise then c1.wrapSeconds
  else c1

/-- The seconds-loss timer reaches 3 s (R110). -/
def Chip.loseSeconds (c : Chip) : Chip :=
  (c.setClock { c.clock with state := .held, lossTimer := false }).noticeOf 0 (.clockHeld c.clock.seconds)

/-! ### Setting the clock (R112) -/

/-- SET CLOCK from UNSET (R112). -/
def Chip.setFromUnset (c : Chip) (minute second : Nat) : Chip :=
  (c.setClock
    { c.clock with
      state := .running, minute := some minute, seconds := second, lossTimer := true
      cal := c.clock.cal.forward minute, nextPass := some (minute + 1) }).evaluateBlackouts.queueCheckpoint

/-- A SET CLOCK step of k minutes, 0 to 1,440, in RUNNING or HELD (R112). -/
def Chip.stepClock (c : Chip) (k second : Nat) : Chip :=
  (c.setClock { c.clock with seconds := second }).minuteEvents k

end Sys2Proof.Machine
end

