-- ==== Sys2Proof/Machine/Passes.lean ====
section
/-! DEFINITION. The subscriber pass (R116 to R122): the six stages of a visit, pausing on journal space, and the end
of a visit and of a pass. -/

namespace Sys2Proof.Machine

/-- Where the work of a visit has come to: the part, and the point at which it waits for a slot, if it does. -/
structure Work where
  chip : Chip
  stop : Option PausePoint

/-- Go on with the next stage unless the visit has paused. -/
def Work.andThen (w : Work) (f : Chip → Work) : Work := if w.stop.isSome then w else f w.chip

/-- A stage that needs no journal slot. -/
def Work.plain (w : Work) (f : Chip → Chip) : Work := w.andThen fun c => { chip := f c, stop := none }

/-- Note whether the waiting money entry has joined (R153; log 31). -/
def Chip.setAnswered (c : Chip) (b : Bool) : Chip := c.setStore { c.store with answered := b }

/-- Update purchase k of record i and recompute the owner's port (R134). -/
def Chip.setPurchase (c : Chip) (i k : Nat) (f : Purchase → Purchase) : Chip :=
  (c.updLive i fun l => { l with purchases := l.purchases.modify k f }).recomputeOwned i

/-- Purchase k of record i leaves the list; the entries behind it keep their order (R134). -/
def Chip.dropPurchase (c : Chip) (i k : Nat) : Chip :=
  (c.updLive i fun l => { l with purchases := l.purchases.eraseIdx k }).recomputeOwned i

/-- Stage 1: close on touch (R118). -/
def Chip.stageClose (c : Chip) (i m : Nat) : Work :=
  if c.stale i then
    if c.moneyRoom then { chip := c.closeOnTouch i (some m), stop := none }
    else { chip := c, stop := some { stage := 1, place := 0 } }
  else { chip := c, stop := none }

/-- Charge purchase k and make it CHARGED; a slot is free (R119, R137). -/
def Chip.chargeAt (c : Chip) (i k : Nat) (p : Purchase) (m : Nat) : Chip :=
  (c.charge i p (some m)).setPurchase i k fun p => { p with state := .charged }

/-- Stage 2: each CONFIRMED purchase from place k on is charged (R137). -/
def Chip.stageOwed (i m : Nat) : Nat → Nat → Chip → Work
  | 0, _, c => { chip := c, stop := none }
  | fuel + 1, k, c =>
    match (c.sub i).live.purchases[k]? with
    | none => { chip := c, stop := none }
    | some p =>
      if p.state ≠ .confirmed then Chip.stageOwed i m fuel (k + 1) c
      else if c.moneyRoom then Chip.stageOwed i m fuel (k + 1) (c.chargeAt i k p m)
      else { chip := c, stop := some { stage := 2, place := k } }

/-- The start test of stage 3 at purchase k (R135). -/
def Chip.openWindow (c : Chip) (i k m : Nat) (p : Purchase) : Chip :=
  if p.state = .booked ∧ p.start ≤ m then c.setPurchase i k fun p => { p with state := .opening } else c

/-- Refund purchase k, which leaves the list; a slot is free (R119, R138). -/
def Chip.refundAt (c : Chip) (i k : Nat) (p : Purchase) (m : Nat) : Chip :=
  (c.refund i p (some m)).dropPurchase i k

/-- A CHARGED purchase k at its window's end: refunded or kept, and it leaves the list; or it waits (R138). -/
def Chip.settleCharged (c : Chip) (i k m : Nat) (p : Purchase) : Work :=
  if p.refundDue then
    if c.moneyRoom then { chip := c.refundAt i k p m, stop := none }
    else { chip := c, stop := some { stage := 3, place := k } }
  else { chip := c.dropPurchase i k, stop := none }

/-- Purchase k at its window's end, by its state (R138). -/
def Chip.settlePurchase (c : Chip) (i k m : Nat) (p : Purchase) : Work :=
  match p.state with
  | .booked => { chip := c.dropPurchase i k, stop := none }
  | .opening => { chip := (c.lapsed i p (some m)).dropPurchase i k, stop := none }
  | .confirmed =>
    if c.moneyRoom then (c.chargeAt i k p m).settleCharged i k m p
    else { chip := c, stop := some { stage := 3, place := k } }
  | .charged => c.settleCharged i k m p

/-- Stage 3: the start test and the end test of each purchase from place k on (R135, R138). -/
def Chip.stageWindows (i m : Nat) : Nat → Nat → Chip → Work
  | 0, _, c => { chip := c, stop := none }
  | fuel + 1, k, c =>
    match (c.sub i).live.purchases[k]? with
    | none => { chip := c, stop := none }
    | some p =>
      let c1 := c.openWindow i k m p
      if p.stop ≤ m then
        (c1.settlePurchase i k m ((c1.sub i).live.purchases.getD k p)).andThen (Chip.stageWindows i m fuel k)
      else Chip.stageWindows i m fuel (k + 1) c1

/-- Stage 4: the billed or held minute (R126, R130). -/
def Chip.stageMinute (c : Chip) (i m : Nat) : Chip :=
  let l := (c.sub i).live
  if l.state = .active ∧ l.appliedOn = true then
    if c.out i then c.holdMinute i m else c.billMinute i (some m)
  else c

/-- Is a held run to be resolved at stage 5 (R132)? -/
def Chip.runEnded (c : Chip) (i : Nat) : Bool :=
  (c.sub i).live.outSince.isSome && (!c.out i || !(c.sub i).live.appliedOn)

/-- Stage 5: out-run resolution (R132). -/
def Chip.stageRun (c : Chip) (i m : Nat) : Work :=
  if !c.runEnded i then { chip := c, stop := none }
  else if c.creditDue i then
    if c.moneyRoom then { chip := c.credit i (some m), stop := none }
    else { chip := c, stop := some { stage := 5, place := 0 } }
  else { chip := c.backCharge i (some m), stop := none }

/-- The applied state of record i's port; OFF where it owns none (R125). -/
def Chip.appliedOf (c : Chip) (i : Nat) : PortState :=
  match c.ownedPort i with
  | some p => (c.port p).applied
  | none => .off

/-- Is a minute dark for position q at record i (R139)? -/
def Chip.darkAt (c : Chip) (i q : Nat) : Bool :=
  c.out i || !(c.channel q).used || c.sourceOut (c.channel q).primary
    || match c.appliedOf i with
      | .on _ jam => jam.getLsbD q
      | .off => true

/-- Stage 6: dark minutes (R139). -/
def Chip.stageDark (c : Chip) (i m : Nat) : Chip :=
  c.updLive i fun l =>
    { l with purchases := l.purchases.map fun p =>
        if p.state = .charged ∧ p.start ≤ m ∧ m < p.stop ∧ c.darkAt i p.position = true
        then { p with dark := p.dark + 1 } else p }

/-- The stages of a visit from a point on: a stage before the point is done, the stage of the point starts at its
place (R117, R119). Five rounds serve a list of at most four purchases. -/
def Chip.stagesFrom (c : Chip) (i m : Nat) (pt : PausePoint) : Work :=
  let place := fun s => if pt.stage = s then pt.place else 0
  let w1 : Work := if pt.stage ≤ 1 then c.stageClose i m else { chip := c, stop := none }
  let w2 := if pt.stage ≤ 2 then w1.andThen (Chip.stageOwed i m 5 (place 2)) else w1
  let w3 := if pt.stage ≤ 3 then w2.andThen (Chip.stageWindows i m 5 (place 3)) else w2
  let w4 := if pt.stage ≤ 4 then w3.plain fun c => c.stageMinute i m else w3
  let w5 := w4.andThen fun c => c.stageRun i m
  w5.plain fun c => c.stageDark i m

/-- The cursor rises by one; past 2047 the pass ends and a new one starts if the backlog is not zero (R117, R122). -/
def Chip.advancePass (c : Chip) : Chip :=
  let c1 := c.setStore { c.store with turn := .fresh }
  if c.pass.cursor < 2047 then
    c1.setPass { c.pass with state := .visiting, cursor := c.pass.cursor + 1, point := none }
  else
    (c1.setPass { c.pass with state := .idle, cursor := Config.restingCursor.toNat, point := none }).passIfDue

/-- The pass goes PAUSED at a point of the visit, its entry unanswered (R119). -/
def Chip.pausePass (c : Chip) (pt : PausePoint) : Chip :=
  (c.setPass { c.pass with state := .paused, point := some pt }).setAnswered false

/-- Run the visit of the record at the cursor from a point on (R117, R119). -/
def Chip.runVisit (c : Chip) (pt : PausePoint) : Chip :=
  let w := (c.setPass { c.pass with state := .visiting, point := none }).stagesFrom c.pass.cursor
    (c.pass.minute.getD 0) pt
  match w.stop with
  | some pt => w.chip.pausePass pt
  | none => w.chip.advancePass

/-- The record at the cursor: passed over if FREE, visited otherwise (R117). -/
def Chip.visitRecord (c : Chip) : Chip :=
  if (c.sub c.pass.cursor).live.state = .free then c.advancePass
  else c.runVisit { stage := 1, place := 0 }

/-- A PAUSED visit whose waiting entry is made goes on at the point where it stopped (R119). -/
def Chip.resumePass (c : Chip) : Chip :=
  match c.pass.point with
  | some pt => (c.setAnswered false).runVisit pt
  | none => c

end Sys2Proof.Machine
end

