-- ==== Sys2Proof/Machine/Takes.lean ====
section
/-! DEFINITION. Subscriber takes (R24 to R30), port ownership (R28) and the write-back cursor (R36). -/

namespace Sys2Proof.Machine

/-! ### Requests and the queue (R24) -/

/-- Show a take outcome in the live block of record i. -/
def Chip.takeOutcome (c : Chip) (i : Nat) (o : OutcomeCode) : Chip := c.updLive i fun l => { l with outcome := o }

/-- Append record i to the take queue and show PENDING; a record already queued has one request (R24). -/
def Chip.queueTake (c : Chip) (i : Nat) : Chip :=
  if c.store.queue.contains i then c
  else (c.setStore { c.store with queue := c.store.queue ++ [i] }).takeOutcome i .pending

/-- A captured write touched the revision word of record i (R24). -/
def Chip.revisionEvent (c : Chip) (i : Nat) : Chip :=
  if c.part.state ≠ .fill ∧ c.part.state ≠ .running then c else c.queueTake i

/-- The oldest queued record whose fill is complete (R24). -/
def Chip.servable (c : Chip) : Option Nat := c.store.queue.find? fun i => (c.sub i).filled

/-- Is the store free: no paused pass, no take and no order waiting for a slot (R120)? -/
def Chip.storeFree (c : Chip) : Bool := c.running && c.pass.state != .paused && c.store.hold.isNone

/-- May the store serve a take now: at each point between two visits a take goes first, once (R120)? -/
def Chip.takeTurn (c : Chip) : Bool := c.storeFree && (c.pass.state == .idle || c.store.turn == .fresh)

/-! ### Checks (R25) -/

/-- Checks 2 to 6 of an ACTIVE or SUSPENDED intent. -/
def Chip.checkService (c : Chip) (i : Nat) (t : Intent) : Option OutcomeCode :=
  let owner := (c.port (t.element * 4 + t.port)).owner
  if 8 ≤ t.zone then some .zoneRange
  else if 640 ≤ t.element ∨ c.isTap t.element = false then some .notATap
  else if 4 ≤ t.port then some .portRange
  else if owner ≠ none ∧ owner ≠ some i then some .portTaken
  else if (c.sub i).live.state = .final then some .finalPending
  else none

/-! ### Ownership (R28) -/

/-- Step 1 of R27 and R29: the mirror becomes the taken intent. -/
def Chip.copyIntent (c : Chip) (i : Nat) (t : Intent) : Chip :=
  (c.updSub i fun r => { r with taken := t }).updLive i fun l => { l with takenRev := t.revision }

/-- Give port p the owner given. -/
def Chip.setOwner (c : Chip) (p : Nat) (owner : Option Nat) : Chip := c.updPort p fun r => { r with owner := owner }

/-- The port named by an intent, with its zone. -/
def Intent.owned (t : Intent) : Owned := { element := t.element, port := t.port, zone := t.zone }

/-- Settle ownership for an ACTIVE or SUSPENDED take: the old port loses its owner, the new one gains the record, and
the applied port summary follows the new port (R28). -/
def Chip.settleOwner (c : Chip) (i : Nat) (t : Intent) : Chip :=
  let old := c.ownedPort i
  let p := t.owned.number
  let c1 := c.updLive i fun l => { l with owned := some t.owned }
  if old = some p then c1
  else
    let c2 := match old with
      | some o => c1.setOwner o none
      | none => c1
    (c2.setOwner p (some i)).copySummary p

/-- Recompute the port released, if it is another, and then the port owned (R27 step 5). -/
def Chip.recomputeMoved (c : Chip) (old : Option Nat) (p : Nat) : Chip :=
  match old with
  | some o => if o = p then c.recompute p else (c.recompute o).recompute p
  | none => c.recompute p

/-- A take of ACTIVE or SUSPENDED that has passed the checks (R27); a move to a port whose applied state is OFF
resolves an open held run (R132). -/
def Chip.takeService (c : Chip) (i : Nat) (t : Intent) (st : RecordState) : Chip :=
  let wasOn := (c.sub i).live.appliedOn
  let old := c.ownedPort i
  let c1 := c.copyIntent i t
  let c2 := c1.updLive i fun l => { l with cycle := if l.state = .free then c.clock.cal.cycle else l.cycle, state := st }
  let c3 := (c2.settleOwner i t).recomputeMoved old t.owned.number
  let c4 := if wasOn && !(c3.sub i).live.appliedOn then c3.resolveOff i else c3
  c4.takeOutcome i .done

/-! ### VACANT (R29, R30) -/

/-- The take stops for a journal slot and holds the store, its entry unanswered (R29). -/
def Chip.holdTake (c : Chip) (i : Nat) (s : TakeStep) : Chip :=
  c.setStore { c.store with hold := some (.take i s), answered := false }

/-- The take or order that held the store goes on. -/
def Chip.unhold (c : Chip) : Chip := c.setStore { c.store with hold := none, answered := false }

/-- Charge a purchase at the head of the list, which leaves it; a slot is free (R29 step 5). -/
def Chip.chargeFirst (c : Chip) (i : Nat) (p : Purchase) : Chip :=
  (c.charge i p (c.eventMinute i)).dropPurchase i 0

/-- The purchase at the head of the list leaves it. -/
def Chip.dropFirst (c : Chip) (i : Nat) : Chip := c.dropPurchase i 0

/-- Steps 5 and 6 of R29, for at most `fuel` purchases: settle the list entry by entry, then show DONE. -/
def Chip.vacantPurchases (i : Nat) : Nat → Chip → Chip
  | 0, c => c.takeOutcome i .done
  | fuel + 1, c =>
    match (c.sub i).live.purchases with
    | [] => c.takeOutcome i .done
    | p :: _ =>
      match p.state with
      | .booked => Chip.vacantPurchases i fuel (c.dropFirst i)
      | .opening => Chip.vacantPurchases i fuel ((c.lapsed i p (c.eventMinute i)).dropFirst i)
      | .confirmed =>
        if c.moneyRoom then Chip.vacantPurchases i fuel (c.chargeFirst i p)
        else c.holdTake i .purchases
      | .charged => Chip.vacantPurchases i fuel (c.dropFirst i)

/-- Steps 4 to 6 of R29. -/
def Chip.vacantRun (c : Chip) (i : Nat) : Chip :=
  if (c.sub i).live.outSince.isNone then Chip.vacantPurchases i 5 c
  else if c.creditDue i && !c.moneyRoom then c.holdTake i .credit
  else Chip.vacantPurchases i 5 (c.resolveHeld i (c.eventMinute i))

/-- Steps 3 to 6 of R29. -/
def Chip.vacantFinal (c : Chip) (i : Nat) : Chip := (c.updLive i fun l => { l with state := .final }).vacantRun i

/-- The close on touch of a stale record, then steps 3 to 6 of R29 (R118). -/
def Chip.vacantClose (c : Chip) (i : Nat) : Chip :=
  if c.stale i && !c.moneyRoom then c.holdTake i .close
  else (c.closeIfStale i (c.eventMinute i)).vacantFinal i

/-- Step 2 of R29: the owned port is released and recomputed, and the record owns none. -/
def Chip.releasePort (c : Chip) (i : Nat) : Chip :=
  let c1 := (c.updLive i fun l => { l with owned := none }).dropSummary i
  match c.ownedPort i with
  | some p => (c1.setOwner p none).recompute p
  | none => c1

/-- Is a record state in use: ACTIVE or SUSPENDED (R23)? -/
def RecordState.inUse : RecordState → Bool
  | .active => true
  | .suspended => true
  | .free => false
  | .final => false

/-- A VACANT take (R29, R30). -/
def Chip.takeVacant (c : Chip) (i : Nat) (t : Intent) : Chip :=
  let c1 := c.copyIntent i t
  if (c.sub i).live.state.inUse then (c1.releasePort i).vacantClose i else c1.takeOutcome i .done

/-- Serve the take of record i against its intent mirror (R25 to R30). -/
def Chip.serveTake (c : Chip) (i : Nat) : Chip :=
  let t := c.intent i
  if t.revision = (c.sub i).live.takenRev then c.takeOutcome i .done
  else if t.status = 0 then c.takeVacant i t
  else if t.status = 1 ∨ t.status = 2 then
    match c.checkService i t with
    | some o => c.takeOutcome i o
    | none => c.takeService i t (if t.status = 1 then .active else .suspended)
  else c.takeOutcome i .statusCode

/-- The store takes up the oldest servable record of the queue (R24, R120). -/
def Chip.takeNext (c : Chip) : Chip :=
  match c.servable with
  | none => c
  | some i =>
    (c.setStore { c.store with queue := c.store.queue.filter (· != i), turn := .takeServed }).serveTake i

/-- A take whose waiting entry is made goes on behind that entry (R29); no second close on touch is made (log 53). -/
def Chip.resumeTake (c : Chip) (i : Nat) (s : TakeStep) : Chip :=
  match s with
  | .close => c.unhold.vacantFinal i
  | .credit => c.unhold.vacantRun i
  | .purchases => Chip.vacantPurchases i 5 c.unhold

/-! ### Write-back (R36) -/

/-- The record after i, wrapping from 2047 to 0. -/
def nextRecord (i : Nat) : Nat := (i + 1) % 2048

/-- Is any record dirty? -/
def Chip.anyDirty (c : Chip) : Bool := c.subs.any (·.dirty)

/-- The write-back cursor moves to the next record. -/
def Chip.moveCursor (c : Chip) : Chip := c.setStore { c.store with cursor := nextRecord c.store.cursor }

/-- The write-back cursor acts at the record it stands on (R36). -/
def Chip.writeBackStep (c : Chip) : Chip :=
  let i := c.store.cursor
  if !c.anyDirty then c
  else if !(c.sub i).dirty then c.moveCursor
  else if c.moneyWaitsFor i then c.moveCursor
  else
    let c1 := c.updSub i fun r => { r with dirty := false }
    c1.setStore { c1.store with copy := some (i, (c.sub i).live) }

end Sys2Proof.Machine
end

