-- ==== Sys2Proof/Machine/Orders.lean ====
section
/-! DEFINITION. The Order Taker (R148 to R151) and the effects of the eight orders (R63, R87, R89, R112, R114, R141 to
R143). -/

namespace Sys2Proof.Machine

/-! ### Kinds (11.8) -/

def kindPurchase : Nat := 1
def kindCancel : Nat := 2
def kindAdjust : Nat := 3
def kindResend : Nat := 4
def kindRepoll : Nat := 5
def kindAcknowledge : Nat := 6
def kindSetClock : Nat := 7
def kindNextCycle : Nat := 8

/-- Is the kind one of the eight (R151)? -/
def knownKind (k : Nat) : Bool := 1 ≤ k && k ≤ 8

/-- Does an order of the kind pass through the Subscriber Store (R150)? -/
def storeKind (k : Nat) : Bool := 1 ≤ k && k ≤ 4

/-! ### Taking (R150) -/

/-- The Order Taker takes the order at the head into its working copy when it is free and the head differs from the
tail; a subscriber order is presented to the store, WAITING (R150). -/
def Chip.armOrders (c : Chip) : Chip :=
  if c.running && c.orders.work.isNone && c.orders.head != c.orders.tail then
    let o := orderAt c.orders.mirror (32 * c.slotOf c.orders.head)
    c.setOrders { c.orders with work := some o, taking := if storeKind o.kind then .waiting else .idle }
  else c

/-- The outcome word of slot k. -/
def Chip.slotOutcome (c : Chip) (k : Nat) : SlotOutcome := vget c.orders.outcomes k

/-- The order taken is done or refused: step 4 of R150. -/
def Chip.finishOrder (c : Chip) (o : OutcomeCode) : Chip :=
  c.setOrders
    { c.orders with
      outcomes := vupd c.orders.outcomes (c.slotOf c.orders.head) fun _ => { code := o, index := c.orders.head }
      done := if o = .done then c.orders.done + 1 else c.orders.done
      refused := if o = .done then c.orders.refused else c.orders.refused + 1
      head := c.orders.head + 1, taking := .idle, work := none }

/-- Run the checks and the effect as one: a refusal finishes the order with its code (R151). -/
def Chip.decideOrder (c : Chip) (refusal : Option OutcomeCode) (effect : Chip → Chip) : Chip :=
  match refusal with
  | some o => c.finishOrder o
  | none => (effect c).finishOrder .done

/-- The order in the working copy, if it has the kind. -/
def Chip.workOf (c : Chip) (kind : Nat) : Option Order := c.orders.work.filter (·.kind == kind)

/-- Does the store serve the presented order now: free, and at its turn between two visits (R120)? -/
def Chip.orderTurn (c : Chip) : Bool :=
  c.storeFree && c.orders.taking == .waiting
    && (c.pass.state == .idle || c.store.turn == .takeServed || (c.store.turn == .fresh && c.servable.isNone))

/-- Is an order presented to the store (R120)? -/
def Chip.orderPresented (c : Chip) : Bool := c.orders.taking == .waiting

/-- May the pass take the record at the cursor (R120)? -/
def Chip.visitTurn (c : Chip) : Bool :=
  c.storeFree && c.pass.state == .visiting
    && (c.store.turn == .orderServed
      || (!c.orderPresented && (c.store.turn == .takeServed || c.servable.isNone)))

/-- The store has served an order at this point. -/
def Chip.orderServed (c : Chip) : Chip := c.setStore { c.store with turn := .orderServed }

/-! ### PURCHASE (R141) -/

/-- Do two windows overlap (R141 check 4)? -/
def overlaps (s1 e1 s2 e2 : Nat) : Bool := s1 < e2 && s2 < e1

/-- Is the clock UNSET? -/
def Chip.clockUnset (c : Chip) : Bool := c.clock.state == .unset

/-- The checks of PURCHASE. -/
def Chip.checkPurchase (c : Chip) (o : Order) : Option OutcomeCode :=
  let l := (c.sub o.index).live
  let ch := c.channel o.word8
  if c.clockUnset then some .clockUnset
  else if 2048 ≤ o.index then some .indexRange
  else if l.state ≠ .active then some .notInService
  else if 64 ≤ o.word8 ∨ o.word16 ≤ o.word12 ∨ 1440 < o.word16 - o.word12 ∨ 9999999 < o.word20 then
    some .parameterRange
  else if o.word16 ≤ (c.eventMinute o.index).getD 0 then some .tooLate
  else if 4 ≤ l.purchases.length then some .listFull
  else if ch.used && (c.sub o.index).taken.tiers.getLsbD ch.tier then some .alreadyEntitled
  else if l.purchases.any fun p => p.position == o.word8 && overlaps p.start p.stop o.word12 o.word16 then
    some .conflict
  else none

/-- The entry a PURCHASE books. -/
def Order.booking (o : Order) : Purchase :=
  { position := o.word8, state := .booked, start := o.word12, stop := o.word16, price := o.word20, dark := 0 }

/-- The effect of PURCHASE: a BOOKED entry joins the tail, and the owner's port is recomputed (R141). -/
def Chip.book (c : Chip) (o : Order) : Chip :=
  (c.updLive o.index fun l => { l with purchases := l.purchases ++ [o.booking] }).recomputeOwned o.index

/-! ### CANCEL PURCHASE (R142) -/

/-- The place of the entry with a position and start minute. -/
def placeOf (l : List Purchase) (position start : Nat) : Option Nat :=
  l.findIdx? fun p => p.position == position && p.start == start

/-- The entry a CANCEL PURCHASE names. -/
def Chip.cancelTarget (c : Chip) (o : Order) : Option Purchase :=
  (c.sub o.index).live.purchases.find? fun p => p.position == o.word8 && p.start == o.word12

/-- The checks of CANCEL PURCHASE. -/
def Chip.checkCancel (c : Chip) (o : Order) : Option OutcomeCode :=
  if c.clockUnset then some .clockUnset
  else if 2048 ≤ o.index then some .indexRange
  else if (c.sub o.index).live.state.inUse = false then some .notInService
  else if 64 ≤ o.word8 then some .parameterRange
  else
    match c.cancelTarget o with
    | none => some .notFound
    | some p => if p.state = .booked then none else some .tooLate

/-- The effect of CANCEL PURCHASE: the entry leaves the list (R142). -/
def Chip.cancelBooking (c : Chip) (o : Order) : Chip :=
  match placeOf (c.sub o.index).live.purchases o.word8 o.word12 with
  | some k => c.dropPurchase o.index k
  | none => c

/-! ### ADJUST (R143) -/

/-- The signed amount of an ADJUST. -/
def Order.amount (o : Order) : Int := signedOf 4 o.word12

/-- The checks of ADJUST. -/
def Chip.checkAdjust (c : Chip) (o : Order) : Option OutcomeCode :=
  let st := (c.sub o.index).live.state
  if 2048 ≤ o.index then some .indexRange
  else if !(st.inUse || (st == .final && !c.stale o.index)) then some .notInService
  else if 9999999 < o.amount.natAbs then some .parameterRange
  else none

/-- The ADJUST waits for a journal slot and holds the store, its entry unanswered (R143). -/
def Chip.holdAdjust (c : Chip) (s : AdjustStep) : Chip :=
  c.setStore { c.store with hold := some (.adjust s), answered := false }

/-- Steps 2 and 3 of ADJUST: the amount and its entry come together; a slot is free (R143). -/
def Chip.adjustAmount (c : Chip) (o : Order) : Chip :=
  let minute := c.eventMinute o.index
  let c1 := c.addEvent o.index o.amount minute
  c1.money (c1.entryFor o.index minute o.amount (.adjustment (c1.sub o.index).live.eventAmount))

/-- Steps 2 to 4 of ADJUST, or its wait (R143). -/
def Chip.adjustAdd (c : Chip) (o : Order) : Chip :=
  if c.moneyRoom then (c.adjustAmount o).finishOrder .done else c.holdAdjust .add

/-- Step 1 of ADJUST, the close on touch of a record in use, and what follows (R143). -/
def Chip.adjustClose (c : Chip) (o : Order) : Chip :=
  if (c.sub o.index).live.state.inUse && c.stale o.index then
    if c.moneyRoom then (c.closeOnTouch o.index (c.eventMinute o.index)).adjustAdd o
    else c.holdAdjust .close
  else c.adjustAdd o

/-- The store serves an ADJUST (R143). -/
def Chip.serveAdjust (c : Chip) (o : Order) : Chip :=
  match c.checkAdjust o with
  | some r => c.finishOrder r
  | none => c.adjustClose o

/-- An ADJUST whose waiting entry is made goes on behind that entry (R143). A cycle boundary that a pass has taken
meanwhile brings no further close on touch (log 53). -/
def Chip.resumeAdjust (c : Chip) (o : Order) (s : AdjustStep) : Chip :=
  match s with
  | .close => c.unhold.adjustAdd o
  | .add => c.unhold.finishOrder .done

/-! ### RESEND (R63) -/

/-- The checks of RESEND. -/
def Chip.checkResend (c : Chip) (o : Order) : Option OutcomeCode :=
  if 2048 ≤ o.index then some .indexRange
  else if !((c.sub o.index).live.state.inUse && (c.ownedPort o.index).isSome) then some .notInService
  else none

/-- The effect of RESEND at the owned port. -/
def Chip.resendPort (c : Chip) (o : Order) : Chip :=
  match c.ownedPort o.index with
  | some p => c.doubtPort p
  | none => c

/-! ### REPOLL (R89) -/

/-- The checks of REPOLL. -/
def Chip.checkRepoll (c : Chip) (o : Order) : Option OutcomeCode :=
  let el := c.element o.index
  if 640 ≤ o.index then some .indexRange
  else if !(el.record.inUse && 4 ≤ o.index && el.sup.state != .suppressed) then some .notInService
  else none

/-! ### ACKNOWLEDGE OUTAGE (R87) -/

/-- The record an ACKNOWLEDGE OUTAGE names. -/
def Chip.outageOf (c : Chip) (o : Order) : Option Outage :=
  c.outages.records.find? fun r => r.id.toNat == o.index

/-- The checks of ACKNOWLEDGE OUTAGE. -/
def Chip.checkAcknowledge (c : Chip) (o : Order) : Option OutcomeCode :=
  if 256 ≤ o.index then some .indexRange
  else if (c.outageOf o).isNone then some .notFound
  else none

/-- The effect of ACKNOWLEDGE OUTAGE (R87): the flag is set; a CLOSED record is freed at once and a marked object is
served with its place. -/
def Chip.acknowledgeRecord (c : Chip) (o : Order) : Chip :=
  match c.outageOf o with
  | none => c
  | some r =>
    if r.acknowledged then c
    else if r.state = .closed then (c.freeRecord r.id).serveMarked
    else c.updRecord r.id fun x => { x with acknowledged := true }

/-! ### SET CLOCK (R112) and NEXT CYCLE (R114) -/

/-- The checks of SET CLOCK, with those found during its effect: the step against the minute number. -/
def Chip.checkSetClock (c : Chip) (o : Order) : Option OutcomeCode :=
  if 59 < o.word8 ∨ o.word12 = 4294967295 then some .parameterRange
  else
    match c.clock.state, c.clock.minute with
    | .unset, _ => none
    | _, some m =>
      if o.word12 < m then some .stepBack else if m + 1440 < o.word12 then some .stepRange else none
    | _, none => none

/-- The effect of SET CLOCK. -/
def Chip.applySetClock (c : Chip) (o : Order) : Chip :=
  match c.clock.state with
  | .unset => c.setFromUnset o.word12 o.word8
  | .running => c.stepClock (o.word12 - c.clock.minute.getD 0) o.word8
  | .held => c.stepClock (o.word12 - c.clock.minute.getD 0) o.word8

/-- The checks of NEXT CYCLE. -/
def Chip.checkNextCycle (c : Chip) (o : Order) : Option OutcomeCode :=
  if c.clockUnset then some .clockUnset
  else if cycleLengthOk o.word12 then none
  else some .parameterRange

/-- The effect of NEXT CYCLE: next M, and the checkpoint is queued. -/
def Chip.applyNextCycle (c : Chip) (o : Order) : Chip :=
  (c.setClock { c.clock with cal := { c.clock.cal with nextM := o.word12 } }).queueCheckpoint

/-! ### Slots and the tail (R148, R149) -/

/-- A captured write touched the kind word of slot k: its outcome code becomes PENDING (R148). -/
def Chip.kindEvent (c : Chip) (k : Nat) : Chip :=
  c.setOrders { c.orders with outcomes := vupd c.orders.outcomes k fun r => { r with code := .pending } }

end Sys2Proof.Machine
end

