-- ==== Sys2Proof/Machine/MoneyWait.lean ====
section
/-! DEFINITION. The answer to a waiting money entry (R119, R153, R155): when a slot of the on-chip queue frees, the entry
joins at once with its effect on the live block; the producer goes on behind it at its resume command (log 31). -/

namespace Sys2Proof.Machine

/-- The waiting entry of stage 3 at purchase k: the charge of a CONFIRMED entry or the refund of a CHARGED one
(R138). -/
def Chip.answerWindow (c : Chip) (i k m : Nat) (p : Purchase) : Chip :=
  match p.state with
  | .booked => c
  | .opening => c
  | .confirmed => c.chargeAt i k p m
  | .charged => if p.refundDue then c.refundAt i k p m else c

/-- The waiting entry of a paused visit, by the point where it stands: the CYCLE TOTAL of stage 1, a charge of stage 2,
a charge or refund of stage 3, the OUTAGE CREDIT of stage 5 (R119). -/
def Chip.answerVisit (c : Chip) (i m : Nat) (pt : PausePoint) : Chip :=
  if pt.stage = 1 then c.closeIfStale i (some m)
  else if pt.stage = 2 then
    match (c.sub i).live.purchases[pt.place]? with
    | some p => if p.state = .confirmed then c.chargeAt i pt.place p m else c
    | none => c
  else if pt.stage = 3 then
    match (c.sub i).live.purchases[pt.place]? with
    | some p => c.answerWindow i pt.place m p
    | none => c
  else if pt.stage = 5 ∧ (c.sub i).live.outSince.isSome = true then c.credit i (some m)
  else c

/-- The waiting entry of a VACANT take that stands stopped (R29). -/
def Chip.answerTake (c : Chip) (i : Nat) (s : TakeStep) : Chip :=
  match s with
  | .close => c.closeIfStale i (c.eventMinute i)
  | .credit => if (c.sub i).live.outSince.isSome && c.creditDue i then c.credit i (c.eventMinute i) else c
  | .purchases =>
    match (c.sub i).live.purchases with
    | [] => c
    | p :: _ => if p.state = .confirmed then c.chargeFirst i p else c

/-- The waiting entry of an ADJUST (R143). -/
def Chip.answerAdjust (c : Chip) (o : Order) (s : AdjustStep) : Chip :=
  match s with
  | .close => if (c.sub o.index).live.state.inUse then c.closeIfStale o.index (c.eventMinute o.index) else c
  | .add => c.adjustAmount o

/-- The waiting entry of whatever holds the store: a paused pass, a take, an ADJUST (R153). -/
def Chip.answerHeld (c : Chip) : Chip :=
  if c.pass.state = .paused then
    match c.pass.point with
    | some pt => c.answerVisit c.pass.cursor (c.pass.minute.getD 0) pt
    | none => c
  else
    match c.store.hold with
    | some (.take i s) => c.answerTake i s
    | some (.adjust s) =>
      match c.workOf kindAdjust with
      | some o => c.answerAdjust o s
      | none => c
    | none => c

/-- The waiting money entry joins when a slot is free (R153). -/
def Chip.answerMoney (c : Chip) : Chip :=
  if c.moneyWaiting && c.moneyRoom then c.answerHeld.setAnswered true else c

end Sys2Proof.Machine
end

