-- ==== Sys2Proof/Machine/PlantTakes.lean ====
section
/-! DEFINITION. The plant take (R68 to R72). -/

namespace Sys2Proof.Machine

/-! ### The checks (R69) -/

/-- The elements as they would stand under the mirror's records. -/
def Chip.mirrorElements (c : Chip) : Vector Element 640 :=
  Vector.ofFn fun e => { c.element e with record := mirrorElement c.plant.mirror e }

/-- The element indices 4 to 639. -/
def units : List Nat := (List.range 640).filter (4 ≤ ·)

/-- Check 1: element e is in use and of kind BRANCH in the mirror. -/
def rootOk (m : Memory) (e : Nat) : Bool := (mirrorElement m e).inUse && mirrorKind m e == 1

/-- Check 2 at element e. -/
def kindOk (m : Memory) (e : Nat) : Bool :=
  let r := mirrorElement m e
  !r.inUse || (2 ≤ mirrorKind m e && mirrorKind m e ≤ 4 && (mirrorKind m e != 3 || r.trigger < r.arm))

/-- Check 3 at element e. -/
def parentOk (m : Memory) (e : Nat) : Bool :=
  let r := mirrorElement m e
  !r.inUse || (r.parent < e && (mirrorElement m r.parent).inUse && mirrorKind m r.parent != 4)

/-- Check 4 at element e of the table the mirror gives. -/
def addressOk (es : Vector Element 640) (e : Nat) : Bool :=
  let r := (vget es e).record
  !r.inUse
    || (1 ≤ r.address && r.address ≤ 1023
        && units.all fun x =>
          x == e || !(vget es x).record.inUse || (vget es x).record.address != r.address
            || rootFrom es x != rootFrom es e)

/-- Check 5 at element e: if it has an owned port it is an in-use TAP in the mirror. -/
def Chip.ownedOk (c : Chip) (e : Nat) : Bool :=
  !((List.range 4).any fun k => (c.port (e * 4 + k)).owner.isSome)
    || ((mirrorElement c.plant.mirror e).inUse && mirrorKind c.plant.mirror e == 4)

/-- The first failure's code (R69). -/
def Chip.checkPlant (c : Chip) : Option OutcomeCode :=
  let m := c.plant.mirror
  if !(List.range 4).all (rootOk m) then some .rootKind
  else if !units.all (kindOk m) then some .elementKind
  else if !units.all (parentOk m) then some .parent
  else if !units.all (addressOk c.mirrorElements) then some .address
  else if !(List.range 640).all c.ownedOk then some .plantInUse
  else none

/-! ### Classes (R71 step 1) -/

/-- The class of an element at a take; `absent` is in use in neither table. -/
inductive Class where
  | absent | unchanged | changed | added | removed
  deriving DecidableEq, Repr

/-- Class element e by its old and new records, with the branch of each; roots are compared like the others
(log 23). -/
def classOf (old new : Vector Element 640) (e : Nat) : Class :=
  let a := (vget old e).record
  let b := (vget new e).record
  match a.inUse, b.inUse with
  | false, false => .absent
  | false, true => .added
  | true, false => .removed
  | true, true =>
    if a.kind = b.kind ∧ a.parent = b.parent ∧ a.address = b.address ∧ rootFrom old e = rootFrom new e then .unchanged
    else .changed

/-- Is the element's record or branch other than before, or gone: changed or removed? -/
def Class.lost (k : Class) : Bool := k == .changed || k == .removed

/-- Does the element start afresh: changed or new? -/
def Class.fresh (k : Class) : Bool := k == .changed || k == .added

/-! ### The steps of the take (R71) -/

/-- Step 3 at element e: clear its unrecorded mark, then withdraw its OPEN or COVERED record (log 50). -/
def Chip.withdraw (c : Chip) (e : Nat) : Chip :=
  (c.setMark .plant e none).closeOf .plant e (fun s => s == .opened || s == .covered) .withdrawn

/-- Step 4 at element e: a fresh supervision record and nothing heard from its unit for a changed, new or removed
element, its load-doubt flag cleared as well (log 48); cleared level counts for an unchanged amplifier whose levels
changed. -/
def Chip.resetElement (c : Chip) (k : Class) (old new : ElementRecord) (e : Nat) : Chip :=
  if k.fresh || k == .removed then
    c.updElement e fun el => { el with sup := SupRecord.fresh, heard := none, doubt := false }
  else if k == .unchanged && new.kind == .amplifier && (old.arm != new.arm || old.trigger != new.trigger) then
    c.updSup e fun r => { r with low := 0, high := 0 }
  else c

/-- Step 5 at element e: suppression follows the FAILING ancestors of the new table. -/
def Chip.resuppress (c : Chip) (e : Nat) : Chip :=
  let el := c.element e
  if el.record.inUse = false then c
  else if c.failingAbove e then (if el.sup.state = .suppressed then c else c.suppress e)
  else if el.sup.state = .suppressed then c.updSup e fun _ => SupRecord.fresh
  else c

/-- Step 6, lists: a removed or moved element leaves its list; one that has become UNVERIFIED joins its branch's list.
`was` is the element before the take. -/
def Chip.relist (c : Chip) (k : Class) (moved : Bool) (was : Supervision) (e : Nat) : Chip :=
  let c1 := if k = .removed ∨ moved = true then c.offRepoll e else c
  let el := c1.element e
  if 4 ≤ e ∧ el.record.inUse = true ∧ el.sup.state = .unverified ∧ (k.fresh = true ∨ was = .suppressed)
  then c1.repollAppend e else c1

/-- Step 6, ports: park those of an element that became UNVERIFIED or SUPPRESSED, or is no in-use TAP. -/
def Chip.repark (c : Chip) (e : Nat) : Chip := if c.loadable e then c else c.parkElement e

/-- Step 6, exchanges: an exchange on an element that is not unchanged is cut short and its result discarded; a
PORT LOAD port stays PARKED with its applied state unconfirmed (R61, R62). -/
def Chip.cutExchange (c : Chip) (cls : Nat → Class) (b : Nat) : Chip :=
  match (c.branch b).hold with
  | none => c
  | some x =>
    if x.discard || cls x.element == .unchanged then c
    else
      let c1 := c.updBranch b fun r => { r with hold := some { x with last := true, discard := true } }
      match x.port with
      | some p =>
        (c1.updPort p fun r => { r with condition := .parked, confirmed := false, sent := none }).copySummary p
      | none => c1

/-- A plant take that has passed its checks (R71), and the carrier states handed to the roots it made UNVERIFIED
(R60). Every step takes the elements in index order (log 50). -/
def Chip.takePlant (c : Chip) : Chip :=
  let old := c.elements
  let new := c.mirrorElements
  let cls := classOf old new
  let moved := fun e => cls e == .changed && rootFrom old e != rootFrom new e
  let c2 := (c.setElements new).setPlant
    { c.plant with gen := some (takeWord c.plant.mirror), outcome := .done }
  let c3 := forIndices 640 (fun c e => if (cls e).lost then c.withdraw e else c) c2
  let c4 := forIndices 640 (fun c e => c.resetElement (cls e) (vget old e).record (vget new e).record e) c3
  let c5 := forIndices 640 Chip.resuppress c4
  let c6 := forIndices 640 (fun c e => c.relist (cls e) (moved e) (vget old e).sup.state e) c5
  let c7 := forIndices 4 (fun c b => c.cutExchange cls b) (forIndices 640 Chip.repark c6)
  if c7.running then c7.handCarriers else c7

/-- Show an outcome in the plant outcome word. -/
def Chip.plantOutcome (c : Chip) (o : OutcomeCode) : Chip := c.setPlant { c.plant with outcome := o }

/-- Check the mirror and take it or refuse it (R69, R70). -/
def Chip.tryPlant (c : Chip) : Chip :=
  match c.checkPlant with
  | some o => c.plantOutcome o
  | none => c.takePlant

/-- A captured write touched the plant take word (R68). -/
def Chip.plantEvent (c : Chip) : Chip :=
  if c.takesRequests c.plant.gen && newGeneration c.plant.mirror c.plant.gen then c.tryPlant else c

end Sys2Proof.Machine
end

