-- ==== Sys2Proof/Machine/Fill.lean ====
section
/-! DEFINITION. The fill (R181 to R185, R38): its stages, what its reads deliver, its checks, the rebuild and its end. -/

namespace Sys2Proof.Machine

/-! ### Stages (R181) -/

/-- Bursts of four words in n bytes. -/
def burstsOf (n : Nat) : Nat := n / 16

/-- The fill reads of a stage (R181; the block's 70 bytes take five bursts, log 20). -/
def Chip.stageReads (c : Chip) : FillStage → Nat
  | .none => 0
  | .configBlock => 5
  | .checkpoint => 2
  | .plant => burstsOf 5136
  | .lineUp => burstsOf 1184
  | .subscriber => burstsOf 262144
  | .orderRing => burstsOf (32 * c.config.orderCapacity) + 1

/-- The byte address of fill read k of a stage; the last read of ORDER RING holds the order tail word. -/
def Chip.stageAddr (c : Chip) (g : FillStage) (k : Nat) : Nat :=
  match g with
  | .none => 0
  | .configBlock => c.configBase + 16 * k
  | .checkpoint => c.configBase + 128 + 16 * k
  | .plant => c.config.plant.base + 16 * k
  | .lineUp => c.config.lineUp.base + 16 * k
  | .subscriber => c.config.subscriber.base + 16 * k
  | .orderRing =>
    if k < burstsOf (32 * c.config.orderCapacity) then c.config.orderRing.base + 16 * k else c.config.status.base

/-- Fill reads the stage under way still offers (R181). -/
def Chip.fillReads (c : Chip) : Nat :=
  if c.part.state = .fill then c.stageReads c.part.stage - c.part.fillNext else 0

/-! ### Delivery (R183) -/

/-- Is the byte at an address valid-marked? -/
def Chip.marked (c : Chip) (a : Nat) : Bool := Memory.read c.part.marks a == 1

/-- Deliver the 16 bytes of the burst at offset `off` of a region to its mirror, except outcome bytes and bytes that
are valid-marked (R183). -/
def Chip.deliverTo (c : Chip) (array mirror : Memory) (base off : Nat) (owned : Nat → Bool) : Memory :=
  forIndices 16 (fun m j =>
    if owned (off + j) || c.marked (base + off + j) then m
    else Memory.write m (off + j) (Memory.read array (base + off + j))) mirror

/-- The outcome word of a LINE-UP or PLANT region (11.5). -/
def headerOutcome (off : Nat) : Bool := 4 ≤ off && off < 8

/-- The outcome word of an order slot (11.6). -/
def slotOutcomeByte (off : Nat) : Bool := 28 ≤ off % 32

/-- Record i is filled: its live block is what the fill read (R38), an unknown purchase state in it marking it dirty
(R188); a queued request shows PENDING (R24; log 43). -/
def Chip.fillRecord (c : Chip) (array : Memory) (i : Nat) : Chip :=
  let a := c.config.subscriber.base + 128 * i + 32
  let queued := c.store.queue.contains i
  c.updSub i fun r =>
    { r with
      live := if queued then { liveAt array a with outcome := .pending } else liveAt array a
      dirty := queued || purchasesOdd array (a + 32)
      filled := true
      oddState := oddStateAt array a }

/-- The order tail the fill reads: bytes the host wrote during FILL are kept (R183, R185). -/
def Chip.tailRead (c : Chip) (array : Memory) : Half :=
  let a := c.config.status.base
  BitVec.ofNat 16
    ((if c.marked a then c.orders.tail.toNat % 256 else (Memory.read array a).toNat)
      + 256 * (if c.marked (a + 1) then c.orders.tail.toNat / 256 else (Memory.read array (a + 1)).toNat))

/-- Deliver fill read k of the stage under way (R181, R183). -/
def Chip.deliver (c : Chip) (array : Memory) (k : Nat) : Chip :=
  match c.part.stage with
  | .none => c
  | .configBlock => c
  | .checkpoint => c
  | .plant => c.setPlant
      { c.plant with mirror := c.deliverTo array c.plant.mirror c.config.plant.base (16 * k) headerOutcome }
  | .lineUp => c.setLineUp
      { c.lineUp with mirror := c.deliverTo array c.lineUp.mirror c.config.lineUp.base (16 * k) headerOutcome }
  | .subscriber =>
    if k % 8 < 2 then c.setStore
      { c.store with
        mirror := c.deliverTo array c.store.mirror c.config.subscriber.base (16 * k) fun _ => false }
    else if k % 8 = 7 then c.fillRecord array (k / 8)
    else c
  | .orderRing =>
    if k < burstsOf (32 * c.config.orderCapacity) then c.setOrders
      { c.orders with
        mirror := c.deliverTo array c.orders.mirror c.config.orderRing.base (16 * k) slotOutcomeByte }
    else c.setOrders { c.orders with tail := c.tailRead array }

/-! ### Configuration checks (R182) -/

/-- The six regions with their required sizes (R182 check 3). -/
def ConfigValues.sized (v : ConfigValues) : List (Span × Nat) :=
  [(v.status, 9216), (v.subscriber, 262144), (v.lineUp, 1184), (v.plant, 5136),
   (v.orderRing, 32 * v.orderCapacity), (v.journalRing, 32 * v.journalCapacity)]

/-- Do two regions share a byte? -/
def Span.meets (a b : Span) : Bool := a.base < b.base + b.size && b.base < a.base + a.size && 0 < a.size && 0 < b.size

/-- Does some pair of a list of regions share a byte? -/
def anyMeet : List Span → Bool
  | [] => false
  | a :: l => l.any a.meets || anyMeet l

/-- Is n a power of two from lo to hi, hi at most 4,096? -/
def powerIn (lo hi n : Nat) : Bool := lo ≤ n && n ≤ hi && (List.range 13).any fun k => 2 ^ k == n

/-- Checks 1 to 5 (R182). -/
def ConfigValues.checkMap (v : ConfigValues) (configBase : Nat) : FaultCode :=
  if v.format ≠ 3 then .format
  else if !v.sized.all fun r => r.1.base % 64 == 0 && r.1.base + r.1.size ≤ Config.arrayBytes then .regionPlace
  else if !v.sized.all fun r => r.1.size == r.2 then .regionSize
  else if anyMeet ({ base := configBase, size := 256 } :: v.sized.map (·.1)) then .overlap
  else if !(powerIn 16 256 v.orderCapacity && powerIn 64 4096 v.journalCapacity) then .ringSize
  else .none

/-- Check 6 (R182). -/
def ConfigValues.calendarOk (v : ConfigValues) : Bool :=
  cycleLengthOk v.initialM && 1 ≤ v.creditThreshold && v.creditThreshold ≤ 1440

/-- The fill stops with a fault code; the valid marks are cleared (R183, R186). -/
def Chip.configFault (c : Chip) (f : FaultCode) : Chip :=
  c.setPart { c.part with state := .configFault, fault := f, marks := [] }

/-- The next stage's reads are offered (R181). -/
def Chip.nextStage (c : Chip) (g : FillStage) : Chip := c.setPart { c.part with stage := g, fillNext := 0 }

/-- The end of CONFIG BLOCK: checks 1 to 6, the map in force after check 5 (R182). -/
def Chip.endConfigBlock (c : Chip) (array : Memory) : Chip :=
  let v := configAt array c.configBase
  match v.checkMap c.configBase with
  | .none =>
    let c1 := c.setPart { c.part with config := some v, mapInForce := true }
    if v.calendarOk then c1.nextStage .checkpoint else c1.configFault .calendar
  | f => c.configFault f

/-! ### The checkpoint (R184) -/

/-- The calendar a checkpoint gives, or the configuration block when it is blank (R184). -/
def CheckpointFields.calendar (f : CheckpointFields) (v : ConfigValues) : Calendar :=
  if f.blank then { cycle := v.initialCycle, start := v.initialStart, m := v.initialM, nextM := v.initialM }
  else { cycle := f.cycle, start := f.start, m := f.m, nextM := f.nextM }

/-- The journal head and tail a checkpoint gives (R184). -/
def CheckpointFields.indices (f : CheckpointFields) (v : ConfigValues) : Half × Half :=
  if f.blank then (0, 0)
  else if (f.tail - f.head).toNat ≤ v.journalCapacity then (f.head, f.tail)
  else (f.tail, f.tail)

/-- The end of CHECKPOINT (R184). -/
def Chip.endCheckpoint (c : Chip) (array : Memory) : Chip :=
  let a := c.configBase + 128
  let f := checkpointAt array a
  let c1 := c.setClock { c.clock with cal := f.calendar c.config }
  (c1.setPart
    { c1.part with
      startView := Memory.bytes array a 32, startBlank := f.blank
      heldHead := (f.indices c.config).1, heldTail := (f.indices c.config).2 }).nextStage .plant

/-! ### Automatic takes (R72, R11) -/

/-- The end of PLANT: the automatic take, check 7 (R72, R182). -/
def Chip.endPlant (c : Chip) : Chip :=
  let c1 := c.tryPlant
  if c1.plant.gen.isSome then c1.nextStage .lineUp else c1.configFault .plantTake

/-- The end of LINE-UP: the automatic take, check 8 (R11, R182). -/
def Chip.endLineUp (c : Chip) : Chip :=
  let c1 := c.tryLineUp
  if c1.lineUp.gen.isSome then c1.nextStage .subscriber else c1.configFault .lineUpTake

/-! ### Rebuild (R38) -/

/-- A record of unknown state code is taken as FREE and marked dirty (R38). -/
def Chip.rebuildState (c : Chip) (i : Nat) : Chip :=
  if (c.sub i).oddState.isSome then
    c.updSub i fun r => { r with live := r.live.asFree, dirty := true, oddState := none }
  else c

/-- The taken intent of record i: the mirror, with the applied tier set and live zone where the revisions differ; such
a record is queued (R38). -/
def Chip.rebuildIntent (c : Chip) (i : Nat) : Chip :=
  let t := c.intent i
  let l := (c.sub i).live
  if t.revision = l.takenRev then c.updSub i fun r => { r with taken := t }
  else
    (c.updSub i fun r =>
      { r with taken := { t with tiers := l.appliedTiers, zone := (l.owned.map (·.zone)).getD t.zone } }).queueTake i

/-- Can record i claim the port its live block records: an in-use TAP of the plant, claimed by none before (R38)? -/
def Chip.claimOk (c : Chip) (o : Owned) : Bool := c.isTap o.element && (c.port o.number).owner.isNone

/-- The claim of record i (R38). A failed claim leaves it without a port, dirty and queued. FREE and FINAL records
claim nothing and own nothing; a record in use whose block records no owned port makes no claim and is not queued
(log 47). -/
def Chip.rebuildClaim (c : Chip) (i : Nat) : Chip :=
  let l := (c.sub i).live
  match l.owned with
  | none => c
  | some o =>
    if !l.state.inUse then c.updLive i fun l => { l with owned := none }
    else if c.claimOk o then c.setOwner o.number (some i)
    else ((c.updLive i fun l => { l with owned := none }).markDirty i).queueTake i

/-- Port p built from its owner: applied as the owner's summary with every position jammed, unconfirmed, PARKED, and
desired by R33 (R38). -/
def Chip.rebuildPort (c : Chip) (p : Nat) : Chip :=
  let d := c.desiredOf p
  let a := match (c.port p).owner with
    | some i =>
      if (c.sub i).live.appliedOn then PortState.on (c.sub i).live.appliedTiers (BitVec.allOnes 64) else .off
    | none => .off
  (c.updPort p fun r =>
    { r with
      desired := d, applied := a, confirmed := false, sent := none, mismatch := 0, condition := .parked }).copySummary p

/-- The applied port summary of a record without a port is OFF (R125; log 25). -/
def Chip.rebuildSummary (c : Chip) (i : Nat) : Chip :=
  if (c.sub i).live.owned.isNone then c.dropSummary i else c

/-- The rebuild of record i (R38). -/
def Chip.rebuildRecord (c : Chip) (i : Nat) : Chip :=
  (((c.rebuildState i).rebuildIntent i).rebuildClaim i).rebuildSummary i

/-- The rebuild at the end of SUBSCRIBER: records in index order, then ports in port order (R38). -/
def Chip.rebuild (c : Chip) : Chip :=
  let c1 := forIndices 2048 Chip.rebuildRecord c
  forIndices 2560 Chip.rebuildPort c1

/-! ### The end of the fill (R185) -/

/-- The fill ends and the part enters RUNNING (R185): the desired states are computed against the line-up now in force,
which a take of the last stage may have changed (R6, R34), and the carrier states in force are handed on (R60). -/
def Chip.endFill (c : Chip) : Chip :=
  let c1 := c.setOrders
    { c.orders with head := c.orders.tail, outcomes := Vector.replicate 256 { code := .notTaken, index := 0 } }
  let c2 := c1.setJournal { c1.journal with head := c1.part.heldHead, tail := c1.part.heldTail }
  let c3 := forIndices 2560 Chip.recompute c2
  (c3.setPart { c3.part with state := .running, stage := .none, fillNext := 0, marks := [] }).handCarriers

/-- The end of the stage under way (R181). -/
def Chip.endStage (c : Chip) (array : Memory) : Chip :=
  match c.part.stage with
  | .none => c
  | .configBlock => c.endConfigBlock array
  | .checkpoint => c.endCheckpoint array
  | .plant => c.endPlant
  | .lineUp => c.endLineUp
  | .subscriber => c.rebuild.nextStage .orderRing
  | .orderRing => c.endFill

/-- Deliver n fill reads, and end the stage when its last has been delivered (R181). -/
def Chip.deliverReads (c : Chip) (array : Memory) (n : Nat) : Chip :=
  if n = 0 ∨ c.part.state ≠ .fill then c
  else
    let c1 := forIndices n (fun d k => d.deliver array (c.part.fillNext + k)) c
    let c2 := c1.setPart { c1.part with fillNext := c.part.fillNext + n }
    if c2.fillReads = 0 then c2.endStage array else c2

/-! ### Resets (R177, R179, R187 and the blocks' reset tables) -/

/-- The carrier input pins keep their level through a reset; the timers are restarted (R65). -/
def keepInputs (old new : Vector Branch 4) : Vector Branch 4 :=
  Vector.ofFn fun b =>
    { vget new b with input := (vget old b).input, timing := timerFor .unsettled (vget old b).input }

/-- Every block at its power-on value, the carrier pins and the model's counter of free values kept (R179, R180). -/
def Chip.hardReset (c : Chip) (strap : BitVec 4) (cause : ResetCause) : Chip :=
  let d := Chip.reset strap cause
  (d.setBranches (keepInputs c.branches d.branches)).setDrawn c.drawn

/-- The part enters FILL at the CONFIG BLOCK stage (R179). -/
def Part.enterFill (p : Part) (cause : ResetCause) : Part :=
  { p with state := .fill, fault := .none, stage := .configBlock, cause := cause, fillNext := 0 }

/-- A burst in progress when the part stops watching goes on unwatched, like a blind one, to its end: its words pass, its
captures make no event, and a candidate it has transferred passes to the array at its end (R166, R168; log 56). -/
def Burst.unwatched (b : Burst) : Burst := { b with blind := true }

/-- The blocks reset by the RESET pin (R179, R180); the controller's burst in progress goes on, its words passing
unchanged in AWAIT MODE (R168; log 56). -/
def Chip.pinReset (c : Chip) (strap : BitVec 4) : Chip :=
  (c.hardReset strap .pin).setPath { MemPath.reset with burst := c.path.burst.map Burst.unwatched }

/-- Entering TRANSPARENT (R166 and the reset tables): the bank table, memory state, CAS latency, counts and the last
protected write stay (R177; log 33), a burst in progress goes on unwatched (log 56); every other block stands at its
power-on value, ready for the recovery (R179; log 37); the carriers are not timed (R65). -/
def Chip.enterTransparent (c : Chip) : Chip :=
  let d := c.hardReset c.part.strap c.part.cause
  let d1 := d.setPart
    { d.part with state := .transparent, fault := c.part.fault, cfgsel := c.part.cfgsel }
  let d2 := d1.setPath { c.path with mark := none, burst := c.path.burst.map Burst.unwatched }
  let d3 := d2.setEngine { d2.engine with count := c.engine.count }
  d3.setBranches (d3.branches.map fun b => { b with timing := .stopped })

/-- Recovery from TRANSPARENT by a valid MODE SET: the full start-up begins (R165, R179); the carrier timers restart. -/
def Chip.recover (c : Chip) : Chip :=
  (c.setPart (c.part.enterFill .modeRecovery)).setBranches (keepInputs c.branches c.branches)

/-- A config retake from CONFIG FAULT (R186): memory state and CAS latency stay (R177), CFGSEL is sampled. -/
def Chip.retake (c : Chip) : Chip :=
  let d := c.hardReset c.part.strap .configRetake
  (d.setPart (d.part.enterFill .configRetake)).setPath { MemPath.reset with mem := c.path.mem, cas := c.path.cas }

end Sys2Proof.Machine
end

