-- ==== Sys2Proof/Machine/RackLink.lean ====
section
/-! DEFINITION. The end of a rack exchange (R94 to R96, R102, R103). -/

namespace Sys2Proof.Machine

/-- The source a CROSSPOINT REPLY reports: 32 or above is NOTHING (R97). -/
def reportedSource (v : Byte) : Option Nat := if v.toNat < 32 then some v.toNat else none

/-- Settle position q after an answered CROSSPOINT SET of source s (R102). DESIGN CHOICE (unsafe): a third mismatch makes
the position STUCK by the table of R102 also where the reply reports its present effective source (log 67). -/
def Chip.settlePoint (c : Chip) (q s : Nat) (reported : Option Nat) : Chip :=
  let n := min 3 ((c.point q).mismatch + 1)
  let c1 := c.updPoint q fun r => { r with confirmed := confirmedOf reported }
  if reported = some s then (c1.clearMismatch q).testPoint q
  else if (c.channel q).used = false then (c1.clearMismatch q).idlePoint q
  else
    let c2 := c1.updPoint q fun r => { r with mismatch := n }
    if n < 3 then c2.testPoint q
    else (c2.updPoint q fun r => { r with condition := .stuck }).noticeOf q (.crosspointStuck s reported)

/-- A CROSSPOINT SET of position q ends unanswered (R103). -/
def Chip.loseSet (c : Chip) (q : Nat) : Chip :=
  let c1 := c.updPoint q fun r => { r with confirmed := .unknown }
  let c2 := c1.setRack { c1.rack with owed := true }
  if (c2.channel q).used then c2.markPoint q else c2.idlePoint q

/-- The four level samples of a group, in ascending source index (R96, R103). -/
def Chip.sampleGroup (c : Chip) (g : Nat) (reply : Option (List Byte)) : Chip :=
  forIndices 4 (fun c k =>
    match reply with
    | some pl => c.sampleSource (4 * g + k) (payloadByte pl (k + 1)) false
    | none => c.sampleSource (4 * g + k) 0 true) c

/-- The rack exchange ends, answered with a payload or unanswered (R96). -/
def Chip.endRack (c : Chip) (reply : Option (List Byte)) : Chip :=
  match c.rack.hold with
  | none => c
  | some x =>
    let c1 := c.setRack
      { c.rack with
        exchanges := c.rack.exchanges + 1
        unanswered := if reply.isSome then c.rack.unanswered else c.rack.unanswered + 1 }
    let c2 := match x.job with
      | .set q s =>
        match reply with
        | some pl => c1.settlePoint q s (reportedSource (payloadByte pl 1))
        | none => c1.loseSet q
      | .query g => c1.sampleGroup g reply
    (c2.setRack { c2.rack with hold := none }).armRack

/-- Is a received frame a valid reply to the rack exchange (R95)? -/
def RackExchange.accepts (x : RackExchange) (f : Frame) : Bool :=
  match x.job with
  | .set q _ => f.fits routerAddress crosspointReply 2 && (payloadByte f.payload 0).toNat == q
  | .query g => f.fits routerAddress groupReply 5 && (payloadByte f.payload 0).toNat == g

/-- Bytes received on the rack link in a reply window (R95). -/
def Chip.rackReceives (c : Chip) (bytes : List Byte) : Chip :=
  match c.rack.hold with
  | none => c
  | some x =>
    let r := scanFrames x.accepts 0 bytes
    let c1 := c.setRack { c.rack with rejected := c.rack.rejected + BitVec.ofNat 32 r.1 }
    match r.2 with
    | some f => c1.endRack (some f.payload)
    | none => c1

/-- The rack reply window closes without a valid reply (R94). -/
def Chip.rackWindowCloses (c : Chip) : Chip :=
  match c.rack.hold with
  | none => c
  | some x =>
    if x.attempt < 3 then
      c.setRack { c.rack with link := .sending, hold := some { x with attempt := x.attempt + 1 } }
    else c.endRack none

end Sys2Proof.Machine
end

