-- ==== Sys2Proof/Machine/Engine.lean ====
section
/-! DEFINITION. The Tenure Engine (R172 to R174, R180), and what every operation of the part ends with: the selections,
the taking of the next order and the bus request that it made possible. -/

namespace Sys2Proof.Machine

/-! ### Requests (R172) -/

/-- Is a transfer pending (R172)? -/
def Chip.transferPending (c : Chip) : Bool :=
  0 < c.fillReads || 0 < c.journalOffer || c.engine.checkpoint.isSome || c.store.copy.isSome

/-- Is the part in FILL or RUNNING? -/
def Chip.active (c : Chip) : Bool := c.part.state == .fill || c.part.state == .running

/-- An IDLE engine requests the bus when a transfer is pending, the part is in FILL or RUNNING and the memory state is
NORMAL (R172). -/
def Chip.requestBus (c : Chip) : Chip :=
  if c.engine.request = .idle ∧ c.transferPending = true ∧ c.active = true ∧ c.path.mem = .normal then
    c.setEngine { c.engine with request := .requesting }
  else c

/-- What follows every operation at once: the links and the Order Taker select (R41, R93, R150), and the engine
requests the bus (R172). -/
def Chip.settle (c : Chip) : Chip := (c.armBranches.armRack.armOrders).requestBus

/-- An operation of the part, with what follows it at once. -/
def State.act (s : State) (f : Chip → Chip) : State := s.onChip fun c => (f c).settle

/-- An operation that is made only where the part stands ready for it; elsewhere nothing changes (log 2). -/
def State.actIf (s : State) (ready : Chip → Bool) (f : Chip → Chip) : State := if ready s.chip then s.act f else s

/-! ### Composition (R173) -/

/-- The fill reads, journal entries, checkpoint and write-back that fit into 16 bursts, class by class (R173). -/
def Chip.compose (c : Chip) : Tenure :=
  let reads := min c.fillReads Config.tenureBursts
  let room := Config.tenureBursts - reads
  let entries := min c.journalOffer (room / 2)
  let room2 := room - 2 * entries
  let takeCheckpoint := c.engine.checkpoint.isSome && 2 ≤ room2
  let room3 := if takeCheckpoint then room2 - 2 else room2
  { fillReads := reads, entries := entries
    checkpoint := if takeCheckpoint then c.engine.checkpoint.map fun k => (k, c.journal.head, c.journal.tail) else none
    writeBack := c.store.copy.isSome && 6 ≤ room3 }

/-- BUSGNT at a REQUESTING engine: HOLDING, with the tenure composed and its journal entries WRITING (R155, R173). -/
def Chip.grant (c : Chip) : Chip :=
  let t := c.compose
  let c1 := c.setJournal { c.journal with queue := handEntries c.journal.tail t.entries 0 c.journal.queue }
  c1.setEngine
    { c1.engine with
      request := .holding, tenure := some t
      checkpoint := if t.checkpoint.isSome then none else c1.engine.checkpoint }

/-! ### The transfers (R174) -/

/-- One transfer: the addresses of its bursts, whether it writes, and the bytes it writes from its first address. -/
structure Transfer where
  writing : Bool
  addr : Nat
  bursts : Nat
  bytes : List Byte
  deriving DecidableEq, Repr

/-- The transfers of a tenure in the order taken (R173). -/
def Chip.transfers (c : Chip) (t : Tenure) : List Transfer :=
  ((List.range t.fillReads).map fun k =>
      { writing := false, addr := c.stageAddr c.part.stage (c.part.fillNext + k), bursts := 1, bytes := [] })
    ++ ((c.journal.queue.take t.entries).map fun q =>
      { writing := true, addr := c.ringAddr q.ring, bursts := 2, bytes := q.entry.bytes q.ring })
    ++ (match t.checkpoint with
      | some (k, head, tail) =>
        [{ writing := true, addr := c.configBase + 128, bursts := 2, bytes := k.bytes head tail }]
      | none => [])
    ++ (match t.writeBack, c.store.copy with
      | true, some (i, l) =>
        [{ writing := true, addr := c.config.subscriber.base + 128 * i + 32, bursts := 6, bytes := l.bytes }]
      | _, _ => [])

/-- The array after the writes of some transfers. -/
def applyTransfers (m : Memory) (l : List Transfer) : Memory :=
  l.foldl (fun m t => if t.writing then Memory.writeBytes m t.addr t.bytes else m) m

/-- The bank and the row of a byte address (R162). -/
def bankOf (a : Nat) : Nat := a / 2048 % 4
def rowOf (a : Nat) : Nat := a / 8192

/-- What opens the row of a byte address when the banks hold the rows given (R174; log 40). -/
def openFor (rows : Vector (Option Nat) 4) (a : Nat) : List ArrayCmd :=
  match vget rows (bankOf a) with
  | none => [.activate (bankOf a) (rowOf a)]
  | some r => if r = rowOf a then [] else [.precharge (bankOf a), .activate (bankOf a) (rowOf a)]

/-- The commands of a list of bursts, each by its direction and first address, the rows it needs activated (R174). -/
def burstCommands : Vector (Option Nat) 4 → List (Bool × Nat) → List ArrayCmd
  | _, [] => []
  | rows, (w, a) :: l =>
    openFor rows a ++ .burst w a :: burstCommands (vupd rows (bankOf a) fun _ => some (rowOf a)) l

/-- The bursts of a transfer, by direction and first address. -/
def Transfer.burstList (t : Transfer) : List (Bool × Nat) :=
  (List.range t.bursts).map fun k => (t.writing, t.addr + 16 * k)

/-- The commands of a tenure on the array side: PRECHARGE ALL, its bursts with the ACTIVATEs they need, PRECHARGE ALL
(R174; log 40). -/
def tenureCommands (l : List Transfer) : List ArrayCmd :=
  .prechargeAll :: (burstCommands (Vector.replicate 4 none) (l.flatMap Transfer.burstList) ++ [.prechargeAll])

/-! ### Completion (R155, R174) -/

/-- The n oldest entries leave the queue and the tail rises by their number (R155). -/
def Chip.dropWritten (c : Chip) (n : Nat) : Chip :=
  c.setJournal { c.journal with queue := c.journal.queue.drop n, tail := c.journal.tail + BitVec.ofNat 16 n }

/-- The entries written leave the queue, a waiting money entry joins at once, and the CLOSING records whose notices were
among the entries become CLOSED (R86, R153, R155). A tenure that wrote none frees no slot. DESIGN CHOICE (unsafe): of
several such records each becomes CLOSED, with all that follows, before the next, in the order of their notices in the
queue (log 61). -/
def Chip.entriesWritten (c : Chip) (n : Nat) : Chip :=
  if n = 0 then c
  else (c.journal.queue.take n).foldl (fun c q => c.noticeWritten q.entry) (c.dropWritten n).answerMoney

/-- The write-back copy is released and the cursor moves on (R36). -/
def Chip.copyWritten (c : Chip) : Chip := (c.setStore { c.store with copy := none }).moveCursor

/-- A tenure completes at its owners (R174). -/
def Chip.complete (c : Chip) (t : Tenure) (array : Memory) : Chip :=
  let c1 := c.setPath { c.path with banks := Vector.replicate 4 none }
  let c2 := c1.setEngine { c1.engine with request := .idle, tenure := none, count := c1.engine.count + 1 }
  let c3 := c2.entriesWritten t.entries
  (if t.writeBack then c3.copyWritten else c3).deliverReads array t.fillReads

/-- The tenure is carried out and completes (R174). -/
def State.endTenure (s : State) (t : Tenure) : State :=
  let l := s.chip.transfers t
  let array := applyTransfers s.array l
  { s with
    chip := (s.chip.complete t array).settle
    array := array
    lines := { s.lines with arrayCmds := tenureCommands l } }

/-- The array and the lines when RESET cuts a tenure short after `begun` transfers (R180; log 32). -/
def State.cutTenure (s : State) (t : Tenure) (begun : Nat) : State :=
  let l := (s.chip.transfers t).take begun
  { s with array := applyTransfers s.array l, lines := { s.lines with arrayCmds := tenureCommands l } }

end Sys2Proof.Machine
end

