-- ==== Sys2Proof/Machine/Views.lean ====
section
/-! DEFINITION. What the host reads: the merged words (R19, R22, R64, R67, R90, R107, R123, R148, R158, R176, R178) in
the layouts of 11.2 to 11.6. -/

namespace Sys2Proof.Machine

/-- A number as a word. -/
def num (n : Nat) : Word := BitVec.ofNat 32 n

/-- A word of four bytes, least significant first. -/
def packWord (b0 b1 b2 b3 : Nat) : Word := num (b0 % 256 + 256 * (b1 % 256) + 65536 * (b2 % 256) + 16777216 * (b3 % 256))

/-- Word k of a list of items; a word that carries no item reads 0 (R171). -/
def item (l : List Word) (k : Nat) : Word := l.getD k 0

/-- The 32-bit word at a byte offset of a list of bytes. -/
def wordAt (bs : List Byte) (off : Nat) : Word := wordOfBytes ((bs.drop off).take 4)

/-! ### Outcome words -/

/-- Part state, fault code, fill stage and reset cause (R178, 11.2). -/
def Part.word (p : Part) : Word := packWord p.state.code p.fault.code p.stage.code p.cause.code

/-- An outcome word of a LINE-UP or PLANT header: code, in force, generation (R2, R67, 11.5). -/
def headerWord (o : OutcomeCode) (gen : Option Half) : Word :=
  packWord o.byte.toNat (flag gen.isSome) ((gen.getD 0).toNat % 256) ((gen.getD 0).toNat / 256)

/-- An order slot's outcome word: code, zero, order index (R148, 11.6). -/
def SlotOutcome.word (o : SlotOutcome) : Word :=
  packWord o.code.byte.toNat 0 (o.index.toNat % 256) (o.index.toNat / 256)

/-! ### Views -/

/-- A minute that reads 0 for NONE (R123). -/
def minuteOrZero (m : Option Nat) : Word := num (m.getD 0)

/-- The order and journal view with the protected-write items (R158, 11.3). -/
def Chip.orderView (c : Chip) : List Word :=
  [num c.orders.head.toNat, num c.orders.tail.toNat, num c.config.orderCapacity, num c.orders.taking.code,
   c.orders.done, c.orders.refused, num c.journal.head.toNat, num c.journal.tail.toNat,
   num c.config.journalCapacity, num c.journal.queue.length, num c.writingCount, num (flag c.moneyWaiting),
   c.journal.dropped, c.path.guarded, num c.path.lastGuarded]

/-- The paused stage, 1 to 6 while PAUSED and 0 otherwise (R123). -/
def Pass.pausedStage (p : Pass) : Nat :=
  match p.state, p.point with
  | .paused, some pt => pt.stage
  | _, _ => 0

/-- The clock view (R123). -/
def Chip.clockView (c : Chip) : List Word :=
  [num c.clock.state.code, minuteOrZero c.clock.minute, num c.clock.seconds, num c.clock.cal.cycle.toNat,
   num c.clock.cal.start, num c.clock.cal.m, num c.clock.cal.nextM, num c.clock.backlog,
   minuteOrZero c.clock.nextPass, c.clock.dropped, num c.pass.state.code, minuteOrZero c.pass.minute,
   num c.pass.cursor, num c.pass.pausedStage]

/-- A bank entry: its row, or the free code of CLOSED (log 16). -/
def bankWord : Option (BitVec 13) → Word
  | some r => r.setWidth 32
  | none => Config.closedBankCode

/-- The memory view; a CAS latency NONE is all ones (R176, R188). -/
def Chip.memoryView (c : Chip) : List Word :=
  [num c.path.mem.code, num ((c.path.cas.map (·.toNat)).getD 4294967295), bankWord (vget c.path.banks 0),
   bankWord (vget c.path.banks 1), bankWord (vget c.path.banks 2), bankWord (vget c.path.banks 3), c.path.blind,
   c.path.guarded, num c.path.lastGuarded, num c.engine.request.code, num (flag c.busurg), num c.fillReads,
   num c.journalOffer, num (flag c.engine.checkpoint.isSome), num (flag c.store.copy.isSome), c.engine.count]

/-- The branch view of branch b (R64). -/
def Branch.view (b : Branch) : List Word :=
  [num b.link.code, num b.carrier.code, num b.dirty.length, num b.repoll.length, b.exchanges, b.unanswered, b.rejected]

/-- The two words of position q in the source view (R19, R107). -/
def Chip.positionWords (c : Chip) (q : Nat) : List Word :=
  let e := c.effective q
  let p := c.point q
  [packWord (flag (c.channel q).used + 2 * flag e.onBackup) (sourceByte e.source).toNat
     (vget c.lineUp.zones q).toNat p.confirmed.byte.toNat,
   packWord p.mismatch p.condition.code 0 0]

/-- The word of source s in the source view; a last level NONE is all ones (R19, R107, R188). -/
def Source.word (r : Source) : Word :=
  packWord r.state.code (r.lastLevel.getD 255).toNat (flag r.lastUnanswered + 2 * flag r.lastLevel.isNone) 0

/-- The rack link items of the source view (R107). -/
def Chip.rackView (c : Chip) : List Word :=
  [num c.rack.link.code, num c.rack.pendingList.length,
   match c.rack.cursor with
    | some g => num g
    | none => Config.startCursorCode,
   c.rack.exchanges, c.rack.unanswered, c.rack.rejected]

/-- The words of an outage record (11.3). -/
def Outage.words (o : Outage) : List Word :=
  [packWord o.id.toNat o.kind.code o.state.code o.cause.code,
   packWord (o.object % 256) (o.object / 256) (flag o.acknowledged) 0, num (minuteField o.start),
   num (minuteField o.stop), num (o.affected % 65536)]

/-- The word of an outage-view record place; places past the record count read 0 (R90). -/
def Chip.outageWord (c : Chip) (k j : Nat) : Word :=
  match c.outages.records[k]? with
  | some o => item o.words j
  | none => 0

/-- The word of an element in the outage view (R90, 11.3). An element that is not in use shows its fresh record:
UNVERIFIED (0), history 0, UNARMED (0) (log 51). -/
def Element.word (el : Element) : Word :=
  packWord (flag el.record.inUse + 16 * el.sup.level.code) el.sup.state.code (el.sup.history.toNat % 256)
    (el.sup.history.toNat / 256)

/-- The start-up part of the STATUS record at offset 64 to 103 (R184, R187, 11.3). -/
def Chip.startWord (c : Chip) (off : Nat) : Word :=
  if off = 64 then c.part.word
  else if off < 100 then wordAt c.part.startView (off - 68)
  else num (flag c.part.startBlank)

/-- The merged word at an offset of the STATUS region (11.3). -/
def Chip.statusWord (c : Chip) (off : Nat) : Word :=
  if off = 0 then num c.orders.tail.toNat
  else if off = 4 then num c.journal.head.toNat
  else if off = 8 then num c.journal.tail.toNat
  else if off = 12 then num c.orders.head.toNat
  else if off < 64 then 0
  else if off < 104 then c.startWord off
  else if off < 256 then 0
  else if off < 384 then item c.orderView ((off - 256) / 4)
  else if off < 512 then item c.clockView ((off - 384) / 4)
  else if off < 1024 then item c.memoryView ((off - 512) / 4)
  else if off < 1152 then item (c.branch ((off - 1024) / 32)).view (off % 32 / 4)
  else if off < 2048 then 0
  else if off < 2560 then item (c.positionWords ((off - 2048) / 8)) (off % 8 / 4)
  else if off < 2688 then (c.source ((off - 2560) / 4)).word
  else if off < 4096 then item c.rackView ((off - 2688) / 4)
  else if off < 4112 then item [num c.outages.records.length, num c.outages.nextId.toNat, num c.unrecordedCount]
    ((off - 4096) / 4)
  else if off < 6160 then c.outageWord ((off - 4112) / 32) ((off - 4112) % 32 / 4)
  else if off < 6400 then 0
  else if off < 8960 then (c.element ((off - 6400) / 4)).word
  else 0

end Sys2Proof.Machine
end

