-- ==== Sys2Proof/Machine/MemoryPath.lean ====
section
/-! DEFINITION. The Memory Path (R161 to R171): what a word belongs to, what becomes of a host write and a host read of
it, the events a burst hands on, and the burst in progress. -/

namespace Sys2Proof.Machine

/-! ### What a word belongs to (R167, R168) -/

/-- The kinds of words of the watched regions (R168). -/
inductive WordKind where
  | outside
  | config | configTake | configOutcome | checkpoint
  | orderTail | journalHead | status (off : Nat)
  | intent (off : Nat) | live (i off : Nat)
  | lineUp (off : Nat) | lineUpOutcome
  | plant (off : Nat) | plantOutcome
  | slot (off : Nat) | slotOutcome (k : Nat)
  | journal
  deriving DecidableEq, Repr

/-- The region a kind of word lies in. -/
def WordKind.region : WordKind → Region
  | .outside => .config
  | .config => .config
  | .configTake => .config
  | .configOutcome => .config
  | .checkpoint => .config
  | .orderTail => .status
  | .journalHead => .status
  | .status _ => .status
  | .intent _ => .subscriber
  | .live _ _ => .subscriber
  | .lineUp _ => .lineUp
  | .lineUpOutcome => .lineUp
  | .plant _ => .plant
  | .plantOutcome => .plant
  | .slot _ => .orderRing
  | .slotOutcome _ => .orderRing
  | .journal => .journalRing

/-- Does a region hold a byte address? -/
def Span.holds (r : Span) (a : Nat) : Bool := r.base ≤ a && a < r.base + r.size

/-- The kind of a word of the CONFIG region (11.2). DESIGN CHOICE (unsafe): a word that no field of 11.2 names (offsets
72 to 95, 100 to 127, 160 to 255), for which the table of R168 has no row, is of the configuration block's kind, so that
it passes in every part state (log 59). -/
def configKind (off : Nat) : WordKind :=
  if off = 68 then .configTake
  else if off = 96 then .configOutcome
  else if 128 ≤ off ∧ off < 160 then .checkpoint
  else .config

/-- The kind of a word of the six regions of the map (11.3 to 11.6). -/
def mapKind (v : ConfigValues) (a : Nat) : WordKind :=
  if v.status.holds a then
    let off := a - v.status.base
    if off = 0 then .orderTail else if off = 4 then .journalHead else .status off
  else if v.subscriber.holds a then
    let off := a - v.subscriber.base
    if off % 128 < 32 then .intent off else .live (off / 128) (off % 128 - 32)
  else if v.lineUp.holds a then
    let off := a - v.lineUp.base
    if off = 4 then .lineUpOutcome else .lineUp off
  else if v.plant.holds a then
    let off := a - v.plant.base
    if off = 4 then .plantOutcome else .plant off
  else if v.orderRing.holds a then
    let off := a - v.orderRing.base
    if off % 32 = 28 then .slotOutcome (off / 32) else .slot off
  else if v.journalRing.holds a then .journal
  else .outside

/-- The kind of the word at a byte address: the CONFIG region from every reset on, the others while the map is in force
(R167). -/
def Chip.kindOf (c : Chip) (a : Nat) : WordKind :=
  if c.configBase ≤ a ∧ a < c.configBase + 256 then configKind (a - c.configBase)
  else if c.part.mapInForce then mapKind c.config a
  else .outside

/-- What becomes of a host write to a word (R168). -/
inductive WriteRule where
  | pass | protect | capture | candidate | retake
  deriving DecidableEq, Repr

/-- A word whose writes are captured in FILL and RUNNING and pass in CONFIG FAULT. -/
def captureIn : PartState → WriteRule
  | .configFault => .pass
  | _ => .capture

/-- The write columns of R168; in AWAIT MODE and TRANSPARENT every word passes. -/
def writeRule (k : WordKind) (st : PartState) : WriteRule :=
  if st = .awaitMode ∨ st = .transparent then .pass
  else
    match k with
    | .outside => .pass
    | .config => .pass
    | .configTake => if st = .configFault then .retake else .pass
    | .configOutcome => .protect
    | .checkpoint => .protect
    | .orderTail => match st with
      | .fill => .capture
      | .running => .candidate
      | _ => .pass
    | .journalHead => if st = .running then .candidate else .pass
    | .status _ => .protect
    | .intent _ => captureIn st
    | .live _ _ => .protect
    | .lineUp _ => captureIn st
    | .lineUpOutcome => .protect
    | .plant _ => captureIn st
    | .plantOutcome => .protect
    | .slot _ => captureIn st
    | .slotOutcome _ => .protect
    | .journal => .protect

/-! ### Protection (R170) -/

/-- The count rises, and a notice is offered when the minute number differs from the notice mark (R170). -/
def Chip.guard (c : Chip) (k : WordKind) (addr : Nat) : Chip :=
  let n := c.path.guarded + 1
  let c1 := c.setPath { c.path with guarded := n, lastGuarded := addr, mark := c.now }
  if c.now = c.path.mark then c1 else c1.noticeOf 0 (.protectedWrite k.region addr n)

/-- A host write is held back from the array and counted (R170); the burst is forwarded with the word masked. A notice
it raises may be the engine's first pending transfer (R172). -/
def State.protectWord (s : State) (k : WordKind) (w : HostWord) : State :=
  { s with
    chip := (s.chip.guard k w.addr).settle
    lines := { s.lines with arrayCmds := s.lines.arrayCmds ++ [.forwardWord { w with mask := 15 }] } }

/-- A host write passes to the array as written. -/
def State.passWord (s : State) (w : HostWord) : State :=
  { s with
    array := Memory.writeHost s.array 0 w
    lines := { s.lines with arrayCmds := s.lines.arrayCmds ++ [.forwardWord w] } }

/-! ### Capture (R169) -/

/-- Copy the unmasked bytes into the owner's mirror (R169); the order tail of FILL is the tail in force (R149). -/
def Chip.mirrorWord (c : Chip) (k : WordKind) (w : HostWord) : Chip :=
  match k with
  | .intent _ => c.setStore { c.store with mirror := Memory.writeHost c.store.mirror c.config.subscriber.base w }
  | .lineUp _ => c.setLineUp { c.lineUp with mirror := Memory.writeHost c.lineUp.mirror c.config.lineUp.base w }
  | .plant _ => c.setPlant { c.plant with mirror := Memory.writeHost c.plant.mirror c.config.plant.base w }
  | .slot _ => c.setOrders { c.orders with mirror := Memory.writeHost c.orders.mirror c.config.orderRing.base w }
  | .orderTail => c.setOrders { c.orders with tail := candidate w c.orders.tail }
  | _ => c

/-- In FILL each captured byte is valid-marked (R169, R183). -/
def Chip.markWord (c : Chip) (w : HostWord) : Chip :=
  if c.part.state = .fill then c.setPart { c.part with marks := markBytes c.part.marks w } else c

/-- Capture a word (R169): the array, the mirror and, in FILL, the valid marks. -/
def State.captureWord (s : State) (k : WordKind) (w : HostWord) : State :=
  (s.passWord w).onChip fun c => (c.mirrorWord k w).markWord w

/-- The event a captured or passed word makes if a take word is touched (R169, R186). -/
def takeEventOf (k : WordKind) (w : HostWord) : Option TakeEvent :=
  if !w.touchesLow then none
  else
    match k with
    | .intent off => if off % 128 = 0 then some (.revision (off / 128)) else none
    | .lineUp off => if off = 0 then some .lineUpTake else none
    | .plant off => if off = 0 then some .plantTake else none
    | .slot off => if off % 32 = 0 then some (.kindWord (off / 32)) else none
    | _ => none

/-- The candidate event of an order tail or journal head word (R149, R156). -/
def candidateEvent (k : WordKind) (w : HostWord) : Option TakeEvent :=
  match k with
  | .orderTail => some (.orderTail w)
  | .journalHead => some (.journalHead w)
  | _ => none

/-- One word of a host write as it is transferred (R168 to R170), with the event it makes at the end of its burst. A
word whose four bytes are masked is no write (R162). -/
def State.hostWrite (s : State) (w : HostWord) : State × Option TakeEvent :=
  let k := s.chip.kindOf w.addr
  if !w.writes then (s.passWord w, none)
  else
    match writeRule k s.chip.part.state with
    | .pass => (s.passWord w, none)
    | .protect => (s.protectWord k w, none)
    | .capture => (s.captureWord k w, takeEventOf k w)
    | .candidate => if w.touchesLow then (s, candidateEvent k w) else (s.protectWord k w, none)
    | .retake => (s.passWord w, if w.touchesLow then some .configTake else none)

/-! ### Events at the end of a burst (R169) -/

/-- An order tail candidate at the end of its burst in RUNNING (R149). -/
def State.tailEvent (s : State) (w : HostWord) : State :=
  let x := candidate w s.chip.orders.tail
  if (x - s.chip.orders.head).toNat ≤ s.chip.config.orderCapacity then
    (s.passWord w).onChip fun c => c.setOrders { c.orders with tail := x }
  else s.protectWord .orderTail w

/-- A journal head candidate at the end of its burst in RUNNING (R156). -/
def State.headEvent (s : State) (w : HostWord) : State :=
  let x := candidate w s.chip.journal.head
  if (x - s.chip.journal.head).toNat ≤ s.chip.ringUsed then
    (s.passWord w).onChip fun c => c.setJournal { c.journal with head := x }
  else s.protectWord .journalHead w

/-- One event, handed to its owner (R169), with what follows it at once. -/
def State.handEvent (s : State) (e : TakeEvent) : State :=
  let s' := match e with
    | .revision i => s.onChip fun c => c.revisionEvent i
    | .lineUpTake => s.onChip Chip.lineUpEvent
    | .plantTake => s.onChip Chip.plantEvent
    | .kindWord k => s.onChip fun c => c.kindEvent k
    | .orderTail w => s.tailEvent w
    | .journalHead w => s.headEvent w
    | .configTake => s.onChip Chip.retake
  s'.onChip Chip.settle

/-- Hand on the events of a burst in burst order. -/
def State.handEvents (s : State) (l : List TakeEvent) : State := l.foldl State.handEvent s

/-! ### Merging (R171) -/

/-- Does the part watch no word: AWAIT MODE and TRANSPARENT (R166, R168)? -/
def PartState.unwatched (st : PartState) : Bool := st == .awaitMode || st == .transparent

/-- Is the outcome word of a LINE-UP or PLANT region merged: in FILL and RUNNING from the automatic take on (R171), and
in CONFIG FAULT where that take was refused, so that the word shows its refusal (R11, R72; log 29)? -/
def outcomeMerged (st : PartState) (o : OutcomeCode) (gen : Option Half) : Bool :=
  if st = .configFault then gen.isNone && o != .notTaken else gen.isSome

/-- The value a host READ of a word is answered with, if the word is merged (R168, R171; the journal head word passes in
FILL, log 54). -/
def Chip.merged (c : Chip) (k : WordKind) : Option Word :=
  let st := c.part.state
  if st.unwatched then none
  else
    match k with
    | .configOutcome => some c.part.word
    | .orderTail => if st = .configFault then none else some (c.statusWord 0)
    | .journalHead => if st = .running then some (c.statusWord 4) else none
    | .status off => some (c.statusWord off)
    | .live i off =>
      if st ≠ .configFault ∧ (c.sub i).filled = true then some (wordAt (c.sub i).liveBytes off) else none
    | .lineUpOutcome =>
      if outcomeMerged st c.lineUp.outcome c.lineUp.gen then some (headerWord c.lineUp.outcome c.lineUp.gen) else none
    | .plantOutcome =>
      if outcomeMerged st c.plant.outcome c.plant.gen then some (headerWord c.plant.outcome c.plant.gen) else none
    | .slotOutcome j => if st = .running then some (c.slotOutcome j).word else none
    | _ => none

/-- The word a host READ at an address gives: the owner's value for a merged word, the array's otherwise (R171). -/
def State.hostRead (s : State) (a : Nat) : Word := (s.chip.merged (s.chip.kindOf a)).getD (Memory.word s.array a)

/-! ### The burst in progress (R162 to R164) -/

/-- The byte address of word k of a burst from column c of an open row (R162). -/
def burstAddr (bank : BitVec 2) (row : BitVec 13) (col : BitVec 9) (k : Nat) : Nat :=
  4 * ((row.toNat * 4 + bank.toNat) * 512 + (col.toNat / 4) * 4 + (col.toNat + k) % 4)

/-- The byte address of word k of a burst. -/
def Burst.addr (b : Burst) (k : Nat) : Nat := burstAddr b.bank b.row b.col k

/-- Close the bank of a burst with auto-precharge (R161). -/
def Chip.closeBank (c : Chip) (bank : BitVec 2) : Chip :=
  c.setPath { c.path with banks := vupd c.path.banks bank.toNat fun _ => none }

/-- The word of a candidate, which has yet to pass to the array (R149, R156). -/
def TakeEvent.candidateWord : TakeEvent → Option HostWord
  | .orderTail w => some w
  | .journalHead w => some w
  | .revision _ => none
  | .lineUpTake => none
  | .plantTake => none
  | .kindWord _ => none
  | .configTake => none

/-- The candidates a burst transferred before the part stopped watching pass to the array, uncaptured; its other events
are dropped with their owners' state (log 56). -/
def State.passCandidates (s : State) (l : List TakeEvent) : State :=
  (l.filterMap TakeEvent.candidateWord).foldl State.passWord s

/-- The burst in progress ends, whole or cut short: auto-precharge closes its bank, and the take words it captured are
handed on in burst order (R161, R163, R169). -/
def State.endBurst (s : State) : State :=
  match s.chip.path.burst with
  | none => s
  | some b =>
    let s1 := s.onChip fun c =>
      let c1 := c.setPath { c.path with burst := none }
      if b.autoPrecharge then c1.closeBank b.bank else c1
    if b.blind then s1.passCandidates b.events else s1.handEvents b.events

/-- Word k of a burst is written: blind words pass unchanged (R164). -/
def State.writeWord (s : State) (b : Burst) (k : Nat) (ww : WriteWord) : State × Option TakeEvent :=
  let w : HostWord := { addr := b.addr k, data := ww.data, mask := ww.mask }
  if b.blind then (s.passWord w, none) else s.hostWrite w

/-- Keep a burst in progress. -/
def Chip.setBurst (c : Chip) (b : Burst) : Chip := c.setPath { c.path with burst := some b }

/-- The next word a READ burst drives: the one taken at the command, or the array's where the part does not watch it
(R164, R166, R171; log 56). -/
def State.readWord (s : State) (b : Burst) (l : List Word) : Word :=
  if b.blind then Memory.word s.array (b.addr b.next) else l.getD b.next 0

/-- Transfer the next word of the burst in progress (R162, R169, R171). -/
def State.transferWord (s : State) : State :=
  match s.chip.path.burst with
  | none => s
  | some b =>
    match b.data with
    | .reading l =>
      (s.setLines { s.lines with readData := s.lines.readData ++ [s.readWord b l] }).onChip fun c =>
        c.setBurst { b with next := b.next + 1 }
    | .writing l =>
      let r := s.writeWord b b.next (l.getD b.next { data := 0, mask := 15 })
      r.1.onChip fun c => c.setBurst { b with next := b.next + 1, events := b.events ++ r.2.toList }

/-- Has the burst in progress transferred its four words? -/
def Chip.burstDone (c : Chip) : Bool :=
  match c.path.burst with
  | some b => 4 ≤ b.next
  | none => false

/-- Transfer n words of the burst in progress, ending it after its fourth. -/
def State.transferWords (s : State) (n : Nat) : State :=
  let s1 := forIndices n (fun s _ => if s.chip.burstDone then s else s.transferWord) s
  if s1.chip.burstDone then s1.endBurst else s1

/-- A command that does not cut the burst in progress leaves it one clock, one word (R163; log 7). -/
def State.passClock (s : State) : State := s.transferWords 1

/-- Does a PRECHARGE of a bank reach the burst in progress (R163)? -/
def Chip.burstIn (c : Chip) (bank : BitVec 2) : Bool :=
  match c.path.burst with
  | some b => b.bank == bank
  | none => false

/-- Nothing is driven on either side yet in this bus step. -/
def State.quietLines (s : State) : State := s.setLines { readData := [], arrayCmds := [] }

/-- A command is forwarded to the array as issued (R161). -/
def State.forward (s : State) (i : Instr) : State := s.setLines { readData := [], arrayCmds := [.forward i] }

/-- A command that cuts the burst in progress short is forwarded behind what the end of the burst drives: the words of
its candidates (R161, R163). -/
def State.cutForward (s : State) (i : Instr) : State :=
  let s1 := s.quietLines.endBurst
  s1.setLines { s1.lines with arrayCmds := s1.lines.arrayCmds ++ [.forward i] }

/-- Does the controller command the bus: not while the Tenure Engine holds it (R161; log 6)? -/
def State.hostBus (s : State) : Bool := s.chip.engine.request != .holding

/-- A READ or WRITE command: the bank entry names the row, or the access is blind and counted (R162, R164); the data
of a READ are taken at the command (R171). `data` makes the burst's data from the state and the row. -/
def State.startBurst (s : State) (bank : BitVec 2) (col : BitVec 9) (auto : Bool) (words : Nat)
    (data : BitVec 13 → Bool → BurstData) : State :=
  let entry := vget s.chip.path.banks bank.toNat
  let row := entry.getD (Config.blindRow s.chip.drawn bank)
  let s1 := if entry.isSome then s else s.onChip fun c =>
    (c.setPath { c.path with blind := c.path.blind + 1 }).setDrawn (c.drawn + 1)
  (s1.onChip fun c =>
    c.setBurst
      { bank := bank, row := row, col := col, blind := entry.isNone, autoPrecharge := auto, next := 0
        data := data row entry.isNone, events := [] }).transferWords words

/-- The four words of a READ, taken at the command: merged values for an open row, the array's for a blind one (R164,
R171). -/
def State.readWords (s : State) (bank : BitVec 2) (col : BitVec 9) (row : BitVec 13) (blind : Bool) : List Word :=
  (List.range 4).map fun k =>
    let a := burstAddr bank row col k
    if blind then Memory.word s.array a else s.hostRead a

/-- A READ command; it cuts a burst in progress short (R163). -/
def State.readBurst (s : State) (i : Instr) (bank : BitVec 2) (col : BitVec 9) (auto : Bool) (words : Nat) : State :=
  let s1 := s.cutForward i
  s1.startBurst bank col auto words fun row blind => .reading (s1.readWords bank col row blind)

/-- A WRITE command; it cuts a burst in progress short (R163). -/
def State.writeBurst (s : State) (i : Instr) (bank : BitVec 2) (col : BitVec 9) (auto : Bool) (l : List WriteWord)
    (words : Nat) : State :=
  (s.cutForward i).startBurst bank col auto words fun _ _ => .writing l

/-- A host write of one word that stands alone, with its event: the command rows that are such writes (log 9). Like
every WRITE it cuts a burst in progress short (R163). -/
def State.writeAlone (s : State) (w : HostWord) : State :=
  let r := s.quietLines.endBurst.hostWrite w
  r.1.handEvents r.2.toList

/-- A write to a word of the regions of the map, whose place is known only while the map is in force (R167; log 9). -/
def State.writeMapped (s : State) (addr : Nat) (h : HalfWrite) : State :=
  if s.hostBus && s.chip.part.mapInForce then s.writeAlone (halfWord h addr) else s

end Sys2Proof.Machine
end

