-- ==== Sys2Proof/Machine/BusCommands.lean ====
section
/-! DEFINITION. The meanings of the SDRAM commands of the controller side (R161 to R166, R169, R171, R175). -/

namespace Sys2Proof.Machine

/-- What a command of the memory controller makes: the outcome of every meaning. -/
abbrev Result := Host.Outcome State Fault Refusal

/-- A command of the memory controller; while the Tenure Engine holds the bus there is none (R161; log 6). -/
def State.onBus (s : State) (f : State → State) : Result := .next (if s.hostBus then f s else s)

/-- Forward a command that does not cut the burst in progress, which goes on one word (R161, R163). -/
def State.plainCommand (s : State) (i : Instr) : State := (s.forward i).passClock

/-- Every bank entry becomes CLOSED (R161). -/
def Chip.closeAll (c : Chip) : Chip := c.setPath { c.path with banks := Vector.replicate 4 none }

/-- A bank entry becomes a row, whatever it held (R161). -/
def Chip.openRow (c : Chip) (bank : BitVec 2) (row : BitVec 13) : Chip :=
  c.setPath { c.path with banks := vupd c.path.banks bank.toNat fun _ => some row }

/-- ACTIVATE (R161). -/
def execActivate (bank : BitVec 2) (row : BitVec 13) (s : State) : Result :=
  s.onBus fun s => (s.plainCommand (.activate bank row)).onChip fun c => c.openRow bank row

/-- READ without auto-precharge (R161 to R164, R171). -/
def execRead (bank : BitVec 2) (col : BitVec 9) (words : Nat) (s : State) : Result :=
  s.onBus fun s => s.readBurst (.read bank col words) bank col false words

/-- READ with auto-precharge: the bank entry becomes CLOSED when the burst ends (R161). -/
def execReadAutoPrecharge (bank : BitVec 2) (col : BitVec 9) (words : Nat) (s : State) : Result :=
  s.onBus fun s => s.readBurst (.readAutoPrecharge bank col words) bank col true words

/-- WRITE without auto-precharge (R161 to R164, R168 to R170). -/
def execWrite (bank : BitVec 2) (col : BitVec 9) (w0 w1 w2 w3 : WriteWord) (words : Nat) (s : State) : Result :=
  s.onBus fun s => s.writeBurst (.write bank col w0 w1 w2 w3 words) bank col false [w0, w1, w2, w3] words

/-- WRITE with auto-precharge: the bank entry becomes CLOSED when the burst ends (R161). -/
def execWriteAutoPrecharge (bank : BitVec 2) (col : BitVec 9) (w0 w1 w2 w3 : WriteWord) (words : Nat) (s : State) :
    Result :=
  s.onBus fun s => s.writeBurst (.writeAutoPrecharge bank col w0 w1 w2 w3 words) bank col true [w0, w1, w2, w3] words

/-- PRECHARGE of one bank; it cuts a burst of that bank short (R161, R163). -/
def execPrecharge (bank : BitVec 2) (s : State) : Result :=
  s.onBus fun s =>
    (if s.chip.burstIn bank then s.cutForward (.precharge bank) else s.plainCommand (.precharge bank)).onChip fun c =>
      c.closeBank bank

/-- PRECHARGE ALL; it reaches every bank and so cuts any burst short (R161, R163). -/
def execPrechargeAll (s : State) : Result := s.onBus fun s => (s.cutForward .prechargeAll).onChip Chip.closeAll

/-- REFRESH (R161). -/
def execRefresh (s : State) : Result := s.onBus fun s => (s.plainCommand .refresh).onChip Chip.closeAll

/-- The memory state becomes SELF-REFRESH, every entry CLOSED, and a request is withdrawn (R161, R172, R175). -/
def Chip.enterSelfRefresh (c : Chip) : Chip :=
  let c1 := c.closeAll
  let c2 := c1.setPath { c1.path with mem := .selfRefresh }
  if c2.engine.request = .requesting then c2.setEngine { c2.engine with request := .idle } else c2

/-- SELF-REFRESH ENTRY (R175). -/
def execSelfRefreshEntry (s : State) : Result :=
  s.onBus fun s => (s.plainCommand .selfRefreshEntry).onChip Chip.enterSelfRefresh

/-- SELF-REFRESH EXIT: the memory state becomes NORMAL, and the engine requests again if a transfer is pending
(R161, R175). -/
def execSelfRefreshExit (s : State) : Result :=
  s.onBus fun s =>
    (s.plainCommand .selfRefreshExit).onChip fun c => (c.setPath { c.path with mem := .normal }).requestBus

/-- BURST TERMINATE (R163). -/
def execBurstTerminate (s : State) : Result := s.onBus fun s => s.cutForward .burstTerminate

/-- No-operation: forwarded, and a burst in progress goes on (R161). -/
def execNoOperation (s : State) : Result := s.onBus fun s => s.plainCommand .noOperation

/-! ### MODE SET (R165) -/

/-- Is a MODE SET valid: burst length 4 for reads and writes, sequential, CAS latency 2 or 3, standard mode (R165)? -/
def modeValid (addr : BitVec 13) : Bool :=
  addr.extractLsb' 0 3 == 2 && !addr.getLsbD 9 && !addr.getLsbD 3
    && (addr.extractLsb' 4 3 == 2 || addr.extractLsb' 4 3 == 3) && addr.extractLsb' 7 2 == 0

/-- The CAS latency a MODE SET carries (R165). -/
def modeCas (addr : BitVec 13) : BitVec 3 := addr.extractLsb' 4 3

/-- The CAS latency in force becomes the one carried. -/
def Chip.setCas (c : Chip) (addr : BitVec 13) : Chip := c.setPath { c.path with cas := some (modeCas addr) }

/-- The effect of a MODE SET by part state (R165, R179). -/
def Chip.modeSet (c : Chip) (addr : BitVec 13) : Chip :=
  if modeValid addr then
    let c1 := c.setCas addr
    match c.part.state with
    | .awaitMode => c1.setPart (c1.part.enterFill c1.part.cause)
    | .transparent => c1.recover
    | .fill => c1
    | .running => c1
    | .configFault => c1
  else
    match c.part.state with
    | .awaitMode => c
    | .transparent => c
    | .fill => c.enterTransparent
    | .running => c.enterTransparent
    | .configFault => c.enterTransparent

/-- MODE SET (R165); its address bits 10 to 12 and its bank bits are not checked. Its effect comes before the word
that a burst in progress transfers with it (R166: from the invalid MODE SET on; log 56). -/
def execModeSet (addr : BitVec 13) (bank : BitVec 2) (s : State) : Result :=
  s.onBus fun s => ((s.forward (.modeSet addr bank)).act fun c => c.modeSet addr).passClock

end Sys2Proof.Machine
end

