-- ==== Sys2Proof/Machine/BranchCommands.lean ====
section
/-! DEFINITION. The meanings of the branch link events (R42 to R44, R60). -/

namespace Sys2Proof.Machine

/-- The end of the frame: the reply window opens (R42). -/
def Chip.hearReplies (c : Chip) (b : Nat) : Chip := c.updBranch b fun r => { r with link := .listening }

/-- Is branch b SENDING? -/
def Chip.sending (b : Nat) (c : Chip) : Bool := (c.branch b).link == .sending

/-- Is branch b LISTENING? -/
def Chip.listening (b : Nat) (c : Chip) : Bool := (c.branch b).link == .listening

/-- BRANCH_FRAME_SENT (R42). -/
def execBranchFrameSent (b : Fin 4) (s : State) : Result :=
  .next (s.actIf (Chip.sending b) fun c => c.hearReplies b)

/-- BRANCH_REPLY_RECEIVED (R43): bytes received while not LISTENING are discarded uncounted. -/
def execBranchReplyReceived (b : Fin 4) (bytes : List Byte) (s : State) : Result :=
  .next (s.actIf (Chip.listening b) fun c => c.branchReceives b bytes)

/-- One more frame discarded on branch b (R43). -/
def Chip.rejectFrame (c : Chip) (b : Nat) : Chip := c.updBranch b fun r => { r with rejected := r.rejected + 1 }

/-- BRANCH_FRAME_REJECTED (R43); for a discarded exchange nothing is read and no frame discarded (R62; log 22). -/
def execBranchFrameRejected (b : Fin 4) (s : State) : Result :=
  .next (s.actIf (fun c => c.listening b && c.readsReplies b) fun c => c.rejectFrame b)

/-- BRANCH_REPLY_WINDOW_CLOSED (R42). -/
def execBranchReplyWindowClosed (b : Fin 4) (s : State) : Result :=
  .next (s.actIf (Chip.listening b) fun c => c.windowCloses b)

/-- Is the carrier input timed, and is the carrier state of branch b other than k (R60)? -/
def Chip.carrierDue (b : Nat) (k : Carrier) (c : Chip) : Bool :=
  c.part.state != .transparent && (c.branch b).carrier != k

/-- CARRIER_LOST (R60, R78). -/
def execCarrierLost (b : Fin 4) (s : State) : Result :=
  .next (s.actIf (Chip.carrierDue b .lost) fun c => c.carrierChanges b .lost false)

/-- CARRIER_PRESENT (R60, R78). -/
def execCarrierPresent (b : Fin 4) (s : State) : Result :=
  .next (s.actIf (Chip.carrierDue b .present) fun c => c.carrierChanges b .present true)

/-- A change of the carrier input restarts the timers (R60); in TRANSPARENT it is not timed. -/
def Chip.carrierInput (c : Chip) (b : Nat) (high : Bool) : Chip :=
  c.updBranch b fun r =>
    if r.input = high then r
    else { r with input := high
                  timing := if c.part.state = .transparent then .stopped else timerFor r.carrier high }

/-- CARRIER_INPUT_CHANGE (R60). -/
def execCarrierInputChange (b : Fin 4) (high : Bool) (s : State) : Result :=
  .next (s.onChip fun c => c.carrierInput b high)

end Sys2Proof.Machine
end

