-- ==== Sys2Proof/Machine/TakeCommands.lean ====
section
/-! DEFINITION. The meanings of the take words and of the takes (R3 to R10, R24 to R29, R35, R68 to R71). -/

namespace Sys2Proof.Machine

/-- LINE_UP_TAKE_REQUEST (R3, R4). -/
def execLineUpTakeRequest (h : HalfWrite) (s : State) : Result :=
  .next (s.writeMapped s.chip.config.lineUp.base h)

/-- PLANT_TAKE_REQUEST (R68, R69). -/
def execPlantTakeRequest (h : HalfWrite) (s : State) : Result :=
  .next (s.writeMapped s.chip.config.plant.base h)

/-- REVISION_WRITE (R24). -/
def execRevisionWrite (i : Nat) (h : HalfWrite) (s : State) : Result :=
  if i < 2048 then .next (s.writeMapped (s.chip.config.subscriber.base + 128 * i) h) else .fault .noSuchRecord

/-- REVISION_TAKE (R25): at the store's turn, when a queued record is filled (R24, R120). -/
def execRevisionTake (s : State) : Result := .next (s.actIf Chip.takeTurn Chip.takeNext)

/-- May the producer that waits go on: its entry has joined, or a slot is free for it (R153)? -/
def Chip.slotFree (c : Chip) : Bool := c.running && (c.store.answered || c.moneyRoom)

/-- Go on with the take that stands stopped. -/
def Chip.resumeHeldTake (c : Chip) : Chip :=
  match c.store.hold with
  | some (.take i st) => c.resumeTake i st
  | _ => c

/-- Does a take stand stopped for a slot (R29)? -/
def Chip.takeHeld (c : Chip) : Bool :=
  match c.store.hold with
  | some (.take _ _) => true
  | _ => false

/-- TAKE_RESUME (R29): when a slot has freed, the take goes on behind its waiting entry. -/
def execTakeResume (s : State) : Result :=
  .next (s.actIf (fun c => c.slotFree && c.takeHeld) fun c => c.answerMoney.resumeHeldTake)

/-- SWEEP_VISIT (R35), with the HELD take at the sweep's end (R10). -/
def execSweepVisit (s : State) : Result := .next (s.actIf (fun c => c.running && c.sweep.isSome) Chip.sweepStep)

end Sys2Proof.Machine
end

