-- ==== Sys2Proof/Machine/ClockCommands.lean ====
section
/-! DEFINITION. The meanings of the second edge, the minute event, the seconds-loss timer and the pass (R109 to R111, R117, R119). -/

namespace Sys2Proof.Machine

/-- SEC1_EDGE (R109). -/
def execSec1Edge (s : State) : Result := .next (s.actIf Chip.clockCounts Chip.secondEdge)

/-- MINUTE_EVENT (R111): the wrap of the seconds count, as a step of its own (log 11). -/
def execMinuteEvent (s : State) : Result :=
  .next (s.actIf (fun c => c.clockCounts && c.minuteCanRise) Chip.wrapSeconds)

/-- SECONDS_LOSS_TIMEOUT (R110). -/
def execSecondsLossTimeout (s : State) : Result :=
  .next (s.actIf (fun c => c.running && c.clock.state == .running) Chip.loseSeconds)

/-- PASS_VISIT (R117), at the pass's turn (R120). -/
def execPassVisit (s : State) : Result := .next (s.actIf Chip.visitTurn Chip.visitRecord)

/-- PASS_RESUME (R119): when a slot has freed, the visit goes on behind its waiting entry. -/
def execPassResume (s : State) : Result :=
  .next (s.actIf (fun c => c.slotFree && c.pass.state == .paused) fun c => c.answerMoney.resumePass)

end Sys2Proof.Machine
end

