-- ==== Sys2Proof/Machine/OrderCommands.lean ====
section
/-! DEFINITION. The meanings of the ring words and of the orders (R63, R87, R89, R112, R114, R141 to R143, R148 to R151, R156). -/

namespace Sys2Proof.Machine

/-- ORDER_KIND_WRITE (R148). The slots are as many as the order ring capacity. -/
def execOrderKindWrite (slot : Nat) (h : HalfWrite) (s : State) : Result :=
  if slot < 256 then
    .next (if slot < s.chip.config.orderCapacity then s.writeMapped (s.chip.config.orderRing.base + 32 * slot) h else s)
  else .fault .noSuchSlot

/-- ORDER_TAIL_WRITE (R149). -/
def execOrderTailWrite (h : HalfWrite) (s : State) : Result := .next (s.writeMapped s.chip.config.status.base h)

/-- JOURNAL_HEAD_WRITE (R156). -/
def execJournalHeadWrite (h : HalfWrite) (s : State) : Result :=
  .next (s.writeMapped (s.chip.config.status.base + 4) h)

/-- Run an order that touches no subscriber record from the working copy (R150 step 2; log 10). -/
def State.directOrder (s : State) (kind : Nat) (f : Chip → Order → Chip) : Result :=
  match s.chip.workOf kind with
  | some o => .next (s.actIf Chip.running fun c => f c o)
  | none => .next s

/-- Run an order that the store serves at its turn between two visits (R120, R150 step 3). -/
def State.storeOrder (s : State) (kind : Nat) (f : Chip → Order → Chip) : Result :=
  match s.chip.workOf kind with
  | some o => .next (s.actIf Chip.orderTurn fun c => f c.orderServed o)
  | none => .next s

/-- UNKNOWN_KIND (R151). -/
def execUnknownKind (s : State) : Result :=
  match s.chip.orders.work with
  | some o => .next (s.actIf (fun c => c.running && !knownKind o.kind) fun c => c.finishOrder .unknownKind)
  | none => .next s

/-- PURCHASE (R141). -/
def execPurchase (s : State) : Result :=
  s.storeOrder kindPurchase fun c o => c.decideOrder (c.checkPurchase o) fun c => c.book o

/-- CANCEL_PURCHASE (R142). -/
def execCancelPurchase (s : State) : Result :=
  s.storeOrder kindCancel fun c o => c.decideOrder (c.checkCancel o) fun c => c.cancelBooking o

/-- ADJUST (R143). -/
def execAdjust (s : State) : Result := s.storeOrder kindAdjust fun c o => c.serveAdjust o

/-- Go on with the ADJUST that waits for a slot. -/
def Chip.resumeHeldAdjust (c : Chip) : Chip :=
  match c.store.hold, c.workOf kindAdjust with
  | some (.adjust st), some o => c.resumeAdjust o st
  | _, _ => c

/-- Does an ADJUST wait for a slot (R143)? -/
def Chip.adjustHeld (c : Chip) : Bool :=
  match c.store.hold with
  | some (.adjust _) => true
  | _ => false

/-- ADJUST_RESUME (R143): when a slot has freed, the ADJUST goes on behind its waiting entry. -/
def execAdjustResume (s : State) : Result :=
  .next (s.actIf (fun c => c.slotFree && c.adjustHeld) fun c => c.answerMoney.resumeHeldAdjust)

/-- RESEND (R63). -/
def execResend (s : State) : Result :=
  s.storeOrder kindResend fun c o => c.decideOrder (c.checkResend o) fun c => c.resendPort o

/-- REPOLL (R89). -/
def execRepoll (s : State) : Result :=
  s.directOrder kindRepoll fun c o => c.decideOrder (c.checkRepoll o) fun c => c.repollAppend o.index

/-- ACKNOWLEDGE_OUTAGE (R87). -/
def execAcknowledgeOutage (s : State) : Result :=
  s.directOrder kindAcknowledge fun c o => c.decideOrder (c.checkAcknowledge o) fun c => c.acknowledgeRecord o

/-- SET_CLOCK (R112). -/
def execSetClock (s : State) : Result :=
  s.directOrder kindSetClock fun c o => c.decideOrder (c.checkSetClock o) fun c => c.applySetClock o

/-- NEXT_CYCLE (R114). -/
def execNextCycle (s : State) : Result :=
  s.directOrder kindNextCycle fun c o => c.decideOrder (c.checkNextCycle o) fun c => c.applyNextCycle o

end Sys2Proof.Machine
end

