-- ==== Sys2Proof/Machine/RackCommands.lean ====
section
/-! DEFINITION. The meanings of the rack link events (R94 to R96). -/

namespace Sys2Proof.Machine

/-- Is the rack link SENDING? -/
def Chip.rackSending (c : Chip) : Bool := c.rack.link == .sending

/-- Is the rack link LISTENING? -/
def Chip.rackListening (c : Chip) : Bool := c.rack.link == .listening

/-- RACK_FRAME_SENT (R94). -/
def execRackFrameSent (s : State) : Result :=
  .next (s.actIf Chip.rackSending fun c => c.setRack { c.rack with link := .listening })

/-- RACK_REPLY_RECEIVED (R95): bytes received while not LISTENING are discarded uncounted. -/
def execRackReplyReceived (bytes : List Byte) (s : State) : Result :=
  .next (s.actIf Chip.rackListening fun c => c.rackReceives bytes)

/-- RACK_FRAME_REJECTED (R95). -/
def execRackFrameRejected (s : State) : Result :=
  .next (s.actIf Chip.rackListening fun c => c.setRack { c.rack with rejected := c.rack.rejected + 1 })

/-- RACK_REPLY_WINDOW_CLOSED (R94). -/
def execRackReplyWindowClosed (s : State) : Result := .next (s.actIf Chip.rackListening Chip.rackWindowCloses)

end Sys2Proof.Machine
end

