-- ==== Sys2Proof/Machine/ResetCommands.lean ====
section
/-! DEFINITION. The meanings of power-on, the RESET pin and the config retake (R179, R180, R186). -/

namespace Sys2Proof.Machine

/-- The level of the CFGSEL pins, which the next reset or retake samples (R178). -/
def Chip.setStrap (c : Chip) (strap : BitVec 4) : Chip := c.setPart { c.part with strap := strap }

/-- POWER_ON (R179). The array is not part of the 4820 and keeps its bytes (log 4); no burst is in progress after it
(log 56). -/
def execPowerOn (strap : BitVec 4) (s : State) : Result :=
  .next (s.quietLines.onChip fun c => c.hardReset strap .power)

/-- RESET_PIN (R180): a tenure under way finishes the transfers it has begun, closes the banks and ends; then the part
resets. A burst of the controller in progress goes on in AWAIT MODE (R168). -/
def execResetPin (strap : BitVec 4) (begun : Nat) (s : State) : Result :=
  let s1 := s.quietLines
  let s2 : State := match s.chip.engine.tenure with
    | some t => if s.chip.engine.request = RequestState.holding then s1.cutTenure t begun else s1
    | none => s1
  .next (s2.onChip fun c => c.pinReset strap)

/-- CONFIG_RETAKE (R186): a host write to the config take word; only in CONFIG FAULT is it a request. -/
def execConfigRetake (strap : BitVec 4) (h : HalfWrite) (s : State) : Result :=
  s.onBus fun s =>
    let s1 := s.onChip fun c => c.setStrap strap
    s1.writeAlone (halfWord h (s1.chip.configBase + 68))

end Sys2Proof.Machine
end

