-- ==== Sys2Proof/Machine/TenureCommands.lean ====
section
/-! DEFINITION. The meanings of BUSGNT, the end of a tenure and the write-back cursor (R36, R173, R174). -/

namespace Sys2Proof.Machine

/-- BUS_GRANT (R173): a grant to an engine that is not REQUESTING is ignored (R172). A burst of the controller in
progress is kept, and its words go on after the tenure (log 55). -/
def execBusGrant (s : State) : Result :=
  .next (if s.chip.engine.request = .requesting then s.onChip Chip.grant else s)

/-- TENURE_COMPLETE (R174). -/
def execTenureComplete (s : State) : Result :=
  match s.chip.engine.tenure with
  | some t => .next (if s.chip.engine.request = .holding then s.endTenure t else s)
  | none => .next s

/-- WRITE_BACK (R36): the cursor acts while the part is RUNNING and no copy is pending. -/
def execWriteBack (s : State) : Result :=
  .next (s.actIf (fun c => c.running && c.store.copy.isNone) Chip.writeBackStep)

end Sys2Proof.Machine
end

