-- ==== Sys2Proof/Machine/Dispatch.lean ====
section
/-! DEFINITION. One arm for each command: the meaning it calls. -/

namespace Sys2Proof.Machine

def exec (i : Instr) (s : State) : Host.Outcome State Fault Refusal :=
  match i with
  | .powerOn strap => Sys2Proof.Machine.execPowerOn strap s
  | .resetPin strap begun => Sys2Proof.Machine.execResetPin strap begun s
  | .modeSet addr bank => Sys2Proof.Machine.execModeSet addr bank s
  | .activate bank row => Sys2Proof.Machine.execActivate bank row s
  | .read bank col words => Sys2Proof.Machine.execRead bank col words s
  | .readAutoPrecharge bank col words => Sys2Proof.Machine.execReadAutoPrecharge bank col words s
  | .write bank col w0 w1 w2 w3 words => Sys2Proof.Machine.execWrite bank col w0 w1 w2 w3 words s
  | .writeAutoPrecharge bank col w0 w1 w2 w3 words => Sys2Proof.Machine.execWriteAutoPrecharge bank col w0 w1 w2 w3 words s
  | .precharge bank => Sys2Proof.Machine.execPrecharge bank s
  | .prechargeAll => Sys2Proof.Machine.execPrechargeAll s
  | .refresh => Sys2Proof.Machine.execRefresh s
  | .selfRefreshEntry => Sys2Proof.Machine.execSelfRefreshEntry s
  | .selfRefreshExit => Sys2Proof.Machine.execSelfRefreshExit s
  | .burstTerminate => Sys2Proof.Machine.execBurstTerminate s
  | .noOperation => Sys2Proof.Machine.execNoOperation s
  | .busGrant => Sys2Proof.Machine.execBusGrant s
  | .tenureComplete => Sys2Proof.Machine.execTenureComplete s
  | .configRetake strap h => Sys2Proof.Machine.execConfigRetake strap h s
  | .lineUpTakeRequest h => Sys2Proof.Machine.execLineUpTakeRequest h s
  | .plantTakeRequest h => Sys2Proof.Machine.execPlantTakeRequest h s
  | .revisionWrite index h => Sys2Proof.Machine.execRevisionWrite index h s
  | .revisionTake => Sys2Proof.Machine.execRevisionTake s
  | .takeResume => Sys2Proof.Machine.execTakeResume s
  | .sweepVisit => Sys2Proof.Machine.execSweepVisit s
  | .writeBack => Sys2Proof.Machine.execWriteBack s
  | .branchFrameSent b => Sys2Proof.Machine.execBranchFrameSent b s
  | .branchReplyReceived b bytes => Sys2Proof.Machine.execBranchReplyReceived b bytes s
  | .branchFrameRejected b => Sys2Proof.Machine.execBranchFrameRejected b s
  | .branchReplyWindowClosed b => Sys2Proof.Machine.execBranchReplyWindowClosed b s
  | .carrierLost b => Sys2Proof.Machine.execCarrierLost b s
  | .carrierPresent b => Sys2Proof.Machine.execCarrierPresent b s
  | .rackFrameSent => Sys2Proof.Machine.execRackFrameSent s
  | .rackReplyReceived bytes => Sys2Proof.Machine.execRackReplyReceived bytes s
  | .rackFrameRejected => Sys2Proof.Machine.execRackFrameRejected s
  | .rackReplyWindowClosed => Sys2Proof.Machine.execRackReplyWindowClosed s
  | .sec1Edge => Sys2Proof.Machine.execSec1Edge s
  | .minuteEvent => Sys2Proof.Machine.execMinuteEvent s
  | .secondsLossTimeout => Sys2Proof.Machine.execSecondsLossTimeout s
  | .passVisit => Sys2Proof.Machine.execPassVisit s
  | .passResume => Sys2Proof.Machine.execPassResume s
  | .orderKindWrite slot h => Sys2Proof.Machine.execOrderKindWrite slot h s
  | .orderTailWrite h => Sys2Proof.Machine.execOrderTailWrite h s
  | .journalHeadWrite h => Sys2Proof.Machine.execJournalHeadWrite h s
  | .unknownKind => Sys2Proof.Machine.execUnknownKind s
  | .purchase => Sys2Proof.Machine.execPurchase s
  | .cancelPurchase => Sys2Proof.Machine.execCancelPurchase s
  | .adjust => Sys2Proof.Machine.execAdjust s
  | .adjustResume => Sys2Proof.Machine.execAdjustResume s
  | .resend => Sys2Proof.Machine.execResend s
  | .repoll => Sys2Proof.Machine.execRepoll s
  | .acknowledgeOutage => Sys2Proof.Machine.execAcknowledgeOutage s
  | .setClock => Sys2Proof.Machine.execSetClock s
  | .nextCycle => Sys2Proof.Machine.execNextCycle s
  | .carrierInputChange b high => Sys2Proof.Machine.execCarrierInputChange b high s

end Sys2Proof.Machine
end

