-- ==== Sys2Proof/Safety.lean ====
section
/-! DEFINITION. The terms the statements use: the predicates over a state that hold at reset and that every step keeps,
and what one step leaves alone, writes, opens, closes or takes. -/

namespace Sys2Proof.Machine

/-- Has branch b nothing to select: an exchange under way, a closed link that is SILENT, or an open link that is IDLE
with an empty dirty list and no poll waiting (R41, R59)? -/
def Chip.quietBranch (c : Chip) (b : Nat) : Bool :=
  (c.branch b).hold.isSome
    || (!c.linkOpen b && (c.branch b).link == .silent)
    || (c.linkOpen b && (c.branch b).link == .idle && (c.branch b).dirty.isEmpty && !c.pollWaiting b)

/-- Has the rack link nothing to select: an exchange under way, or SILENT while the part is not RUNNING (R93)? -/
def Chip.quietRack (c : Chip) : Bool := c.rack.hold.isSome || (!c.running && c.rack.link == .silent)

/-- Has the Order Taker nothing to take: the part not RUNNING, an order in hand, or an empty ring (R150)? -/
def Chip.quietOrders (c : Chip) : Bool := !c.running || c.orders.work.isSome || c.orders.head == c.orders.tail

/-- Has the Tenure Engine nothing to request (R172)? -/
def Chip.quietEngine (c : Chip) : Bool :=
  c.engine.request != .idle || !c.transferPending || !c.active || c.path.mem != .normal

/-- Nothing is left to select, to take or to request. -/
def Chip.quiet (c : Chip) : Bool :=
  (List.range 4).all c.quietBranch && c.quietRack && c.quietOrders && c.quietEngine

/-- A state in which nothing is left to select, to take or to request: every state that a step leaves from such a one
is such a one. -/
abbrev Settled (s : State) : Prop := s.chip.quiet = true

/-- The array is in the canonical form of memory. -/
abbrev ArrayCanonical (s : State) : Prop := Memory.wf s.array = true

/-- The on-chip queue holds at most 64 entries (R153). -/
abbrev QueueBounded (s : State) : Prop := s.chip.journal.queue.length ≤ Config.queueCapacity

/-- What only the controller side and the Tenure Engine reach is as before: the array, the lines, the queue of waiting
commands. -/
abbrev SameOutside (s t : State) : Prop := t.array = s.array ∧ t.lines = s.lines ∧ t.pending = s.pending

/-- A command of the memory controller can come and finds no burst in progress. -/
abbrev BusFree (s : State) : Prop := s.chip.engine.request ≠ .holding ∧ s.chip.path.burst = none

/-! ### Frames -/

/-- A host write to a 16-bit word has reached the array: its written bytes stand there, every other byte is as
before. -/
def HalfWritten (m m' : Memory) (a : Nat) (h : HalfWrite) : Prop :=
  ∀ x, Memory.read m' x =
    if x = a ∧ h.lo = true then h.value.setWidth 8
    else if x = a + 1 ∧ h.hi = true then (h.value >>> 8).setWidth 8
    else Memory.read m x

/-- A 16-bit word after a host write to it. -/
def newHalf (h : HalfWrite) (old : Half) : Half :=
  ((if h.hi then h.value else old) &&& 0xFF00) ||| ((if h.lo then h.value else old) &&& 0x00FF)

/-- The ports and the two kinds of links are as before. -/
abbrev SameLinks (s t : State) : Prop :=
  t.chip.ports = s.chip.ports ∧ t.chip.branches = s.chip.branches ∧ t.chip.rack = s.chip.rack

/-- Elements, sources and outage records are as before. -/
abbrev SameSupervision (s t : State) : Prop :=
  t.chip.elements = s.chip.elements ∧ t.chip.plant = s.chip.plant ∧ t.chip.sources = s.chip.sources
    ∧ t.chip.outages = s.chip.outages

/-- Every element's table record and supervision record are as before; only an unrecorded mark may be gone, an outage
record having been opened for it (R88). -/
def SamePlant (s t : State) : Prop :=
  t.chip.plant = s.chip.plant
    ∧ ∀ e, (t.chip.element e).record = (s.chip.element e).record ∧ (t.chip.element e).sup = (s.chip.element e).sup

/-- The subscriber records and the store are as before. -/
abbrev SameSubscribers (s t : State) : Prop := t.chip.subs = s.chip.subs ∧ t.chip.store = s.chip.store

/-- The clock and the pass are as before. -/
abbrev SameTime (s t : State) : Prop := t.chip.clock = s.chip.clock ∧ t.chip.pass = s.chip.pass

/-- The line-up, its sweep and the blackouts are as before. -/
abbrev SameLineUp (s t : State) : Prop := t.chip.lineUp = s.chip.lineUp ∧ t.chip.sweep = s.chip.sweep

/-- Part state, Memory Path and Tenure Engine are as before, but that an IDLE engine may have become REQUESTING. -/
abbrev SameBus (s t : State) : Prop :=
  t.chip.part = s.chip.part ∧ t.chip.path = s.chip.path ∧ t.chip.drawn = s.chip.drawn
    ∧ t.chip.engine = { s.chip.engine with request := t.chip.engine.request }
    ∧ (t.chip.engine.request = s.chip.engine.request
      ∨ (s.chip.engine.request = .idle ∧ t.chip.engine.request = .requesting))

/-- The orders and the journal are as before. -/
abbrev SameQueues (s t : State) : Prop := t.chip.orders = s.chip.orders ∧ t.chip.journal = s.chip.journal

/-! ### Resets -/

/-- The carrier timer of an UNSETTLED carrier at a level of its input (R60). -/
abbrev unsettledTimer (high : Bool) : CarrierTimer := if high = true then .high else .low

/-- Every block is at its power-on value but for the part-level state, the Memory Path and the Tenure Engine; of a branch
link the carrier input keeps its level, and the carrier timer is the one given for that level. -/
def BlocksReset (timing : Bool → CarrierTimer) (s t : State) : Prop :=
  t.chip.lineUp = LineUpEngine.reset ∧ t.chip.subs = Vector.replicate 2048 Subscriber.reset
    ∧ t.chip.store = Store.reset ∧ t.chip.ports = Vector.replicate 2560 Port.reset ∧ t.chip.sweep = none
    ∧ (∀ b, b < 4 → t.chip.branch b = { Branch.reset with
        input := (s.chip.branch b).input, timing := timing (s.chip.branch b).input })
    ∧ t.chip.elements = Vector.replicate 640 Element.reset ∧ t.chip.plant = Plant.reset
    ∧ t.chip.rack = Rack.reset ∧ t.chip.sources = Vector.replicate 32 Source.reset
    ∧ t.chip.outages = OutageTable.reset ∧ t.chip.clock = Clock.reset ∧ t.chip.pass = Pass.reset
    ∧ t.chip.orders = OrderTaker.reset ∧ t.chip.journal = Journal.reset

/-! ### Blackouts (R16, R17) -/

/-- Is a blackout entry active at a minute number: from its start minute on and before its end minute, and not while the
minute number is NONE (R16)? -/
def activeNow (e : Blackout) : Option Nat → Bool
  | some n => decide (e.start ≤ n ∧ n < e.stop)
  | none => false

/-- The blackout list in force is evaluated for a minute number: every entry's activity is that of R16, and the blackout
zone set of a position is the union of the zone sets of its active entries. -/
def BlackoutsAt (c : Chip) (now : Option Nat) : Prop :=
  c.lineUp.active = c.lineUp.current.blackouts.map (fun e => activeNow e now)
    ∧ ∀ q z, q < 64 → z < 8 → ((vget c.lineUp.zones q).getLsbD z = true ↔
        ∃ e ∈ c.lineUp.current.blackouts, e.position = q ∧ activeNow e now = true ∧ e.zones.getLsbD z = true)

/-- The affected zones of an evaluation for a minute number: those of the entries whose activity differs from their last
evaluation (R17). -/
def affectedZone (c : Chip) (now : Option Nat) (z : Nat) : Prop :=
  ∃ (k : Nat) (e : Blackout) (was : Bool), c.lineUp.current.blackouts[k]? = some e ∧ c.lineUp.active[k]? = some was
    ∧ was ≠ activeNow e now ∧ e.zones.getLsbD z = true

/-- An evaluation for a minute number, handed to the Port Table: of the Line-Up Engine the activity and the zone sets
alone change; a port whose owner's taken zone is affected has the desired state of R33 under the new zone sets, and every
other port's desired state stays (R17, R34). -/
def BlackoutsEvaluated (s t : State) (now : Option Nat) : Prop :=
  BlackoutsAt t.chip now
    ∧ t.chip.lineUp = { s.chip.lineUp with active := t.chip.lineUp.active, zones := t.chip.lineUp.zones }
    ∧ t.chip.sweep = s.chip.sweep
    ∧ ∀ p, p < 2560 → (t.chip.port p).owner = (s.chip.port p).owner
      ∧ (∀ i, (s.chip.port p).owner = some i → affectedZone s.chip now (s.chip.sub i).taken.zone →
          (t.chip.port p).desired = t.chip.desiredOf p)
      ∧ ((∀ i, (s.chip.port p).owner = some i → ¬ affectedZone s.chip now (s.chip.sub i).taken.zone) →
          (t.chip.port p).desired = (s.chip.port p).desired)

/-! ### Writes of a tenure -/

/-- The byte that a list of writes, each of bytes from an address on, leaves at an address: the last write that covers
it, if one does. -/
def writtenByte : List (Nat × List Byte) → Nat → Option Byte
  | [], _ => none
  | (a, bs) :: l, x => (writtenByte l x).or (if a ≤ x then bs[x - a]? else none)

/-- What the transfers of a tenure write, in the order taken: a fill read nothing, a journal entry its bytes at its ring
slot (R154, R155), the checkpoint its record in the CONFIG region (R116, R184), a write-back the live section (R36). -/
def Chip.tenureWrites (c : Chip) (k : Tenure) : List (Nat × List Byte) :=
  List.replicate k.fillReads (0, [])
    ++ (c.journal.queue.take k.entries).map (fun q =>
      (c.config.journalRing.base + 32 * (q.ring.toNat % c.config.journalCapacity), q.entry.bytes q.ring))
    ++ k.checkpoint.toList.map (fun x => (c.configBase + 128, x.1.bytes x.2.1 x.2.2))
    ++ (if k.writeBack then
      c.store.copy.toList.map fun x => (c.config.subscriber.base + 128 * x.1 + 32, x.2.bytes) else [])

/-- The array holds what a list of writes left, and every other byte as before. -/
def ArrayWritten (s t : State) (l : List (Nat × List Byte)) : Prop :=
  ∀ x, Memory.read t.array x = (writtenByte l x).getD (Memory.read s.array x)

/-- A notice of the current minute about no subscriber has been offered: it has joined the tail of the queue, or was
dropped and counted (R153). -/
def NoticeOffered (c d : Chip) (index : Nat) (body : EntryBody) : Prop :=
  (c.journal.queue.length < 56 → d.journal = { c.journal with
      queue := c.journal.queue
        ++ [{ entry := { index := index, minute := c.clock.minute, account := 0, amount := 0, cycle := 0, body := body }
              ring := 0, writing := false }] })
    ∧ (56 ≤ c.journal.queue.length → d.journal = { c.journal with dropped := c.journal.dropped + 1 })

/-- A tenure that writes journal entries alone, none of them the notice of a closing outage, is under way, and its end
frees a slot of a queue within its capacity. -/
abbrev EntriesUnderWay (s : State) (n : Nat) : Prop :=
  s.chip.engine.request = .holding
    ∧ s.chip.engine.tenure = some { fillReads := 0, entries := n, checkpoint := none, writeBack := false }
    ∧ 1 ≤ n ∧ s.chip.journal.queue.length ≤ 64
    ∧ (s.chip.journal.queue.take n).all (fun q => match q.entry.body with
      | .outageClosed .. => false
      | _ => true) = true

/-- The last fill reads of the stage under way, n of them, are a tenure under way. -/
abbrev LastReads (s : State) (n : Nat) : Prop :=
  s.chip.part.state = .fill ∧ s.chip.fillReads = n ∧ 1 ≤ n ∧ s.chip.engine.request = .holding
    ∧ s.chip.engine.tenure = some { fillReads := n, entries := 0, checkpoint := none, writeBack := false }

/-! ### Captured take words -/

/-- The valid marks after a host write to a captured 16-bit word: in FILL its written bytes are marked, and no other
byte's mark changes (R169, R183). -/
def MarksAfter (s t : State) (a : Nat) (h : HalfWrite) : Prop :=
  ∀ x, Memory.read t.chip.part.marks x =
    if s.chip.part.state = .fill ∧ ((x = a ∧ h.lo = true) ∨ (x = a + 1 ∧ h.hi = true)) then 1
    else Memory.read s.chip.part.marks x

/-! ### Marked objects and closed records (R84, R86, R88) -/

/-- An object is marked unrecorded and still failing: an in-use element in state FAILING, or a source whose outage is
open (R88). -/
def MarkedFailing (c : Chip) (kind : OutageKind) (object : Nat) : Prop :=
  c.markOf kind object ≠ none ∧ match kind with
    | .plant => object < 640 ∧ (c.element object).record.inUse = true ∧ (c.element object).sup.state = .failing
    | .source => object < 32 ∧ (c.source object).state = .tripped

/-- The marked object that a free place serves: the first still failing one, elements before sources, each in index
order (R88). -/
def FirstMarked (c : Chip) (kind : OutageKind) (object : Nat) : Prop :=
  MarkedFailing c kind object ∧ match kind with
    | .plant => ∀ e, e < object → ¬ MarkedFailing c .plant e
    | .source => (∀ e, ¬ MarkedFailing c .plant e) ∧ ∀ k, k < object → ¬ MarkedFailing c .source k

/-- From c to d a record has opened behind the records kept: OPEN under the next id with its affected count, the
object's mark cleared, OUTAGE OPENED offered, and the next id one that no record holds (R83, R84). -/
def RecordOpened (c d : Chip) (kept : List Outage) (kind : OutageKind) (object : Nat) (start : Option Nat) : Prop :=
  d.outages.records = kept ++ [{ id := c.outages.nextId, kind := kind, object := object, state := .opened
                                 start := start, stop := none, affected := c.affected kind object, cause := .none
                                 acknowledged := false }]
    ∧ (∀ x ∈ d.outages.records, x.id ≠ d.outages.nextId) ∧ d.markOf kind object = none
    ∧ NoticeOffered c d object (.outageOpened c.outages.nextId kind start (c.affected kind object))

/-- From c to d record x, between the records before and after it, has become CLOSED (R86): it is freed if its flag is
set; then a marked object still failing is served with its place, or with the CLOSED record; then an opening that waited
on its object proceeds if the object is still failing. -/
def ClosedServes (c d : Chip) (before after : List Outage) (x : Outage) : Prop :=
  let kept := if x.acknowledged = true then before ++ after else before ++ { x with state := .closed } :: after
  let mine := fun w : Opening => w.kind = x.kind ∧ w.object = x.object
  let unmarked := ∀ kind object, ¬ MarkedFailing c kind object
  let unwaited := ∀ w ∈ c.outages.waiting, ¬ mine w
  let opened := fun (kind : OutageKind) (object : Nat) (start : Option Nat) =>
    (kept.length < 64 → RecordOpened c d kept kind object start)
      ∧ (kept.length = 64 → x.acknowledged = false → (∀ y ∈ before, y.state ≠ .closed) →
          RecordOpened c d (before ++ after) kind object start)
  (unmarked → unwaited → d.outages = { c.outages with records := kept } ∧ d.journal = c.journal
      ∧ d.elements = c.elements)
    ∧ (unwaited → ∀ kind object m, FirstMarked c kind object → c.markOf kind object = some m →
        opened kind object m.start ∧ d.outages.waiting = c.outages.waiting)
    ∧ (unmarked → ∀ (w0 w1 : List Opening) (w : Opening), c.outages.waiting = w0 ++ w :: w1 → mine w →
        (∀ y ∈ w0 ++ w1, ¬ mine y) → d.outages.waiting = w0 ++ w1
          ∧ (c.stillFailing w.kind w.object = true → opened w.kind w.object w.start)
          ∧ (c.stillFailing w.kind w.object = false → d.outages.records = kept ∧ d.journal = c.journal))

/-! ### Plant takes (R71), for a part c whose mirror holds the plant taken -/

/-- The class of an element (R71 step 1). -/
def Chip.classAt (c : Chip) (e : Nat) : Class := classOf c.elements c.mirrorElements e

/-- Under the new table, has the element an ancestor that is unchanged and FAILING? -/
def Chip.failedAbove (c : Chip) (e : Nat) : Bool :=
  (ancestorsFrom c.mirrorElements 640 e).any fun a =>
    c.classAt a == .unchanged && (c.element a).sup.state == .failing

/-- The supervision record step 4 leaves: fresh for a changed or new element, and for a removed one (log 51); with its
level counts cleared for an unchanged AMPLIFIER whose levels changed; otherwise as it stood. -/
def Chip.supAfterReset (c : Chip) (e : Nat) : SupRecord :=
  let was := (c.element e).record
  let now := mirrorElement c.plant.mirror e
  match c.classAt e with
  | .absent => (c.element e).sup
  | .added => SupRecord.fresh
  | .changed => SupRecord.fresh
  | .removed => SupRecord.fresh
  | .unchanged =>
    if now.kind = .amplifier ∧ (was.arm ≠ now.arm ∨ was.trigger ≠ now.trigger) then
      { (c.element e).sup with low := 0, high := 0 }
    else (c.element e).sup

/-- Does step 5 make the element SUPPRESSED? -/
def Chip.nowSuppressed (c : Chip) (e : Nat) : Bool :=
  e < 640 && (mirrorElement c.plant.mirror e).inUse && c.failedAbove e && (c.supAfterReset e).state != .suppressed

/-- The supervision record steps 4 and 5 leave. -/
def Chip.supAfterTake (c : Chip) (e : Nat) : SupRecord :=
  let r := c.supAfterReset e
  if c.nowSuppressed e then { r with state := .suppressed, answered := 0, unanswered := 0 }
  else if (mirrorElement c.plant.mirror e).inUse && !c.failedAbove e && r.state == .suppressed then SupRecord.fresh
  else r

/-- Is the record withdrawn by step 3? -/
def Chip.withdrawn (c : Chip) (r : Outage) : Bool :=
  r.kind == .plant && (r.state == .opened || r.state == .covered) && (c.classAt r.object).lost

/-- An outage record after the take: withdrawn by step 3, covered where step 5 suppresses its element, or as before. -/
def Chip.recordAfterTake (c : Chip) (r : Outage) : Outage :=
  if c.withdrawn r then { r with state := .closing, stop := c.now, cause := .withdrawn }
  else if r.kind == .plant && r.state == .opened && c.nowSuppressed r.object then { r with state := .covered }
  else r

/-- The OUTAGE CLOSED notices of step 3, in index order of the elements (log 50). -/
def Chip.withdrawalNotices (c : Chip) : List Queued :=
  (List.range 640).flatMap fun e => (c.outages.records.filter fun r => r.object == e && c.withdrawn r).map fun r =>
    { entry := { index := e, minute := c.now, account := 0, amount := 0, cycle := 0
                 body := .outageClosed r.id .plant r.start c.now .withdrawn }
      ring := 0, writing := false }

/-- The repoll list of branch b after the take: removed, moved and SUPPRESSED elements have left it, and those that have
become UNVERIFIED have joined it in index order (R58, R71 step 6). -/
def Chip.repollAfterTake (c : Chip) (b : Nat) : List Nat :=
  let moved := fun e => c.classAt e == .changed && rootFrom c.elements e != rootFrom c.mirrorElements e
  let stays := fun e => !c.nowSuppressed e && c.classAt e != .removed && !moved e
  let joins := fun e => 4 ≤ e && (mirrorElement c.plant.mirror e).inUse && (c.supAfterTake e).state == .unverified
    && ((c.classAt e).fresh || (c.element e).sup.state == .suppressed) && rootFrom c.mirrorElements e == b
  let old := (c.branch b).repoll
  old.filter stays ++ (List.range 640).filter fun e => joins e && !(old.contains e && stays e)

/-- A port after the take, where no exchange concerns it: PARKED unless its element is an in-use TAP that is ANSWERING,
or the port is IN FLIGHT (R52, R71 step 6). -/
def Chip.portAfterTake (c : Chip) (p : Nat) : Port :=
  let r := mirrorElement c.plant.mirror (p / 4)
  if (r.inUse && r.kind == .tap && (c.supAfterTake (p / 4)).state == .answering)
    || (c.port p).condition == .inFlight then c.port p
  else { c.port p with condition := .parked }

/-! ### Orders -/

/-- An order is in the working copy of a RUNNING part whose ring has a capacity of 1 to 256 slots. -/
abbrev OrderTaken (s : State) (o : Order) : Prop :=
  s.chip.running = true ∧ s.chip.orders.work = some o ∧ 0 < s.chip.config.orderCapacity
    ∧ s.chip.config.orderCapacity ≤ 256

/-- The order in hand has ended with a code: the outcome word of its slot shows the code and the order's index, the
head is past it, and it is counted done or refused (R150, R151). -/
def OrderFinished (s t : State) (code : OutcomeCode) : Prop :=
  let k := s.chip.orders.head.toNat % s.chip.config.orderCapacity
  vget t.chip.orders.outcomes k = { code := code, index := s.chip.orders.head }
    ∧ (∀ j, j ≠ k → vget t.chip.orders.outcomes j = vget s.chip.orders.outcomes j)
    ∧ t.chip.orders.head = s.chip.orders.head + 1 ∧ t.chip.orders.tail = s.chip.orders.tail
    ∧ t.chip.orders.mirror = s.chip.orders.mirror
    ∧ t.chip.orders.done = (if code = .done then s.chip.orders.done + 1 else s.chip.orders.done)
    ∧ t.chip.orders.refused = (if code = .done then s.chip.orders.refused else s.chip.orders.refused + 1)

/-- An order of the store's has been refused: it has ended with its code, and of everything else only the store's turn
moved (R120, R151). -/
def OrderRefused (s t : State) (code : OutcomeCode) : Prop :=
  OrderFinished s t code ∧ t.chip.subs = s.chip.subs ∧ t.chip.store = { s.chip.store with turn := t.chip.store.turn }
    ∧ SameLinks s t ∧ SameSupervision s t ∧ SameTime s t ∧ SameLineUp s t ∧ SameBus s t
    ∧ t.chip.journal = s.chip.journal ∧ SameOutside s t

end Sys2Proof.Machine
end

