-- ==== Sys2Proof/WellFormed.lean ====
section
/-! DEFINITION. Which commands are well formed: the checks an operand must pass to name something the part has. -/

namespace Sys2Proof

/-- A burst transfers 1 to 4 words (R162, R163: a cut comes before the fourth word). -/
def burstLengthOk (words : Nat) : Bool := 1 ≤ words && words ≤ 4

/-- A host write to a 16-bit word touches at least one of its bytes (R3, R24, R149). -/
def touchesWord (h : HalfWrite) : Bool := h.lo || h.hi

/-- A tenure holds at most 16 transfers, each of at least one burst (R173). -/
def begunOk (begun : Nat) : Bool := begun ≤ 16

/-- The records are 0 to 2047 (00_scope.md). -/
def recordOk (i : Nat) : Bool := i < 2048

/-- The order slots are 0 to 255 (R148). -/
def slotOk (slot : Nat) : Bool := slot < 256

/-- A received frame holds bytes. -/
def receivedOk (bytes : List Byte) : Bool := !bytes.isEmpty

/-- The well-formed commands. -/
def Instr.wellFormed : Instr → Bool
  | .powerOn _ => true
  | .resetPin _ begun => begunOk begun
  | .modeSet _ _ => true
  | .activate _ _ => true
  | .read _ _ words => burstLengthOk words
  | .readAutoPrecharge _ _ words => burstLengthOk words
  | .write _ _ _ _ _ _ words => burstLengthOk words
  | .writeAutoPrecharge _ _ _ _ _ _ words => burstLengthOk words
  | .precharge _ => true
  | .prechargeAll => true
  | .refresh => true
  | .selfRefreshEntry => true
  | .selfRefreshExit => true
  | .burstTerminate => true
  | .noOperation => true
  | .busGrant => true
  | .tenureComplete => true
  | .configRetake _ h => touchesWord h
  | .lineUpTakeRequest h => touchesWord h
  | .plantTakeRequest h => touchesWord h
  | .revisionWrite i h => recordOk i && touchesWord h
  | .revisionTake => true
  | .takeResume => true
  | .sweepVisit => true
  | .writeBack => true
  | .branchFrameSent _ => true
  | .branchReplyReceived _ bytes => receivedOk bytes
  | .branchFrameRejected _ => true
  | .branchReplyWindowClosed _ => true
  | .carrierLost _ => true
  | .carrierPresent _ => true
  | .rackFrameSent => true
  | .rackReplyReceived bytes => receivedOk bytes
  | .rackFrameRejected => true
  | .rackReplyWindowClosed => true
  | .sec1Edge => true
  | .minuteEvent => true
  | .secondsLossTimeout => true
  | .passVisit => true
  | .passResume => true
  | .orderKindWrite slot h => slotOk slot && touchesWord h
  | .orderTailWrite h => touchesWord h
  | .journalHeadWrite h => touchesWord h
  | .unknownKind => true
  | .purchase => true
  | .cancelPurchase => true
  | .adjust => true
  | .adjustResume => true
  | .resend => true
  | .repoll => true
  | .acknowledgeOutage => true
  | .setClock => true
  | .nextCycle => true
  | .carrierInputChange _ _ => true

end Sys2Proof
end

