-- ==== Sys2Proof/Certificates/Slice0/Obligations.lean ====
section
/-! DEFINITION. The statements for the provers. Each docstring names the rules of spec/ it rests on. -/

open Sys2Proof Sys2Proof.Machine

/-! ### The machine as a whole -/

/-- The command at the front of the queue is the one that runs, on the state with the queue's rest; an empty queue
idles (the model's choice, log 1). -/
def Obligations.StepRunsFrontCommand : Prop :=
  (∀ (c : Instr) (rest : List Instr) (s : State), s.pending = c :: rest →
      step s = exec c { s with pending := rest })
    ∧ ∀ s : State, s.pending = [] → step s = .next s

/-- Every well-formed command answers a next state in every state, and leaves the waiting commands as they are (that
none stops where the part is not ready for it is the model's choice, log 2); the two stops of the model are for a
record index past 2047 and an order slot past 255, which name no word. -/
def Obligations.WellFormedCommandsRun : Prop :=
  (∀ (c : Instr) (s : State), c.wellFormed = true → ∃ t, exec c s = .next t ∧ t.pending = s.pending)
    ∧ (∀ (i : Nat) (h : HalfWrite) (s : State), 2048 ≤ i → exec (.revisionWrite i h) s = .fault .noSuchRecord)
    ∧ ∀ (k : Nat) (h : HalfWrite) (s : State), 256 ≤ k → exec (.orderKindWrite k h) s = .fault .noSuchSlot

/-- Every step keeps the array in the canonical form of memory. -/
def Obligations.StepKeepsArrayCanonical : Prop :=
  ∀ s t : State, ArrayCanonical s → step s = .next t → ArrayCanonical t

/-- No step leaves a link, the Order Taker or the Tenure Engine with something to select, take or request (R41, R93,
R150, R172). That these follow at the end of each whole operation is the model's choice (log 8). -/
def Obligations.StepKeepsNothingToSelect : Prop :=
  ∀ s t : State, Settled s → step s = .next t → Settled t

/-- Every step keeps the on-chip journal queue at 64 entries or fewer (R153). -/
def Obligations.StepKeepsQueueBounded : Prop :=
  ∀ s t : State, QueueBounded s → step s = .next t → QueueBounded t

/-- The state after reset meets the three invariants. -/
def Obligations.ResetMeetsInvariants : Prop :=
  ArrayCanonical State.reset ∧ Settled State.reset ∧ QueueBounded State.reset

/-- What the reset tables state of the machine after power-on, where they state a value (R20, R39, R40, R65, R91, R92,
R108, R124, R159, R160, R177, R187). An empty mirror lists no byte. The reset cause POWER is the model's choice (logs
14, 39). -/
def Obligations.ResetStateAsTabled : Prop :=
  let c := State.reset.chip
  (c.part.state = .awaitMode ∧ c.part.fault = .none ∧ c.part.stage = .none ∧ c.part.cause = .power
      ∧ c.part.config = none ∧ c.part.mapInForce = false ∧ c.part.startView = [] ∧ c.part.marks = []
      ∧ c.part.cfgsel = c.part.strap)
    ∧ (c.path.mem = .normal ∧ c.path.cas = none ∧ c.path.blind = 0 ∧ c.path.guarded = 0 ∧ c.path.mark = none
      ∧ (∀ b, b < 4 → vget c.path.banks b = none) ∧ c.engine.request = .idle ∧ c.engine.count = 0
      ∧ c.engine.checkpoint = none ∧ c.engine.tenure = none ∧ c.transferPending = false)
    ∧ (c.lineUp.mirror = [] ∧ c.lineUp.gen = none ∧ c.lineUp.held = false
      ∧ (∀ q, q < 64 → (c.effective q).source = none ∧ vget c.lineUp.zones q = 0)
      ∧ ∀ a ∈ c.lineUp.active, a = false)
    ∧ (c.plant.mirror = [] ∧ c.plant.gen = none
      ∧ (∀ e, e < 640 → (c.element e).record.inUse = false ∧ (c.element e).mark = none
        ∧ (c.element e).heard = none ∧ (c.element e).doubt = false)
      ∧ c.outages.records = [] ∧ c.outages.nextId = 0 ∧ ∀ k, k < 32 → vget c.outages.marks k = none)
    ∧ (c.store.queue = [] ∧ c.store.cursor = 0 ∧ c.store.copy = none ∧ c.sweep = none
      ∧ (∀ i, i < 2048 → (c.sub i).dirty = false ∧ (c.sub i).filled = false)
      ∧ ∀ p, p < 2560 → (c.port p).condition = .parked ∧ (c.port p).owner = none ∧ (c.port p).desired = .off
        ∧ (c.port p).mismatch = 0)
    ∧ (∀ b, b < 4 → (c.branch b).link = .silent ∧ (c.branch b).hold = none ∧ (c.branch b).dirty = []
        ∧ (c.branch b).repoll = [] ∧ (c.branch b).cursor = none ∧ (c.branch b).run = 0
        ∧ (c.branch b).carrier = .unsettled ∧ (c.branch b).exchanges = 0 ∧ (c.branch b).unanswered = 0
        ∧ (c.branch b).rejected = 0)
    ∧ (c.rack.link = .silent ∧ c.rack.hold = none ∧ c.rack.pendingList = [] ∧ c.rack.cursor = none
      ∧ c.rack.owed = false ∧ c.rack.exchanges = 0 ∧ c.rack.unanswered = 0 ∧ c.rack.rejected = 0
      ∧ (∀ q, q < 64 → (c.point q).confirmed = .unknown ∧ (c.point q).mismatch = 0 ∧ (c.point q).condition = .idle)
      ∧ ∀ k, k < 32 → (c.source k).state = .unarmed ∧ (c.source k).low = 0 ∧ (c.source k).high = 0
        ∧ (c.source k).lowStart = none ∧ (c.source k).lastLevel = none ∧ (c.source k).lastUnanswered = false)
    ∧ (c.clock.state = .unset ∧ c.clock.minute = none ∧ c.clock.seconds = 0 ∧ c.clock.lossTimer = false
      ∧ c.clock.backlog = 0 ∧ c.clock.nextPass = none ∧ c.clock.dropped = 0 ∧ c.pass.state = .idle
      ∧ c.pass.cursor = 0 ∧ c.pass.minute = none ∧ c.pass.point = none)
    ∧ (c.journal.queue = [] ∧ c.journal.dropped = 0 ∧ c.attn = false ∧ c.orders.mirror = [] ∧ c.orders.taking = .idle
      ∧ c.orders.work = none ∧ c.orders.done = 0 ∧ c.orders.refused = 0)

/-! ### Resets and the part state -/

/-- POWER_ON: AWAIT MODE with reset cause POWER and CFGSEL sampled, every block at its power-on value, each branch
link SILENT with an empty holding stage, empty lists, counts 0 and an UNSETTLED carrier whose timer is restarted; the
array and the waiting commands as before (R65, R177 to R179; the array's keeping is log 4). That the carrier pins keep
their level is log 13, and that a burst in progress is gone log 56. -/
def Obligations.PowerOnResetsEveryBlock : Prop :=
  ∀ (strap : BitVec 4) (s : State), ∃ t, exec (.powerOn strap) s = .next t
    ∧ t.chip.part = Part.reset strap .power ∧ t.chip.path = MemPath.reset ∧ t.chip.engine = Engine.reset
    ∧ BlocksReset unsettledTimer s t
    ∧ t.array = s.array ∧ t.lines = { readData := [], arrayCmds := [] } ∧ t.pending = s.pending

/-- RESET_PIN: AWAIT MODE with reset cause PIN, every block at its power-on value, the carriers UNSETTLED with their
timers restarted (R65, R177), the Memory Path too but for a burst in progress, which goes on (R168). With no tenure
under way the array is unchanged; with one, the first transfers, those already begun, are written whole, each with its
bytes at its address, and no other byte changes (R152, R154, R180, R184). How many have begun is an operand of the
command (the model's choice, log 32); that the burst goes on like a blind one is the model's choice (log 56), and that
the carrier pins keep their level log 13. -/
def Obligations.ResetPinFinishesBegunTransfers : Prop :=
  ∀ (strap : BitVec 4) (begun : Nat) (s : State), ∃ t, exec (.resetPin strap begun) s = .next t
    ∧ t.chip.part = Part.reset strap .pin ∧ t.chip.engine = Engine.reset ∧ BlocksReset unsettledTimer s t
    ∧ t.chip.path = { MemPath.reset with burst := t.chip.path.burst }
    ∧ (s.chip.path.burst = none → t.chip.path.burst = none)
    ∧ (∀ b, s.chip.path.burst = some b → t.chip.path.burst = some { b with blind := true })
    ∧ t.pending = s.pending
    ∧ (s.chip.engine.request ≠ .holding → t.array = s.array)
    ∧ ∀ k : Tenure, ArrayCanonical s → s.chip.engine.request = .holding → s.chip.engine.tenure = some k →
        ArrayWritten s t ((s.chip.tenureWrites k).take begun) ∧ (begun = 0 → t.array = s.array)

/-- MODE_SET by part state, valid or not, with the validity of R165 in the address bits; the bank table, the array and
the waiting commands stay (R165, R179). -/
def Obligations.ModeSetByPartState : Prop :=
  ∀ (addr : BitVec 13) (bank : BitVec 2) (s : State), BusFree s →
    ∃ t, exec (.modeSet addr bank) s = .next t ∧ t.lines.arrayCmds = [.forward (.modeSet addr bank)]
      ∧ t.chip.path.banks = s.chip.path.banks ∧ t.array = s.array ∧ t.pending = s.pending
      ∧ (modeValid addr = true ↔
          addr.toNat % 8 = 2 ∧ addr.toNat / 8 % 2 = 0 ∧ (addr.toNat / 16 % 8 = 2 ∨ addr.toNat / 16 % 8 = 3)
            ∧ addr.toNat / 128 % 4 = 0 ∧ addr.toNat / 512 % 2 = 0)
      ∧ (modeValid addr = true →
          t.chip.path.cas = some (BitVec.ofNat 3 (addr.toNat / 16))
            ∧ (s.chip.part.state = .awaitMode → t.chip.part.state = .fill ∧ t.chip.part.fault = .none)
            ∧ (s.chip.part.state = .transparent →
                t.chip.part.state = .fill ∧ t.chip.part.cause = .modeRecovery ∧ t.chip.part.fault = .none)
            ∧ (s.chip.part.state = .fill ∨ s.chip.part.state = .running ∨ s.chip.part.state = .configFault →
                t.chip.part = s.chip.part))
      ∧ (modeValid addr = false →
          t.chip.path.cas = s.chip.path.cas
            ∧ (s.chip.part.state = .awaitMode ∨ s.chip.part.state = .transparent → t.chip.part = s.chip.part)
            ∧ (s.chip.part.state = .fill ∨ s.chip.part.state = .running ∨ s.chip.part.state = .configFault →
                t.chip.part.state = .transparent))

/-- An invalid MODE SET in FILL, RUNNING and CONFIG FAULT: TRANSPARENT, with fault code, reset cause and CFGSEL kept,
the configuration values, the start-up view and the valid marks discarded, the map out of force and ATTN asserted.
Every block's state is discarded, the links are silent with no exchange, the pending transfers are dropped, the
carriers are not timed; the bank table, memory state, CAS latency and counts are kept, the notice mark becomes NONE
(R65, R157, R166, R177, R187). The discarded blocks stand at their power-on values (log 37), the carrier pins keep
their level (log 13), and the last protected write stays (log 33): the model's choices. -/
def Obligations.InvalidModeSetSilencesThePart : Prop :=
  ∀ (addr : BitVec 13) (bank : BitVec 2) (s : State), BusFree s →
    s.chip.part.state = .fill ∨ s.chip.part.state = .running ∨ s.chip.part.state = .configFault →
    modeValid addr = false →
    ∃ t, exec (.modeSet addr bank) s = .next t ∧ t.chip.attn = true
      ∧ t.chip.part = { Part.reset s.chip.part.strap s.chip.part.cause with
          state := .transparent, fault := s.chip.part.fault, cfgsel := s.chip.part.cfgsel }
      ∧ BlocksReset (fun _ => .stopped) s t
      ∧ t.chip.path = { s.chip.path with mark := none }
      ∧ t.chip.engine = { Engine.reset with count := s.chip.engine.count } ∧ t.chip.transferPending = false
      ∧ t.lines = { readData := [], arrayCmds := [.forward (.modeSet addr bank)] } ∧ t.array = s.array
      ∧ t.pending = s.pending

/-- CONFIG_RETAKE: in CONFIG FAULT a write that touches the config take word samples CFGSEL and puts the part in FILL
at CONFIG BLOCK with cause CONFIG RETAKE and fault NONE, the map out of force, ATTN deasserted. Every block takes the
state its reset table gives for a config retake; the Memory Path keeps the memory state and the CAS latency, its bank
entries CLOSED and its counts 0, and the engine requests the fill's five reads where the memory state is NORMAL. In any
other part state the write requests nothing and the part stays as it was. In both the written bytes reach the array, and
no other byte changes (R20, R39, R40, R65, R91, R92, R108, R124, R157, R159, R160, R168, R172, R177, R186, R187). The
write stands alone (log 9), the carrier pins keep their level (log 13), five reads make the block (log 20). -/
def Obligations.ConfigRetakeOnlyInConfigFault : Prop :=
  ∀ (strap : BitVec 4) (h : HalfWrite) (s : State), BusFree s → (h.lo = true ∨ h.hi = true) →
    (s.chip.part.state = .configFault →
      ∃ t, exec (.configRetake strap h) s = .next t
        ∧ t.chip.part = { Part.reset strap .configRetake with state := .fill, stage := .configBlock }
        ∧ BlocksReset unsettledTimer s t
        ∧ t.chip.path = { MemPath.reset with mem := s.chip.path.mem, cas := s.chip.path.cas }
        ∧ t.chip.engine = { Engine.reset with
            request := if s.chip.path.mem = .normal then .requesting else .idle }
        ∧ t.chip.fillReads = 5 ∧ t.chip.attn = false
        ∧ (ArrayCanonical s → HalfWritten s.array t.array (s.chip.configBase + 68) h) ∧ t.pending = s.pending)
      ∧ (s.chip.part.state ≠ .configFault →
        ∃ t, exec (.configRetake strap h) s = .next t
          ∧ t.chip = s.chip.setPart { s.chip.part with strap := strap }
          ∧ (ArrayCanonical s → HalfWritten s.array t.array (s.chip.configBase + 68) h) ∧ t.pending = s.pending)

/-- ATTN in each part state (R157). -/
def Obligations.AttnFollowsTheRing : Prop :=
  ∀ c : Chip,
    (c.part.state = .running → (c.attn = true ↔ c.journal.tail ≠ c.journal.head))
      ∧ (c.part.state = .configFault ∨ c.part.state = .transparent → c.attn = true)
      ∧ (c.part.state = .awaitMode ∨ c.part.state = .fill → c.attn = false)

/-! ### The bank table and the bursts -/

/-- The bank table: ACTIVATE and PRECHARGE set one entry, PRECHARGE ALL and REFRESH close all four, BURST TERMINATE and
no-operation change none; each of these six is forwarded and changes nothing else of the part (R161). -/
def Obligations.BankTableFollowsTheCommands : Prop :=
  ∀ (bank : BitVec 2) (s : State), BusFree s →
    (∀ row : BitVec 13, ∃ t, exec (.activate bank row) s = .next t
        ∧ vget t.chip.path.banks bank.toNat = some row
        ∧ (∀ b, b ≠ bank.toNat → vget t.chip.path.banks b = vget s.chip.path.banks b)
        ∧ t.chip = s.chip.setPath { s.chip.path with banks := t.chip.path.banks }
        ∧ t.array = s.array ∧ t.pending = s.pending
        ∧ t.lines = { readData := [], arrayCmds := [.forward (.activate bank row)] })
      ∧ (∃ t, exec (.precharge bank) s = .next t
        ∧ vget t.chip.path.banks bank.toNat = none
        ∧ (∀ b, b ≠ bank.toNat → vget t.chip.path.banks b = vget s.chip.path.banks b)
        ∧ t.chip = s.chip.setPath { s.chip.path with banks := t.chip.path.banks }
        ∧ t.array = s.array ∧ t.pending = s.pending
        ∧ t.lines = { readData := [], arrayCmds := [.forward (.precharge bank)] })
      ∧ (∀ c : Instr, c = .prechargeAll ∨ c = .refresh →
        ∃ t, exec c s = .next t ∧ (∀ b, b < 4 → vget t.chip.path.banks b = none)
          ∧ t.chip = s.chip.setPath { s.chip.path with banks := t.chip.path.banks } ∧ t.array = s.array
          ∧ t.pending = s.pending ∧ t.lines = { readData := [], arrayCmds := [.forward c] })
      ∧ ∀ c : Instr, c = .burstTerminate ∨ c = .noOperation →
        ∃ t, exec c s = .next t ∧ t.chip = s.chip ∧ t.array = s.array ∧ t.pending = s.pending
          ∧ t.lines = { readData := [], arrayCmds := [.forward c] }

/-- Bursts. The four words lie in the aligned group of four columns, wrapping within it; the example of R162. A burst
with words left is cut by BURST TERMINATE, PRECHARGE ALL, a PRECHARGE of its bank and every READ or WRITE: the command
does what it does after the burst, its bank closed with auto-precharge, the words beyond the cut neither driven nor
written. A PRECHARGE of another bank and no-operation let it go on by one word. A WRITE cut after n words leaves part
and array as a whole WRITE with the other words masked does: a take word beyond the cut makes no event, one before it
does. An order tail transferred before the cut is taken or held back at the cut, its word driven before the cutting
command (R149, R161 to R163, R168 to R170). How many words pass between commands is the model's choice (log 7), and so
is an index word passed or held back whole (log 34). -/
def Obligations.BurstsKeepTheirGroupAndTheirCut : Prop :=
  (List.range 4).map (fun k => burstAddr 2 1000 6 k / 4) = [2049030, 2049031, 2049028, 2049029]
    ∧ (∀ (bank : BitVec 2) (row : BitVec 13) (col : BitVec 9) (k : Nat),
      burstAddr bank row col k / 16 = burstAddr bank row col 0 / 16
        ∧ burstAddr bank row col 0 = 4 * ((row.toNat * 4 + bank.toNat) * 512 + col.toNat)
        ∧ (k < 4 → burstAddr bank row col k + 3 < Config.arrayBytes)
        ∧ (k < 3 → col.toNat % 4 + k < 3 → burstAddr bank row col (k + 1) = burstAddr bank row col k + 4))
    ∧ (∀ (c : Instr) (b : Burst) (s : State), s.chip.engine.request ≠ .holding → s.chip.path.burst = some b →
      b.next < 4 → b.events = [] →
      let idle := s.chip.setPath { s.chip.path with burst := none }
      let ended := if b.autoPrecharge = true then idle.closeBank b.bank else idle
      (c = .burstTerminate ∨ c = .prechargeAll ∨ c = .precharge b.bank
          ∨ (∃ bank col n, c = .read bank col n ∨ c = .readAutoPrecharge bank col n)
          ∨ (∃ bank col w0 w1 w2 w3 n,
            c = .write bank col w0 w1 w2 w3 n ∨ c = .writeAutoPrecharge bank col w0 w1 w2 w3 n) →
          exec c s = exec c (s.setChip ended))
        ∧ (c = .burstTerminate → ∃ t, exec c s = .next t ∧ t.chip = ended ∧ t.array = s.array
          ∧ t.lines = { readData := [], arrayCmds := [.forward c] } ∧ t.pending = s.pending)
        ∧ (c = .prechargeAll ∨ c = .precharge b.bank → ∃ t, exec c s = .next t ∧ t.chip.path.burst = none
          ∧ vget t.chip.path.banks b.bank.toNat = none ∧ t.array = s.array
          ∧ t.lines = { readData := [], arrayCmds := [.forward c] } ∧ t.pending = s.pending)
        ∧ (∀ l, b.data = .reading l → b.blind = false → b.next < 3 →
          (c = .noOperation ∨ ∃ bank, bank ≠ b.bank ∧ c = .precharge bank) →
          ∃ t, exec c s = .next t ∧ t.chip.path.burst = some { b with next := b.next + 1 }
            ∧ t.lines = { readData := [l.getD b.next 0], arrayCmds := [.forward c] } ∧ t.array = s.array
            ∧ t.pending = s.pending))
    ∧ (∀ (auto : Bool) (bank : BitVec 2) (col : BitVec 9) (w0 w1 w2 w3 : WriteWord) (n : Nat) (s : State),
      BusFree s → Settled s → 1 ≤ n → n < 4 →
      let write := fun (x0 x1 x2 x3 : WriteWord) (k : Nat) =>
        if auto = true then Instr.writeAutoPrecharge bank col x0 x1 x2 x3 k else Instr.write bank col x0 x1 x2 x3 k
      let kept := fun (k : Nat) (w : WriteWord) => if k < n then w else { w with mask := 15 }
      ∃ t u v, exec (write w0 w1 w2 w3 n) s = .next t ∧ exec .burstTerminate t = .next u
        ∧ exec (write (kept 0 w0) (kept 1 w1) (kept 2 w2) (kept 3 w3) 4) s = .next v
        ∧ u.chip = v.chip ∧ u.array = v.array ∧ u.pending = v.pending)
    ∧ ∀ (b : Burst) (w : HostWord) (s : State), s.chip.engine.request ≠ .holding → s.chip.part.state = .running →
      s.chip.path.burst = some b → b.next < 4 → b.blind = false → b.events = [.orderTail w] →
      let x := candidate w s.chip.orders.tail
      let inRange := (x - s.chip.orders.head).toNat ≤ s.chip.config.orderCapacity
      ∃ t, exec .burstTerminate s = .next t ∧ t.chip.path.burst = none ∧ t.lines.readData = []
        ∧ (inRange → t.chip.orders.tail = x ∧ t.array = Memory.writeHost s.array 0 w
          ∧ t.lines.arrayCmds = [.forwardWord w, .forward .burstTerminate])
        ∧ (¬ inRange → t.chip.orders.tail = s.chip.orders.tail ∧ t.array = s.array
          ∧ t.chip.path.guarded = s.chip.path.guarded + 1
          ∧ t.lines.arrayCmds = [.forwardWord { w with mask := 15 }, .forward .burstTerminate])
        ∧ SameSubscribers s t ∧ SameTime s t ∧ SameLineUp s t ∧ t.pending = s.pending

/-- A READ of an open row answers each word transferred with the owner's value where the word is merged and with the
array's where it is not, all taken at the command; a whole READ changes nothing of the part, and one with auto-
precharge closes its bank. No word is merged in AWAIT MODE and TRANSPARENT; the config outcome word is from FILL on,
and a filled record's live section in FILL and RUNNING, whose state code reads as the fill read it until the rebuild
where it is none of the four (R38, R161 to R163, R168, R171). Words not yet transferred are left to later clocks (the
model's choice, log 7). A blind READ, with auto-precharge or without, passes words of one row of the array, whichever
row that is, and is counted (R164; the row is free, log 5). -/
def Obligations.ReadAnswersMergedWords : Prop :=
  (∀ (bank : BitVec 2) (row : BitVec 13) (col : BitVec 9) (words : Nat) (s : State), BusFree s →
    vget s.chip.path.banks bank.toNat = some row → 1 ≤ words → words ≤ 4 →
    (∃ t, exec (.read bank col words) s = .next t
        ∧ t.lines.readData = (List.range words).map (fun k => s.hostRead (burstAddr bank row col k))
        ∧ t.array = s.array ∧ t.pending = s.pending ∧ (words = 4 → t.chip = s.chip))
      ∧ ∃ t, exec (.readAutoPrecharge bank col words) s = .next t
        ∧ t.lines.readData = (List.range words).map (fun k => s.hostRead (burstAddr bank row col k))
        ∧ t.array = s.array ∧ t.pending = s.pending
        ∧ (words = 4 → t.chip = s.chip.closeBank bank ∧ vget t.chip.path.banks bank.toNat = none))
    ∧ (∀ (bank : BitVec 2) (col : BitVec 9) (words : Nat) (s : State), BusFree s →
      vget s.chip.path.banks bank.toNat = none → 1 ≤ words → words ≤ 4 →
      ∀ c : Instr, c = .read bank col words ∨ c = .readAutoPrecharge bank col words →
      ∃ t, exec c s = .next t ∧ t.chip.path.blind = s.chip.path.blind + 1
        ∧ (∃ row : BitVec 13, t.lines.readData =
            (List.range words).map (fun k => Memory.word s.array (burstAddr bank row col k)))
        ∧ (words = 4 → t.chip =
            (s.chip.setPath { s.chip.path with blind := s.chip.path.blind + 1 }).setDrawn (s.chip.drawn + 1))
        ∧ t.array = s.array ∧ t.pending = s.pending ∧ t.chip.path.guarded = s.chip.path.guarded)
    ∧ ∀ (s : State) (a : Nat),
      ((s.chip.part.state = .awaitMode ∨ s.chip.part.state = .transparent) → s.hostRead a = Memory.word s.array a)
        ∧ (s.chip.part.state = .fill ∨ s.chip.part.state = .running ∨ s.chip.part.state = .configFault →
            s.chip.kindOf a = .configOutcome → s.hostRead a = s.chip.part.word)
        ∧ ∀ i off, s.chip.kindOf a = .live i off →
            ((s.chip.part.state = .fill ∨ s.chip.part.state = .running) → (s.chip.sub i).filled = true →
                (s.chip.sub i).oddState = none →
                s.hostRead a = wordAt (s.chip.sub i).live.bytes off)
              ∧ (∀ code, (s.chip.part.state = .fill ∨ s.chip.part.state = .running) → (s.chip.sub i).filled = true →
                (s.chip.sub i).oddState = some code →
                s.hostRead a = wordAt ((s.chip.sub i).live.bytes.set 1 code) off)
              ∧ ((s.chip.part.state = .configFault ∨ (s.chip.sub i).filled = false) →
                s.hostRead a = Memory.word s.array a)

/-- A whole WRITE of an open row in AWAIT MODE or TRANSPARENT writes its unmasked bytes to the array at the burst's
addresses, and no other byte; the part is unchanged, or closes the bank with auto-precharge (R161, R162, R168). A blind
WRITE, with auto-precharge or without, does the same to one row of its bank, whichever row that is, in every part state:
nothing of it is captured or held back, and the blind-access count rises by one (R164; the row is free, log 5). -/
def Obligations.UnwatchedWritePasses : Prop :=
  ∀ (bank : BitVec 2) (col : BitVec 9) (w0 w1 w2 w3 : WriteWord) (s : State), BusFree s → ArrayCanonical s →
    let written := fun (row : BitVec 13) (m : Memory) =>
      (∀ k j, k < 4 → j < 4 → Memory.read m (burstAddr bank row col k + j) =
          if ([w0, w1, w2, w3].getD k w0).mask.getLsbD j then Memory.read s.array (burstAddr bank row col k + j)
          else lane ([w0, w1, w2, w3].getD k w0).data j)
        ∧ ∀ x, (∀ k, k < 4 → x < burstAddr bank row col k ∨ burstAddr bank row col k + 4 ≤ x) →
            Memory.read m x = Memory.read s.array x
    (∀ row : BitVec 13, vget s.chip.path.banks bank.toNat = some row →
      s.chip.part.state = .awaitMode ∨ s.chip.part.state = .transparent →
        (∃ t, exec (.write bank col w0 w1 w2 w3 4) s = .next t ∧ t.chip = s.chip ∧ written row t.array
          ∧ t.pending = s.pending)
        ∧ ∃ t, exec (.writeAutoPrecharge bank col w0 w1 w2 w3 4) s = .next t ∧ t.chip = s.chip.closeBank bank
          ∧ written row t.array ∧ t.pending = s.pending)
      ∧ (vget s.chip.path.banks bank.toNat = none → ∀ c : Instr,
          c = .write bank col w0 w1 w2 w3 4 ∨ c = .writeAutoPrecharge bank col w0 w1 w2 w3 4 →
        ∃ t, exec c s = .next t ∧ (∃ row : BitVec 13, written row t.array)
          ∧ t.chip = (s.chip.setPath { s.chip.path with blind := s.chip.path.blind + 1 }).setDrawn (s.chip.drawn + 1)
          ∧ t.pending = s.pending)

/-- Capture. In FILL and RUNNING a WRITE of a captured word reaches the array as written, and its unmasked bytes reach
the mirror at the same place; in FILL they are valid-marked, and the order tail written is the tail in force. A burst
of four intent words leaves all its bytes in the mirror, and a revision word among them queues its record at the
burst's end; a kind word makes its slot PENDING. In RUNNING the order tail and the journal head of one burst are
candidates handed on in burst order: each in range comes in force and reaches the array, each out of range is held
back and counted, the later of two held back being the last protected one (R24, R148, R149, R156, R163, R168 to R170,
R183). That the kind word is the two low bytes of its word (log 19), and that an index word passes or is held back
whole, its bytes 2 and 3 with it (log 34), are the model's choices. -/
def Obligations.WritesAreCaptured : Prop :=
  ∀ (bank : BitVec 2) (row : BitVec 13) (col : BitVec 9) (w0 w1 w2 w3 : WriteWord) (c : Instr) (s : State), BusFree s →
    Settled s → ArrayCanonical s →
    (∀ r ∈ [s.chip.config.subscriber, s.chip.config.lineUp, s.chip.config.plant, s.chip.config.orderRing],
      r.base % 64 = 0) → vget s.chip.path.banks bank.toNat = some row →
    (c = .write bank col w0 w1 w2 w3 4 ∨ c = .writeAutoPrecharge bank col w0 w1 w2 w3 4) →
    let a := burstAddr bank row col
    let ww := fun k : Nat => [w0, w1, w2, w3].getD k w0
    let hw := fun k : Nat => ({ addr := a k, data := (ww k).data, mask := (ww k).mask } : HostWord)
    let low := fun k : Nat => (ww k).mask.getLsbD 0 = false ∨ (ww k).mask.getLsbD 1 = false
    -- memory m' holds the burst's unmasked bytes, with keys less base and each byte put through f
    let holds := fun (m m' : Memory) (base : Nat) (f : Byte → Byte) =>
      (∀ k j, k < 4 → j < 4 → Memory.read m' (a k - base + j) =
          if (ww k).mask.getLsbD j then Memory.read m (a k - base + j) else f (lane (ww k).data j))
        ∧ ∀ x, (∀ k, k < 4 → x < a k - base ∨ a k - base + 4 ≤ x) → Memory.read m' x = Memory.read m x
    let alone := fun k : Nat => k < 4 ∧ ∀ j, j < 4 → j ≠ k → (ww j).mask = 15
    let marked := fun t : State => t.chip.part = { s.chip.part with marks := t.chip.part.marks }
      ∧ (s.chip.part.state = .running → t.chip.part = s.chip.part)
      ∧ (s.chip.part.state = .fill → Memory.wf s.chip.part.marks = true →
          holds s.chip.part.marks t.chip.part.marks 0 (fun _ => 1))
    let row' := if c = .write bank col w0 w1 w2 w3 4 then some row else none
    (s.chip.part.state = .fill ∨ s.chip.part.state = .running →
        ((∀ k, k < 4 → ∃ off, s.chip.kindOf (a k) = .intent off) → ∃ t, exec c s = .next t
            ∧ holds s.array t.array 0 id ∧ marked t ∧ vget t.chip.path.banks bank.toNat = row'
            ∧ (Memory.wf s.chip.store.mirror = true →
                holds s.chip.store.mirror t.chip.store.mirror s.chip.config.subscriber.base id)
            ∧ t.chip.store = { s.chip.store with mirror := t.chip.store.mirror, queue := t.chip.store.queue }
            ∧ (∀ k i, k < 4 → i < 2048 → s.chip.kindOf (a k) = .intent (128 * i) → low k → i ∉ s.chip.store.queue →
                t.chip.store.queue = s.chip.store.queue ++ [i] ∧ (t.chip.sub i).live.outcome = .pending
                  ∧ (t.chip.sub i).taken = (s.chip.sub i).taken
                  ∧ ∀ j, j ≠ i → t.chip.sub j = s.chip.sub j)
            ∧ (∀ k i, k < 4 → s.chip.kindOf (a k) = .intent (128 * i) → i ∈ s.chip.store.queue →
                t.chip.store.queue = s.chip.store.queue ∧ t.chip.subs = s.chip.subs)
            ∧ ((∀ k off, k < 4 → s.chip.kindOf (a k) = .intent off → off % 128 ≠ 0 ∨ ¬ low k) →
                t.chip.store.queue = s.chip.store.queue ∧ t.chip.subs = s.chip.subs)
            ∧ SameSupervision s t ∧ SameTime s t ∧ SameLineUp s t ∧ SameQueues s t ∧ t.pending = s.pending)
          ∧ ∀ k, alone k → (ww k).mask ≠ 15 →
            (∀ off, s.chip.kindOf (a k) = .lineUp off → off ≠ 0 → ∃ t, exec c s = .next t
                ∧ holds s.array t.array 0 id ∧ marked t
                ∧ t.chip.lineUp = { s.chip.lineUp with mirror := t.chip.lineUp.mirror }
                ∧ (Memory.wf s.chip.lineUp.mirror = true →
                    holds s.chip.lineUp.mirror t.chip.lineUp.mirror s.chip.config.lineUp.base id)
                ∧ t.chip.sweep = s.chip.sweep ∧ SameSupervision s t ∧ SameSubscribers s t ∧ SameTime s t)
              ∧ (∀ off, s.chip.kindOf (a k) = .plant off → off ≠ 0 → ∃ t, exec c s = .next t
                ∧ holds s.array t.array 0 id ∧ marked t
                ∧ t.chip.plant = { s.chip.plant with mirror := t.chip.plant.mirror }
                ∧ (Memory.wf s.chip.plant.mirror = true →
                    holds s.chip.plant.mirror t.chip.plant.mirror s.chip.config.plant.base id)
                ∧ t.chip.elements = s.chip.elements ∧ SameSubscribers s t ∧ SameTime s t ∧ SameLineUp s t)
              ∧ (∀ off, s.chip.kindOf (a k) = .slot off → ∃ t, exec c s = .next t
                ∧ holds s.array t.array 0 id ∧ marked t
                ∧ (Memory.wf s.chip.orders.mirror = true →
                    holds s.chip.orders.mirror t.chip.orders.mirror s.chip.config.orderRing.base id)
                ∧ (off % 32 = 0 → low k → off / 32 < 256 →
                    vget t.chip.orders.outcomes (off / 32) =
                        { vget s.chip.orders.outcomes (off / 32) with code := .pending }
                      ∧ ∀ j, j ≠ off / 32 → vget t.chip.orders.outcomes j = vget s.chip.orders.outcomes j)
                ∧ (off % 32 ≠ 0 ∨ ¬ low k → t.chip.orders.outcomes = s.chip.orders.outcomes)
                ∧ t.chip.orders.head = s.chip.orders.head ∧ t.chip.orders.tail = s.chip.orders.tail
                ∧ SameSupervision s t ∧ SameSubscribers s t ∧ SameTime s t ∧ SameLineUp s t)
              ∧ (s.chip.part.state = .fill → s.chip.kindOf (a k) = .orderTail → ∃ t, exec c s = .next t
                ∧ holds s.array t.array 0 id ∧ marked t
                ∧ t.chip.orders = { s.chip.orders with tail := candidate (hw k) s.chip.orders.tail }
                ∧ SameSupervision s t ∧ SameSubscribers s t ∧ SameTime s t ∧ SameLineUp s t))
      ∧ (s.chip.part.state = .running → ∀ i j, i < 4 → j < 4 → i ≠ j → s.chip.kindOf (a i) = .orderTail →
        s.chip.kindOf (a j) = .journalHead → low i → low j → (∀ k, k < 4 → k ≠ i → k ≠ j → (ww k).mask = 15) →
        let x := candidate (hw i) s.chip.orders.tail
        let y := candidate (hw j) s.chip.journal.head
        let tailIn := (x - s.chip.orders.head).toNat ≤ s.chip.config.orderCapacity
        let headIn := (y - s.chip.journal.head).toNat ≤ (s.chip.journal.tail - s.chip.journal.head).toNat
        ∃ t, exec c s = .next t
          ∧ (tailIn → t.chip.orders.tail = x) ∧ (¬ tailIn → t.chip.orders.tail = s.chip.orders.tail)
          ∧ (headIn → t.chip.journal.head = y) ∧ (¬ headIn → t.chip.journal.head = s.chip.journal.head)
          ∧ (tailIn → headIn → holds s.array t.array 0 id ∧ t.chip.path.guarded = s.chip.path.guarded)
          ∧ (¬ tailIn → ¬ headIn → t.array = s.array ∧ t.chip.path.guarded = s.chip.path.guarded + 2
              ∧ t.chip.path.lastGuarded = a (max i j))
          ∧ t.chip.orders.head = s.chip.orders.head ∧ t.chip.journal.tail = s.chip.journal.tail
          ∧ SameSupervision s t ∧ SameSubscribers s t ∧ SameTime s t ∧ SameLineUp s t ∧ t.pending = s.pending)

/-- A host write to a protected word is held back from the array and counted, with its address kept and the notice
mark at the current minute; a word whose four bytes are masked is no write (R162, R170). Which words are protected,
captured, candidates, a retake request or pass, by kind and part state, is the table of R168, and the kind of a word
follows from its place in its region: in CONFIG at once, in the six others while the map is in force (R167, 11.2 to
11.6). That a CONFIG word which no field of 11.2 names passes is the model's choice (log 59). -/
def Obligations.ProtectedWriteIsHeldBack : Prop :=
  (∀ (k : WordKind) (st : PartState),
    let watched := st = .fill ∨ st = .running ∨ st = .configFault
    let live := st = .fill ∨ st = .running
    let owned := k = .configOutcome ∨ k = .checkpoint ∨ (∃ off, k = .status off) ∨ (∃ i off, k = .live i off)
      ∨ k = .lineUpOutcome ∨ k = .plantOutcome ∨ (∃ j, k = .slotOutcome j) ∨ k = .journal
    let mirrored := (∃ off, k = .intent off) ∨ (∃ off, k = .lineUp off) ∨ (∃ off, k = .plant off) ∨ ∃ off, k = .slot off
    (writeRule k st = .protect ↔ watched ∧ owned)
      ∧ (writeRule k st = .capture ↔ (live ∧ mirrored) ∨ (st = .fill ∧ k = .orderTail))
      ∧ (writeRule k st = .candidate ↔ st = .running ∧ (k = .orderTail ∨ k = .journalHead))
      ∧ (writeRule k st = .retake ↔ st = .configFault ∧ k = .configTake))
    ∧ (∀ (c : Chip) (a : Nat),
      let v := c.config
      let inside := fun r : Span => r.base ≤ a ∧ a < r.base + r.size
      let inConfig := c.configBase ≤ a ∧ a < c.configBase + 256
      let regions := [v.status, v.subscriber, v.lineUp, v.plant, v.orderRing, v.journalRing]
      let only := fun (k : Nat) (r : Span) => c.part.mapInForce = true ∧ ¬ inConfig ∧ inside r
        ∧ ∀ (j : Nat) (q : Span), regions[j]? = some q → j ≠ k → ¬ inside q
      let off := fun r : Span => a - r.base
      (inConfig → c.kindOf a = if a = c.configBase + 68 then .configTake
          else if a = c.configBase + 96 then .configOutcome
          else if c.configBase + 128 ≤ a ∧ a < c.configBase + 160 then .checkpoint else .config)
        ∧ (only 0 v.status → c.kindOf a = if off v.status = 0 then .orderTail
            else if off v.status = 4 then .journalHead else .status (off v.status))
        ∧ (only 1 v.subscriber → c.kindOf a = if off v.subscriber % 128 < 32 then .intent (off v.subscriber)
            else .live (off v.subscriber / 128) (off v.subscriber % 128 - 32))
        ∧ (only 2 v.lineUp → c.kindOf a = if off v.lineUp = 4 then .lineUpOutcome else .lineUp (off v.lineUp))
        ∧ (only 3 v.plant → c.kindOf a = if off v.plant = 4 then .plantOutcome else .plant (off v.plant))
        ∧ (only 4 v.orderRing → c.kindOf a = if off v.orderRing % 32 = 28 then .slotOutcome (off v.orderRing / 32)
            else .slot (off v.orderRing))
        ∧ (only 5 v.journalRing → c.kindOf a = .journal)
        ∧ (¬ inConfig → c.part.mapInForce = false ∨ (∀ r ∈ regions, ¬ inside r) → c.kindOf a = .outside))
    ∧ ∀ (bank : BitVec 2) (row : BitVec 13) (col : BitVec 9) (d0 d1 d2 d3 : Word) (mask : BitVec 4) (s : State),
    BusFree s → vget s.chip.path.banks bank.toNat = some row → mask ≠ 15 →
    writeRule (s.chip.kindOf (burstAddr bank row col 0)) s.chip.part.state = .protect →
    ∃ t, exec (.write bank col { data := d0, mask := mask } { data := d1, mask := 15 } { data := d2, mask := 15 }
        { data := d3, mask := 15 } 4) s = .next t
      ∧ t.array = s.array ∧ t.chip.path.guarded = s.chip.path.guarded + 1
      ∧ t.chip.path.lastGuarded = burstAddr bank row col 0 ∧ t.chip.path.mark = s.chip.now
      ∧ t.chip.path.banks = s.chip.path.banks ∧ t.chip.subs = s.chip.subs ∧ t.chip.lineUp = s.chip.lineUp
      ∧ t.chip.plant = s.chip.plant ∧ t.chip.store = s.chip.store ∧ t.pending = s.pending

/-! ### Tenures -/

/-- BUS_GRANT to a REQUESTING engine: HOLDING, with a tenure of at most 16 bursts composed class by class, each class
up to the first transfer that does not fit: fill reads of one burst, the journal entries on offer of two, the
checkpoint of two with the journal head and tail in force, the write-back of six; the entries taken become WRITING,
stamped with the tail plus their place in the queue (R155, R172, R173). In any other request state it is ignored.
SELF-REFRESH ENTRY closes the banks and withdraws a request, its transfers still pending; EXIT makes the memory state
NORMAL and requests the bus if a transfer is pending (R161, R175). That a burst of the controller in progress is kept
through the grant is the model's choice (log 55). -/
def Obligations.GrantComposesSixteenBursts : Prop :=
  (∀ s : State,
    (s.chip.engine.request ≠ .requesting → exec .busGrant s = .next s)
      ∧ (s.chip.engine.request = .requesting →
        let j := s.chip.journal
        let free := s.chip.config.journalCapacity - (j.tail - j.head).toNat
        let offer := if s.chip.running = true then
            min (j.queue.filter (fun q => !q.writing)).length (free - (j.queue.filter (fun q => q.writing)).length)
          else 0
        let reads := min 16 s.chip.fillReads
        let entries := min offer ((16 - reads) / 2)
        let used := reads + 2 * entries
        ∃ t k, exec .busGrant s = .next t ∧ t.chip.engine.tenure = some k
          ∧ k.fillReads = reads ∧ k.entries = entries
          ∧ k.checkpoint =
              (if used + 2 ≤ 16 then s.chip.engine.checkpoint.map (fun x => (x, j.head, j.tail)) else none)
          ∧ (k.writeBack = true ↔
              s.chip.store.copy.isSome = true ∧ used + (if k.checkpoint.isSome = true then 2 else 0) + 6 ≤ 16)
          ∧ k.fillReads + 2 * k.entries + (if k.checkpoint.isSome = true then 2 else 0)
              + (if k.writeBack = true then 6 else 0) ≤ 16
          ∧ t.chip.engine = { s.chip.engine with
              request := .holding, tenure := some k
              checkpoint := if k.checkpoint.isSome = true then none else s.chip.engine.checkpoint }
          ∧ (∀ w : Nat, (∀ (i : Nat) (q : Queued), j.queue[i]? = some q → (q.writing = true ↔ i < w)) →
              ∀ (i : Nat) (q : Queued), j.queue[i]? = some q → t.chip.journal.queue[i]? =
                some (if w ≤ i ∧ i < w + entries then { q with ring := j.tail + BitVec.ofNat 16 i, writing := true }
                  else q))
          ∧ t.chip.journal.queue.length = j.queue.length ∧ t.chip.journal = { j with queue := t.chip.journal.queue }
          ∧ t.chip = (s.chip.setJournal t.chip.journal).setEngine t.chip.engine ∧ SameOutside s t))
    ∧ ∀ s : State, BusFree s →
      (∃ t, exec .selfRefreshEntry s = .next t ∧ t.chip.path.mem = .selfRefresh
        ∧ (∀ b, b < 4 → vget t.chip.path.banks b = none)
        ∧ t.chip.engine = { s.chip.engine with request := .idle }
        ∧ t.chip.transferPending = s.chip.transferPending
        ∧ t.chip = (s.chip.setPath t.chip.path).setEngine t.chip.engine ∧ t.array = s.array ∧ t.pending = s.pending)
      ∧ ∃ t, exec .selfRefreshExit s = .next t ∧ t.chip.path = { s.chip.path with mem := .normal }
        ∧ (s.chip.engine.request = .idle → s.chip.active = true →
            t.chip.engine.request = if s.chip.transferPending then .requesting else .idle)
        ∧ t.chip = (s.chip.setPath t.chip.path).setEngine t.chip.engine ∧ t.array = s.array ∧ t.pending = s.pending

/-- TENURE_COMPLETE writes the transfers of its tenure and no other byte: each journal entry its 32 bytes at the ring
slot of its index, the checkpoint its 32 bytes in the CONFIG region, the write-back the 96 bytes of the live section
(R36, R116, R152, R154, R155, R174, R184). An entry's class, kind, cycle, ring index, minute, index, short detail,
account, amount and detail stand where 11.6 places them, the bytes a kind does not name 0 (R145, R152, R188); the
checkpoint carries its mark, the calendar, pass minute, generations and journal indices (R184). Every bank is CLOSED,
the tenure count one higher, the engine no longer HOLDING, the entries off the head of the queue and the tail higher by
their number, when no money entry waits, none of them closes an outage record and no fill read was taken; a write-back
releases the copy and moves the cursor on. That a transfer lands at the completion is the model's choice (log 8). -/
def Obligations.TenureCompletionWritesItsTransfers : Prop :=
  (∀ (s : State) (k : Tenure), ArrayCanonical s → s.chip.engine.request = .holding → s.chip.engine.tenure = some k →
    ∃ t, exec .tenureComplete s = .next t ∧ ArrayWritten s t (s.chip.tenureWrites k) ∧ t.pending = s.pending)
    ∧ (∀ (s : State) (k : Tenure), s.chip.engine.request = .holding → s.chip.engine.tenure = some k →
      k.fillReads = 0 → s.chip.moneyWaiting = false →
      (∀ q ∈ s.chip.journal.queue.take k.entries, ∀ i d o p r, q.entry.body ≠ .outageClosed i d o p r) →
      ∃ t, exec .tenureComplete s = .next t ∧ t.chip.engine.request ≠ .holding
        ∧ t.chip.engine.count = s.chip.engine.count + 1 ∧ (∀ b, b < 4 → vget t.chip.path.banks b = none)
        ∧ t.chip.journal =
            { s.chip.journal with
              queue := s.chip.journal.queue.drop k.entries, tail := s.chip.journal.tail + BitVec.ofNat 16 k.entries }
        ∧ t.chip.store = (if k.writeBack = true then
              { s.chip.store with copy := none, cursor := (s.chip.store.cursor + 1) % 2048 } else s.chip.store)
        ∧ t.chip.subs = s.chip.subs ∧ t.chip.outages = s.chip.outages ∧ t.pending = s.pending)
    ∧ (∀ (e : Entry) (r : Half), (e.bytes r).length = 32
        ∧ (e.bytes r)[0]? = some (BitVec.ofNat 8 ((if e.body.money = true then 128 else 0) + e.body.kind))
        ∧ (e.bytes r)[1]? = some e.cycle ∧ natOfBytes (((e.bytes r).drop 2).take 2) = r.toNat
        ∧ ((∀ m, e.minute = some m → m < 4294967295) →
            minuteOfField (natOfBytes (((e.bytes r).drop 4).take 4)) = e.minute)
        ∧ natOfBytes (((e.bytes r).drop 12).take 4) = e.account.toNat
        ∧ (-2147483648 ≤ e.amount → e.amount < 2147483648 →
            signedOf 4 (natOfBytes (((e.bytes r).drop 16).take 4)) = e.amount)
        ∧ (let le := bytesOfNat
          let minute := fun m : Option Nat => bytesOfNat 4 (m.getD 4294967295)
          let source := fun k : Option Nat => BitVec.ofNat 8 (k.getD 255)
          let bit := fun x : Bool => if x = true then 1 else 0
          let laid := fun (index short : Nat) (detail : List Byte) =>
            natOfBytes (((e.bytes r).drop 8).take 2) = index
              ∧ natOfBytes (((e.bytes r).drop 10).take 2) = short % 65536
              ∧ (e.bytes r).drop 20 = detail ++ List.replicate (12 - detail.length) 0
          let n := e.index % 4096
          match e.body with
          | .purchaseCharge q st en => laid n q (le 4 st ++ le 4 en)
          | .purchaseRefund q st en dark => laid n dark (le 4 st ++ le 4 en ++ [BitVec.ofNat 8 q])
          | .adjustment event => laid n 0 (bytesOfInt 4 event)
          | .outageCredit m held numerator since => laid n m (le 2 held ++ bytesOfInt 6 numerator ++ minute since)
          | .cycleTotal final saturated purchases remainder tier event held out =>
            laid (e.index % 2048 + 2048 * bit final + 4096 * bit saturated + 8192 * (purchases % 8)) remainder
              (bytesOfInt 4 tier ++ bytesOfInt 4 event ++ le 2 held ++ le 2 out.toNat)
          | .outageOpened id kind st affected => laid n affected ([id, BitVec.ofNat 8 kind.code, 0, 0] ++ minute st)
          | .outageUnrecorded kind st => laid n 0 ([0, BitVec.ofNat 8 kind.code, 0, 0] ++ minute st)
          | .outageClosed id kind st stop cause =>
            laid n cause.code ([id, BitVec.ofNat 8 kind.code, 0, 0] ++ minute st ++ minute stop)
          | .substitution cause left now primary =>
            laid n cause.code [source left, source now, BitVec.ofNat 8 primary]
          | .portStuck owner port reported =>
            laid n (owner.getD 65535) (match reported with
              | .off => BitVec.ofNat 8 (port % 4) :: List.replicate 10 0
              | .on tiers jam => BitVec.ofNat 8 (128 + port % 4) :: (le 2 tiers.toNat ++ le 8 jam.toNat))
          | .crosspointStuck sent reported => laid n 0 [BitVec.ofNat 8 sent, source reported]
          | .purchaseLapsed q st en => laid n q (le 4 st ++ le 4 en)
          | .clockHeld seconds => laid n seconds []
          | .minutesDropped m count => laid n 0 (le 4 m ++ le 4 count.toNat)
          | .saturated what => laid n 0 [BitVec.ofNat 8 what.code]
          | .protectedWrite region addr count => laid n region.code (le 4 addr ++ le 4 count.toNat)))
    ∧ (∀ (x : Checkpoint) (head tail : Half),
        let field := fun o n : Nat => natOfBytes (((x.bytes head tail).drop o).take n)
        ((∀ m, x.passMinute = some m → m < 4294967295) → minuteOfField (field 16 4) = x.passMinute)
          ∧ field 20 2 = x.lineUpGen.toNat ∧ field 22 2 = x.plantGen.toNat ∧ field 3 1 = 0 ∧ field 28 4 = 0)
    ∧ ∀ (x : Checkpoint) (head tail : Half) (a : Nat), x.start < 4294967296 → x.m < 4294967296 →
        x.nextM < 4294967296 → (x.bytes head tail).length = 32
          ∧ checkpointAt (Memory.writeBytes [] a (x.bytes head tail)) a =
              { mark := 0x4820, cycle := x.cycle, start := x.start, m := x.m, nextM := x.nextM, head := head
                tail := tail }

/-- TENURE_COMPLETE of the CONFIG BLOCK reads, the configuration block as the array holds it: the first of checks 1 to
6 that fails puts the part in CONFIG FAULT with its code and ATTN asserted, the map in force only after check 5; a
block that passes them puts its map in force and the CHECKPOINT reads on offer. The array and the waiting commands
stay (R157, R181, R182). That five reads make the stage and that they read at the completion are the model's choices
(logs 8, 20). -/
def Obligations.FillChecksTheConfiguration : Prop :=
  ∀ s : State, Settled s → s.chip.part.state = .fill → s.chip.part.stage = .configBlock →
    s.chip.part.fillNext = 0 →
    s.chip.engine.request = .holding →
    s.chip.engine.tenure = some { fillReads := 5, entries := 0, checkpoint := none, writeBack := false } →
    let v := configAt s.array s.chip.configBase
    let six := [v.status, v.subscriber, v.lineUp, v.plant, v.orderRing, v.journalRing]
    let seven := { base := s.chip.configBase, size := 256 } :: six
    let placed := ∀ r ∈ six, r.base % 64 = 0 ∧ r.base + r.size ≤ 67108864
    let sized := six.map (·.size) = [9216, 262144, 1184, 5136, 32 * v.orderCapacity, 32 * v.journalCapacity]
    let holds := fun (a : Span) (x : Nat) => a.base ≤ x ∧ x < a.base + a.size
    let apart := seven.Pairwise (fun a b => ∀ x, ¬ (holds a x ∧ holds b x))
    let rings := (∃ k, 4 ≤ k ∧ k ≤ 8 ∧ v.orderCapacity = 2 ^ k) ∧ ∃ k, 6 ≤ k ∧ k ≤ 12 ∧ v.journalCapacity = 2 ^ k
    let calendar := 1440 ≤ v.initialM ∧ v.initialM ≤ 44640 ∧ 1 ≤ v.creditThreshold ∧ v.creditThreshold ≤ 1440
    ∃ t, exec .tenureComplete s = .next t
      ∧ (let stopped := fun f : FaultCode =>
          t.chip.part = { s.chip.part with state := .configFault, fault := f, fillNext := 5, marks := [] }
            ∧ t.chip.attn = true ∧ t.chip.engine.request = .idle
        (v.format ≠ 3 → stopped .format)
          ∧ (v.format = 3 → ¬ placed → stopped .regionPlace)
          ∧ (v.format = 3 → placed → ¬ sized → stopped .regionSize)
          ∧ (v.format = 3 → placed → sized → ¬ apart → stopped .overlap)
          ∧ (v.format = 3 → placed → sized → apart → ¬ rings → stopped .ringSize)
          ∧ (v.format = 3 → placed → sized → apart → rings → ¬ calendar →
              t.chip.part = { s.chip.part with
                state := .configFault, fault := .calendar, fillNext := 5, marks := [], config := some v
                mapInForce := true } ∧ t.chip.attn = true)
          ∧ (v.format = 3 → placed → sized → apart → rings → calendar →
              t.chip.part = { s.chip.part with
                stage := .checkpoint, fillNext := 0, config := some v, mapInForce := true }
                ∧ t.chip.fillReads = 2
                ∧ t.chip.engine.request = if s.chip.path.mem = .normal then .requesting else .idle))
      ∧ t.chip.engine.count = s.chip.engine.count + 1 ∧ (∀ b, b < 4 → vget t.chip.path.banks b = none)
      ∧ SameLinks s t ∧ SameSupervision s t ∧ SameSubscribers s t ∧ SameTime s t ∧ SameLineUp s t ∧ SameQueues s t
      ∧ t.array = s.array ∧ t.pending = s.pending

/-- The stages CHECKPOINT, PLANT and LINE-UP of the fill, ended by the tenure of their last reads. A fill read
delivers its 16 bytes to the mirror, except outcome bytes and valid-marked ones (R183). CHECKPOINT: a blank record
gives the calendar of the configuration block and journal indices 0, another its own, the head set equal to the tail
where they lie further apart than the capacity (R184). PLANT and LINE-UP: the automatic take is refused by the first
check that fails, check 7 or 8: CONFIG FAULT, and the outcome word reads as the refusal code with nothing in force
(log 29); or it takes the mirror: every element in use UNVERIFIED and afresh, every unit on its branch's repoll list
in index order; every USED position on its primary, with no SUBSTITUTION, and on the rack's pending list in position
order, no sweep started (R11, R72, R181, R182). That reads deliver at the completion is the model's choice (log 8). -/
def Obligations.FillTakesAndChecks : Prop :=
  (∀ (c : Chip) (array mirror : Memory) (base off : Nat) (owned : Nat → Bool), Memory.wf mirror = true →
    let m := c.deliverTo array mirror base off owned
    Memory.wf m = true ∧ ∀ x, Memory.read m x =
      if off ≤ x ∧ x < off + 16 ∧ owned x = false ∧ Memory.read c.part.marks (base + x) ≠ 1 then
        Memory.read array (base + x)
      else Memory.read mirror x)
    ∧ ∀ (s : State) (n : Nat), LastReads s n →
      let v := s.chip.config
      let reads := fun (mirror : Memory) (base : Nat) => forIndices n (fun m k =>
        s.chip.deliverTo s.array m base (16 * (s.chip.part.fillNext + k)) fun x => decide (4 ≤ x ∧ x < 8)) mirror
      let stopped := fun (t : State) (f : FaultCode) =>
        t.chip.part = { s.chip.part with
            state := .configFault, fault := f, fillNext := s.chip.part.fillNext + n, marks := [] }
          ∧ t.chip.attn = true
      let next := fun (t : State) (g : FillStage) => t.chip.part = { s.chip.part with stage := g, fillNext := 0 }
      (s.chip.part.stage = .checkpoint →
        let a := s.chip.configBase + 128
        let f := fun o k : Nat => Memory.nat s.array (a + o) k
        let bad := fun x : Nat => x < 1440 ∨ 44640 < x
        let blank := f 0 2 ≠ 0x4820 ∨ bad (f 8 4) ∨ bad (f 12 4)
        let head := BitVec.ofNat 16 (f 24 2)
        let tail := BitVec.ofNat 16 (f 26 2)
        ∃ t, exec .tenureComplete s = .next t
          ∧ (blank → t.chip.clock = { s.chip.clock with
                cal := { cycle := v.initialCycle, start := v.initialStart, m := v.initialM, nextM := v.initialM } }
              ∧ t.chip.part.startBlank = true ∧ t.chip.part.heldHead = 0 ∧ t.chip.part.heldTail = 0)
          ∧ (¬ blank → t.chip.clock = { s.chip.clock with
                cal := { cycle := BitVec.ofNat 8 (f 2 1), start := f 4 4, m := f 8 4, nextM := f 12 4 } }
              ∧ t.chip.part.startBlank = false ∧ t.chip.part.heldTail = tail
              ∧ ((tail - head).toNat ≤ v.journalCapacity → t.chip.part.heldHead = head)
              ∧ (v.journalCapacity < (tail - head).toNat → t.chip.part.heldHead = tail))
          ∧ t.chip.part = { s.chip.part with
              stage := .plant, fillNext := 0, startView := Memory.bytes s.array a 32
              startBlank := t.chip.part.startBlank, heldHead := t.chip.part.heldHead
              heldTail := t.chip.part.heldTail }
          ∧ SameSupervision s t ∧ SameSubscribers s t ∧ SameLineUp s t ∧ SameQueues s t ∧ t.chip.pass = s.chip.pass
          ∧ t.array = s.array ∧ t.pending = s.pending)
        ∧ (s.chip.part.stage = .plant → s.chip.plant.gen = none →
          let m := reads s.chip.plant.mirror v.plant.base
          let d := s.chip.setPlant { s.chip.plant with mirror := m }
          ∃ t, exec .tenureComplete s = .next t
            ∧ (∀ o, d.checkPlant = some o → stopped t .plantTake
                ∧ t.chip.plant = { mirror := m, gen := none, outcome := o } ∧ t.chip.elements = s.chip.elements
                ∧ t.chip.merged .plantOutcome = some (o.byte.setWidth 32))
            ∧ (d.checkPlant = none → next t .lineUp
                ∧ t.chip.plant = { mirror := m, gen := some (takeWord m), outcome := .done }
                ∧ ((∀ e, e < 640 → s.chip.element e = Element.reset) → (∀ b, b < 4 → (s.chip.branch b).repoll = []) →
                  (∀ e, e < 640 → t.chip.element e = { Element.reset with record := mirrorElement m e })
                    ∧ ∀ b, b < 4 → (t.chip.branch b).repoll = (List.range 640).filter fun e =>
                        decide (4 ≤ e) && (mirrorElement m e).inUse && t.chip.branchOf e == b))
            ∧ SameTime s t ∧ SameLineUp s t ∧ t.chip.sources = s.chip.sources ∧ t.chip.store = s.chip.store
            ∧ t.chip.orders = s.chip.orders ∧ t.array = s.array ∧ t.pending = s.pending)
        ∧ (s.chip.part.stage = .lineUp → s.chip.lineUp.gen = none →
          let m := reads s.chip.lineUp.mirror v.lineUp.base
          ∃ t, exec .tenureComplete s = .next t
            ∧ (∀ o, checkLineUp m = some o → stopped t .lineUpTake
                ∧ t.chip.lineUp = { s.chip.lineUp with mirror := m, outcome := o }
                ∧ t.chip.merged .lineUpOutcome = some (o.byte.setWidth 32))
            ∧ (checkLineUp m = none → next t .subscriber ∧ t.chip.lineUp.mirror = m
                ∧ t.chip.lineUp.current = mirrorLineUp m ∧ t.chip.lineUp.gen = some (takeWord m)
                ∧ t.chip.lineUp.outcome = .done ∧ t.chip.sweep = s.chip.sweep
                ∧ ((∀ k, k < 32 → (s.chip.source k).state ≠ .tripped) →
                  (∀ q, q < 64 → s.chip.effective q = { source := none, onBackup := false }) →
                  (∀ q, q < 64 → (s.chip.point q).condition = .idle ∧ (s.chip.point q).confirmed = .unknown) →
                  s.chip.rack.pendingList = [] →
                  (∀ q, q < 64 → t.chip.effective q =
                      { source := if (mirrorChannel m q).used = true then some (mirrorChannel m q).primary else none
                        onBackup := false })
                    ∧ t.chip.rack.pendingList = (List.range 64).filter (fun q => (mirrorChannel m q).used)
                    ∧ t.chip.journal = s.chip.journal))
            ∧ SameTime s t ∧ SamePlant s t ∧ SameSubscribers s t ∧ t.chip.ports = s.chip.ports
            ∧ t.chip.orders = s.chip.orders ∧ t.array = s.array ∧ t.pending = s.pending)

/-- The stages SUBSCRIBER and ORDER RING. A tenure of n of the stage's reads, from whichever read is next: the first two
of a record's eight deliver its intent bytes to the mirror, but for valid-marked ones (R183; a byte at a time as
FillTakesAndChecks says), and the eighth fills the record: its live block is the live section read, PENDING where it is
queued, a state code that is none of the four shown as read. At the end of SUBSCRIBER the store rebuilds: a record of
such a code FREE and dirty, taken intents by their revision, claims in index order, a failed claim dirty, without a port
and queued, the queue extended in index order; every port unconfirmed, PARKED and mismatch 0, its applied state its
owner's summary with every position jammed, its desired state by R33 (R33, R38). At the end of ORDER RING the order head
equals the tail, every slot shows NOT TAKEN, the journal has the checkpoint's indices, the part is RUNNING with its
valid marks cleared, every desired state is that of the line-up in force, each root goes by its carrier state, and the
rack link makes its first exchange (R6, R24, R34, R60, R78, R93, R149, R157, R183, R185). The model's choices: PENDING
at the fill of a queued record, the mirror's zone where the live zone is NONE, no port for a FREE or FINAL record (log
43); no claim for a record in use that owns NONE (log 47); a port-less record's summary unconfirmed and not STUCK (log
25). -/
def Obligations.FillRebuildsAndEnds : Prop :=
  (∀ (s : State) (n : Nat), s.chip.part.state = .fill → s.chip.part.stage = .subscriber → 1 ≤ n →
      s.chip.part.fillNext + n < 16384 → s.chip.engine.request = .holding →
      s.chip.engine.tenure = some { fillReads := n, entries := 0, checkpoint := none, writeBack := false } →
      let first := s.chip.part.fillNext
      let ends := fun i : Nat => first ≤ 8 * i + 7 ∧ 8 * i + 7 < first + n
      ∃ t, exec .tenureComplete s = .next t ∧ t.chip.part = { s.chip.part with fillNext := first + n }
        ∧ t.chip.store = { s.chip.store with
            mirror := forIndices n (fun m k =>
              if (first + k) % 8 < 2 then
                s.chip.deliverTo s.array m s.chip.config.subscriber.base (16 * (first + k)) (fun _ => false)
              else m) s.chip.store.mirror }
        ∧ (∀ i, ends i →
          let a := s.chip.config.subscriber.base + 128 * i + 32
          (t.chip.sub i).filled = true ∧ (t.chip.sub i).taken = (s.chip.sub i).taken
            ∧ (i ∈ s.chip.store.queue → (t.chip.sub i).live = { liveAt s.array a with outcome := .pending })
            ∧ (i ∉ s.chip.store.queue → (t.chip.sub i).live = liveAt s.array a)
            ∧ (t.chip.sub i).oddState =
                (if 3 < s.array.nat (a + 1) 1 then some (Memory.read s.array (a + 1)) else none)
            ∧ (t.chip.sub i).liveBytes[1]? = some (Memory.read s.array (a + 1))
            ∧ ((t.chip.sub i).dirty = true ↔
                i ∈ s.chip.store.queue ∨ ∃ k, k < 4 ∧ 4 < s.array.nat (a + 32 + 16 * k + 1) 1))
        ∧ (∀ i, ¬ ends i → t.chip.sub i = s.chip.sub i) ∧ t.chip.ports = s.chip.ports
        ∧ t.chip.fillReads = 16384 - (first + n)
        ∧ t.chip.engine.request = (if s.chip.path.mem = .normal then .requesting else .idle)
        ∧ SameSupervision s t ∧ SameTime s t ∧ SameLineUp s t ∧ SameQueues s t ∧ t.array = s.array
        ∧ t.pending = s.pending)
    ∧ (∀ c : Chip, (∀ p, p < 2560 → (c.port p).owner = none) →
      (∀ i o, (c.sub i).live.owned = some o → o.port < 4) →
      let d := c.rebuild
      let odd := fun i : Nat => (c.sub i).oddState ≠ none
      let inUse := fun i : Nat =>
        ¬ odd i ∧ ((c.sub i).live.state = .active ∨ (c.sub i).live.state = .suspended)
      let eligible := fun i p : Nat => inUse i
        ∧ ∃ o, (c.sub i).live.owned = some o ∧ o.element * 4 + o.port = p ∧ c.isTap o.element = true
      let wins := fun i p : Nat => eligible i p ∧ ∀ j, j < i → ¬ eligible j p
      let fails := fun i : Nat =>
        inUse i ∧ ∃ o, (c.sub i).live.owned = some o ∧ ¬ wins i (o.element * 4 + o.port)
      let revised := fun i : Nat => (c.intent i).revision ≠ (c.sub i).live.takenRev
      (∀ i, i < 2048 → (¬ revised i → (d.sub i).taken = c.intent i)
          ∧ (revised i → (d.sub i).taken = { c.intent i with
              tiers := (c.sub i).live.appliedTiers
              zone := (if odd i then none else (c.sub i).live.owned.map (·.zone)).getD (c.intent i).zone })
          ∧ (odd i → let l := (d.sub i).live
            (d.sub i).dirty = true ∧ l.state = .free ∧ l.tierAmount = 0 ∧ l.eventAmount = 0 ∧ l.remainder = 0
              ∧ l.heldMinutes = 0 ∧ l.heldNumerator = 0 ∧ l.outSince = none ∧ l.saturated = false
              ∧ l.purchases = [])
          ∧ (¬ odd i → (d.sub i).live.state = (c.sub i).live.state
            ∧ (d.sub i).live.tierAmount = (c.sub i).live.tierAmount
            ∧ (d.sub i).live.purchases = (c.sub i).live.purchases)
          ∧ (d.sub i).oddState = none
          ∧ (fails i ∨ ¬ inUse i → (d.sub i).live.owned = none)
          ∧ (¬ fails i → inUse i → (d.sub i).live.owned = (c.sub i).live.owned)
          ∧ (fails i → (d.sub i).dirty = true)
          ∧ (d.sub i).live.stuck = false ∧ (d.sub i).live.confirmed = false)
        ∧ (∃ added : List Nat, d.store.queue = c.store.queue ++ added ∧ added.Pairwise (· < ·)
            ∧ (∀ i, i ∈ added ↔ i < 2048 ∧ i ∉ c.store.queue ∧ (revised i ∨ fails i))
            ∧ ∀ i ∈ added, (d.sub i).live.outcome = .pending)
        ∧ ∀ p, p < 2560 → (∀ i, (d.port p).owner = some i ↔ i < 2048 ∧ wins i p)
            ∧ (d.port p).confirmed = false ∧ (d.port p).sent = none ∧ (d.port p).mismatch = 0
            ∧ (d.port p).condition = .parked ∧ (d.port p).desired = d.desiredOf p
            ∧ ((d.port p).owner = none → (d.port p).applied = .off)
            ∧ (∀ i, (d.port p).owner = some i → (d.port p).applied = if (c.sub i).live.appliedOn = true then
                .on (c.sub i).live.appliedTiers (BitVec.allOnes 64) else .off))
    ∧ ∀ (s : State) (n : Nat), LastReads s n →
      let delivered := forIndices n (fun m k =>
        let r := s.chip.part.fillNext + k
        if r % 8 < 2 then s.chip.deliverTo s.array m s.chip.config.subscriber.base (16 * r) (fun _ => false)
        else m) s.chip.store.mirror
      (s.chip.part.stage = .subscriber → ∃ (t : State) (c : Chip), exec .tenureComplete s = .next t
          ∧ t.chip.part = { s.chip.part with stage := .orderRing, fillNext := 0 }
          ∧ t.chip.subs = c.rebuild.subs ∧ t.chip.store = c.rebuild.store ∧ t.chip.ports = c.rebuild.ports
          ∧ c.ports = s.chip.ports ∧ c.elements = s.chip.elements ∧ c.lineUp = s.chip.lineUp
          ∧ c.part.config = s.chip.part.config
          ∧ c.store = { s.chip.store with mirror := delivered }
          ∧ (∀ i, i < 2048 → s.chip.part.fillNext ≤ 8 * i + 7 → (c.sub i).filled = true
              ∧ (c.sub i).oddState = oddStateAt s.array (s.chip.config.subscriber.base + 128 * i + 32)
              ∧ (i ∉ s.chip.store.queue →
                (c.sub i).live = liveAt s.array (s.chip.config.subscriber.base + 128 * i + 32)))
          ∧ (∀ i, 8 * i + 7 < s.chip.part.fillNext → c.sub i = s.chip.sub i)
          ∧ SameSupervision s t ∧ SameTime s t ∧ SameLineUp s t ∧ SameQueues s t ∧ t.array = s.array)
        ∧ (s.chip.part.stage = .orderRing →
          let a := s.chip.config.status.base
          let byte := fun (k : Nat) (kept : Nat) =>
            if Memory.read s.chip.part.marks (a + k) = 1 then kept else (Memory.read s.array (a + k)).toNat
          let tail := BitVec.ofNat 16
            (byte 0 (s.chip.orders.tail.toNat % 256) + 256 * byte 1 (s.chip.orders.tail.toNat / 256))
          ∃ t, exec .tenureComplete s = .next t
            ∧ t.chip.part = { s.chip.part with state := .running, stage := .none, fillNext := 0, marks := [] }
            ∧ t.chip.orders.tail = tail ∧ t.chip.orders.head = tail
            ∧ (∀ k, k < 256 → vget t.chip.orders.outcomes k = { code := .notTaken, index := 0 })
            ∧ t.chip.journal.head = s.chip.part.heldHead ∧ t.chip.journal.tail = s.chip.part.heldTail
            ∧ (t.chip.attn = true ↔ s.chip.part.heldTail ≠ s.chip.part.heldHead)
            ∧ (∀ p, p < 2560 → (t.chip.port p).desired = t.chip.desiredOf p
                ∧ (t.chip.port p).owner = (s.chip.port p).owner)
            ∧ (∀ b, b < 4 → (s.chip.element b).record.inUse = true → (s.chip.element b).sup.state = .unverified →
                (t.chip.element b).sup.state = match (s.chip.branch b).carrier with
                  | .present => .answering
                  | .lost => .failing
                  | .unsettled => .unverified)
            ∧ t.chip.rack.hold.isSome = true
            ∧ SameTime s t ∧ SameLineUp s t ∧ t.chip.plant = s.chip.plant ∧ t.chip.sources = s.chip.sources
            ∧ t.chip.store = s.chip.store ∧ t.array = s.array ∧ t.pending = s.pending)

/-- WRITE_BACK by the record at the cursor: the copy is taken and the mark cleared when no money entry waits, the record
is skipped with its mark kept when one does, and the cursor moves past a record that is not dirty; the live blocks never
change (R36, R37). -/
def Obligations.WriteBackCursorActs : Prop :=
  ∀ (s : State) (i : Nat), s.chip.running = true → s.chip.store.copy = none → s.chip.store.cursor = i → i < 2048 →
    ((s.chip.sub i).dirty = true → s.chip.moneyWaitsFor i = false →
      ∃ t, exec .writeBack s = .next t ∧ t.chip.store = { s.chip.store with copy := some (i, (s.chip.sub i).live) }
        ∧ t.chip.sub i = { s.chip.sub i with dirty := false }
        ∧ (∀ j, j ≠ i → t.chip.sub j = s.chip.sub j) ∧ t.chip.journal = s.chip.journal ∧ SameOutside s t)
      ∧ ((s.chip.sub i).dirty = true → s.chip.moneyWaitsFor i = true →
        ∃ t, exec .writeBack s = .next t ∧ t.chip.store = { s.chip.store with cursor := (i + 1) % 2048 }
          ∧ t.chip.subs = s.chip.subs ∧ t.chip.journal = s.chip.journal ∧ SameOutside s t)
      ∧ ((s.chip.sub i).dirty = false → s.chip.anyDirty = true →
        ∃ t, exec .writeBack s = .next t ∧ t.chip.store = { s.chip.store with cursor := (i + 1) % 2048 }
          ∧ t.chip.subs = s.chip.subs ∧ t.chip.journal = s.chip.journal ∧ SameOutside s t)

/-! ### Takes -/

/-- LINE_UP_TAKE_REQUEST while RUNNING, with a take word other than the generation in force: during a sweep it is
noted HELD; otherwise the checks refuse it with their code, or the line-up of the mirror is taken, its blackouts are
evaluated for the current minute number, each position's zone set the union of those of its active entries, with no port
recomputed yet; every effective source follows R12 and the sweep starts at port 0 (R3 to R6, R10, R12, R16, R18, R169).
In FILL before the automatic take, and in FILL and RUNNING where the word equals the generation in force or a take is
HELD, the write is captured, in FILL with its valid marks, and nothing else changes; in FILL after the automatic take it
is refused or taken at once, with no sweep (R3, R169, R183). The write stands alone (log 9). -/
def Obligations.LineUpTakeChecksThenTakes : Prop :=
  (∀ (h : HalfWrite) (s : State), Settled s → ArrayCanonical s → BusFree s → s.chip.running = true →
    s.chip.part.mapInForce = true → touchesWord h = true → s.chip.kindOf s.chip.config.lineUp.base = .lineUp 0 →
    s.chip.lineUp.held = false →
    let a := s.chip.config.lineUp.base
    let m := Memory.writeHost s.chip.lineUp.mirror a (halfWord h a)
    s.chip.lineUp.gen ≠ some (takeWord m) →
    ∃ t, exec (.lineUpTakeRequest h) s = .next t ∧ HalfWritten s.array t.array a h
      ∧ (∀ o, s.chip.sweep = none → checkLineUp m = some o →
          t.chip.lineUp = { s.chip.lineUp with mirror := m, outcome := o } ∧ t.chip.sweep = none
            ∧ SameSupervision s t ∧ SameQueues s t ∧ t.chip.rack = s.chip.rack)
      ∧ (s.chip.sweep = none → checkLineUp m = none →
          t.chip.lineUp.mirror = m ∧ t.chip.lineUp.current = mirrorLineUp m
            ∧ t.chip.lineUp.gen = some (takeWord m) ∧ t.chip.lineUp.outcome = .done ∧ t.chip.lineUp.held = false
            ∧ t.chip.sweep = some 0
            ∧ BlackoutsAt t.chip s.chip.clock.minute ∧ ∀ q, q < 64 → t.chip.effective q = t.chip.effectiveOf q)
      ∧ (s.chip.sweep.isSome = true →
          t.chip.lineUp = { s.chip.lineUp with mirror := m, held := true, outcome := .held }
            ∧ t.chip.sweep = s.chip.sweep ∧ SameSupervision s t ∧ SameQueues s t ∧ t.chip.rack = s.chip.rack)
      ∧ t.chip.ports = s.chip.ports ∧ t.chip.branches = s.chip.branches ∧ SamePlant s t
      ∧ SameSubscribers s t ∧ SameTime s t ∧ t.chip.orders = s.chip.orders ∧ SameBus s t ∧ t.pending = s.pending)
    ∧ ∀ (h : HalfWrite) (s : State), Settled s → ArrayCanonical s → BusFree s →
    s.chip.part.state = .fill ∨ s.chip.part.state = .running → s.chip.part.mapInForce = true → touchesWord h = true →
    s.chip.kindOf s.chip.config.lineUp.base = .lineUp 0 → Memory.wf s.chip.part.marks = true →
    let a := s.chip.config.lineUp.base
    let m := Memory.writeHost s.chip.lineUp.mirror a (halfWord h a)
    ((s.chip.part.state = .fill ∧ s.chip.lineUp.gen = none) ∨ s.chip.lineUp.gen = some (takeWord m)
        ∨ s.chip.lineUp.held = true →
      ∃ t, exec (.lineUpTakeRequest h) s = .next t ∧ HalfWritten s.array t.array a h ∧ MarksAfter s t a h
        ∧ t.chip = (s.chip.setLineUp { s.chip.lineUp with mirror := m }).setPart
            { s.chip.part with marks := t.chip.part.marks }
        ∧ t.pending = s.pending)
      ∧ ∀ g, s.chip.part.state = .fill → s.chip.lineUp.gen = some g → g ≠ takeWord m → s.chip.lineUp.held = false →
        s.chip.sweep = none →
        ∃ t, exec (.lineUpTakeRequest h) s = .next t ∧ HalfWritten s.array t.array a h ∧ MarksAfter s t a h
          ∧ t.chip.part = { s.chip.part with marks := t.chip.part.marks } ∧ t.chip.sweep = none
          ∧ (∀ o, checkLineUp m = some o →
              t.chip.lineUp = { s.chip.lineUp with mirror := m, outcome := o } ∧ t.chip.rack = s.chip.rack)
          ∧ (checkLineUp m = none →
              t.chip.lineUp.mirror = m ∧ t.chip.lineUp.current = mirrorLineUp m
                ∧ t.chip.lineUp.gen = some (takeWord m) ∧ t.chip.lineUp.outcome = .done
                ∧ BlackoutsAt t.chip s.chip.clock.minute
                ∧ ∀ q, q < 64 → t.chip.effective q = t.chip.effectiveOf q)
          ∧ t.chip.ports = s.chip.ports ∧ t.chip.branches = s.chip.branches ∧ SamePlant s t
          ∧ SameSubscribers s t ∧ SameTime s t ∧ t.chip.orders = s.chip.orders ∧ t.pending = s.pending

/-- SWEEP_VISIT recomputes the desired state of the port at its cursor and of no other, and moves on; after port 2559
the sweep ends and a HELD take is refused or taken, starting the next sweep (R10, R33, R35). -/
def Obligations.SweepVisitRecomputesOnePort : Prop :=
  ∀ (p : Nat) (s : State), s.chip.running = true → s.chip.sweep = some p → p < 2560 →
    ∃ t, exec .sweepVisit s = .next t ∧ (t.chip.port p).desired = s.chip.desiredOf p
      ∧ (∀ q, q ≠ p → (t.chip.port q).desired = (s.chip.port q).desired)
      ∧ (∀ q, (t.chip.port q).owner = (s.chip.port q).owner ∧ (t.chip.port q).applied = (s.chip.port q).applied
          ∧ (t.chip.port q).confirmed = (s.chip.port q).confirmed)
      ∧ (p < 2559 → t.chip.sweep = some (p + 1) ∧ t.chip.lineUp = s.chip.lineUp
          ∧ t.chip.journal = s.chip.journal ∧ SameSupervision s t)
      ∧ (p = 2559 → s.chip.lineUp.held = false → t.chip.sweep = none ∧ t.chip.lineUp = s.chip.lineUp
          ∧ t.chip.journal = s.chip.journal ∧ SameSupervision s t)
      ∧ (p = 2559 → s.chip.lineUp.held = true → s.chip.lineUp.gen ≠ some (takeWord s.chip.lineUp.mirror) →
          (∀ o, checkLineUp s.chip.lineUp.mirror = some o →
              t.chip.sweep = none ∧ t.chip.lineUp = { s.chip.lineUp with held := false, outcome := o })
            ∧ (checkLineUp s.chip.lineUp.mirror = none →
              t.chip.sweep = some 0 ∧ t.chip.lineUp.current = mirrorLineUp s.chip.lineUp.mirror
                ∧ t.chip.lineUp.gen = some (takeWord s.chip.lineUp.mirror) ∧ t.chip.lineUp.held = false
                ∧ t.chip.lineUp.outcome = .done))
      ∧ SamePlant s t ∧ SameTime s t
      ∧ t.chip.store = s.chip.store ∧ SameOutside s t

/-- PLANT_TAKE_REQUEST while RUNNING, with a take word other than the generation in force: a refusal shows its code and
changes no element. A take makes every element record that of the mirror and leaves a changed or new unit UNVERIFIED or
SUPPRESSED with nothing heard from it. Where no root changed and none is UNVERIFIED, the take is stated whole: an
unchanged element keeps its supervision record, but for an AMPLIFIER's counts where its levels changed; suppression
follows the FAILING ancestors of the new table; removed, moved and SUPPRESSED elements leave the repoll lists, and those
become UNVERIFIED join theirs in index order; ports are parked but for those of ANSWERING taps and IN FLIGHT ones; an
exchange on an element that is not unchanged is discarded, its PORT LOAD port PARKED and unconfirmed; and, while there
is room for their notices, the OPEN and COVERED records of changed and removed elements close WITHDRAWN, marks cleared,
and an OPEN record whose element is suppressed is COVERED (R52, R58, R61, R62, R68 to R71, R84 to R86, R88, R169). In
FILL before the automatic take, and where the word equals the generation in force, the write is captured, in FILL with
its valid marks, and nothing else changes; in FILL after the automatic take it is refused or taken at once (R68, R183).
What a removed element shows, nothing heard from it and its doubt flag cleared are the model's choices (logs 51, 48),
and so are the order of the notices (log 50), roots compared like the others (log 23) and the notices' account, amount
and cycle 0 (log 27). The write stands alone (log 9). -/
def Obligations.PlantTakeChecksThenTakes : Prop :=
  (∀ (h : HalfWrite) (s : State), Settled s → ArrayCanonical s → BusFree s → s.chip.running = true →
    s.chip.part.mapInForce = true → touchesWord h = true → s.chip.kindOf s.chip.config.plant.base = .plant 0 →
    let a := s.chip.config.plant.base
    let m := Memory.writeHost s.chip.plant.mirror a (halfWord h a)
    let d := s.chip.setPlant { s.chip.plant with mirror := m }
    s.chip.plant.gen ≠ some (takeWord m) →
    ∃ t, exec (.plantTakeRequest h) s = .next t ∧ HalfWritten s.array t.array a h
      ∧ (∀ o, d.checkPlant = some o →
          t.chip.plant = { s.chip.plant with mirror := m, outcome := o } ∧ t.chip.elements = s.chip.elements
            ∧ t.chip.outages = s.chip.outages ∧ SameLinks s t ∧ SameSubscribers s t ∧ SameQueues s t)
      ∧ (d.checkPlant = none →
          t.chip.plant = { mirror := m, gen := some (takeWord m), outcome := .done }
            ∧ (∀ e, e < 640 → (t.chip.element e).record = mirrorElement m e)
            ∧ (∀ e, 4 ≤ e → e < 640 → (d.classAt e).lost = true ∨ (d.classAt e).fresh = true →
              ((t.chip.element e).sup.state = .unverified ∨ (t.chip.element e).sup.state = .suppressed)
                ∧ (t.chip.element e).sup.history = 0 ∧ (t.chip.element e).heard = none)
            ∧ (∀ i, (t.chip.sub i).taken = (s.chip.sub i).taken)
            ∧ ((∀ b, b < 4 → d.classAt b = .unchanged
                ∧ ((s.chip.element b).sup.state = .answering ∨ (s.chip.element b).sup.state = .failing)) →
              (∀ e, e < 640 →
                let nothing := (d.classAt e).fresh = true ∨ d.classAt e = .removed
                (t.chip.element e).sup = d.supAfterTake e
                  ∧ (t.chip.element e).heard = (if nothing then none else (s.chip.element e).heard)
                  ∧ (t.chip.element e).doubt = (if nothing then false else (s.chip.element e).doubt))
              ∧ (∀ b, b < 4 →
                  ((s.chip.branch b).hold.isSome = true ∨ (s.chip.element b).sup.state = .failing →
                      (t.chip.branch b).repoll = d.repollAfterTake b)
                    ∧ ((s.chip.branch b).hold = none → (s.chip.element b).sup.state = .answering →
                      ∀ e rest, d.repollAfterTake b = e :: rest → (t.chip.branch b).link = .sending
                        ∧ (t.chip.branch b).hold.map (·.element) = some e ∧ (t.chip.branch b).repoll = rest)
                    ∧ ∀ x, (s.chip.branch b).hold = some x →
                      (x.discard = true ∨ d.classAt x.element = .unchanged → (t.chip.branch b).hold = some x)
                        ∧ (x.discard = false → d.classAt x.element ≠ .unchanged →
                          (t.chip.branch b).hold = some { x with last := true, discard := true }
                            ∧ ∀ p, x.port = some p → p < 2560 → t.chip.port p = { s.chip.port p with
                                condition := .parked, confirmed := false, sent := none }))
              ∧ (∀ p, p < 2560 → (∀ b x, b < 4 → (s.chip.branch b).hold = some x → x.port ≠ some p) →
                  t.chip.port p = d.portAfterTake p)
              ∧ (s.chip.journal.queue.length + (s.chip.outages.records.filter d.withdrawn).length ≤ 56 →
                s.chip.outages.records.Pairwise (fun x y => x.id ≠ y.id
                  ∧ (x.kind = y.kind → x.object = y.object → x.state = .closed ∨ y.state = .closed)) →
                t.chip.outages = { s.chip.outages with records := s.chip.outages.records.map d.recordAfterTake }
                  ∧ t.chip.journal = { s.chip.journal with queue := s.chip.journal.queue ++ d.withdrawalNotices }
                  ∧ ∀ e, e < 640 → (t.chip.element e).mark =
                      if (d.classAt e).lost = true then none else (s.chip.element e).mark)))
      ∧ SameTime s t ∧ SameLineUp s t ∧ t.chip.sources = s.chip.sources ∧ t.chip.store = s.chip.store
      ∧ SameBus s t ∧ t.pending = s.pending)
    ∧ ∀ (h : HalfWrite) (s : State), Settled s → ArrayCanonical s → BusFree s →
    s.chip.part.state = .fill ∨ s.chip.part.state = .running → s.chip.part.mapInForce = true → touchesWord h = true →
    s.chip.kindOf s.chip.config.plant.base = .plant 0 → Memory.wf s.chip.part.marks = true →
    let a := s.chip.config.plant.base
    let m := Memory.writeHost s.chip.plant.mirror a (halfWord h a)
    let d := s.chip.setPlant { s.chip.plant with mirror := m }
    ((s.chip.part.state = .fill ∧ s.chip.plant.gen = none) ∨ s.chip.plant.gen = some (takeWord m) →
      ∃ t, exec (.plantTakeRequest h) s = .next t ∧ HalfWritten s.array t.array a h ∧ MarksAfter s t a h
        ∧ t.chip = d.setPart { s.chip.part with marks := t.chip.part.marks } ∧ t.pending = s.pending)
      ∧ ∀ g, s.chip.part.state = .fill → s.chip.plant.gen = some g → g ≠ takeWord m →
        ∃ t, exec (.plantTakeRequest h) s = .next t ∧ HalfWritten s.array t.array a h ∧ MarksAfter s t a h
          ∧ t.chip.part = { s.chip.part with marks := t.chip.part.marks }
          ∧ (∀ o, d.checkPlant = some o →
              t.chip = (s.chip.setPlant { s.chip.plant with mirror := m, outcome := o }).setPart t.chip.part)
          ∧ (d.checkPlant = none →
              t.chip.plant = { mirror := m, gen := some (takeWord m), outcome := .done }
                ∧ ∀ e, e < 640 → (t.chip.element e).record = mirrorElement m e
                  ∧ (t.chip.element e).sup = d.supAfterTake e)
          ∧ SameTime s t ∧ SameLineUp s t ∧ t.chip.sources = s.chip.sources ∧ t.chip.store = s.chip.store
          ∧ t.chip.orders = s.chip.orders ∧ t.pending = s.pending

/-- REVISION_WRITE while RUNNING: the bytes reach the array and the intent mirror; a record that does not wait yet
joins the take queue and shows PENDING, and one that waits keeps its place (R24, R169). The write stands alone (log
9). -/
def Obligations.RevisionWriteQueuesTheRecord : Prop :=
  ∀ (i : Nat) (h : HalfWrite) (s : State), Settled s → ArrayCanonical s → BusFree s → s.chip.running = true →
    s.chip.part.mapInForce = true → touchesWord h = true → i < 2048 →
    let a := s.chip.config.subscriber.base + 128 * i
    s.chip.kindOf a = .intent (128 * i) →
    ∃ t, exec (.revisionWrite i h) s = .next t ∧ HalfWritten s.array t.array a h
      ∧ t.chip.store.mirror = Memory.writeHost s.chip.store.mirror s.chip.config.subscriber.base (halfWord h a)
      ∧ t.chip.store = { s.chip.store with mirror := t.chip.store.mirror, queue := t.chip.store.queue }
      ∧ (i ∈ s.chip.store.queue → t.chip.store.queue = s.chip.store.queue ∧ t.chip.subs = s.chip.subs)
      ∧ (i ∉ s.chip.store.queue → t.chip.store.queue = s.chip.store.queue ++ [i]
          ∧ (t.chip.sub i).live = { (s.chip.sub i).live with outcome := .pending }
          ∧ (t.chip.sub i).taken = (s.chip.sub i).taken
          ∧ ((s.chip.sub i).live.outcome ≠ .pending → (t.chip.sub i).dirty = true))
      ∧ (∀ j, j ≠ i → t.chip.sub j = s.chip.sub j)
      ∧ SameLinks s t ∧ SameSupervision s t ∧ SameTime s t ∧ SameLineUp s t ∧ SameQueues s t ∧ SameBus s t
      ∧ t.pending = s.pending

/-- REVISION_TAKE without effect on the service: a revision equal to the taken one shows DONE; another intent that fails
a check shows that check's code; the record leaves the queue and keeps its taken intent, and nothing else changes
(R25, R26). -/
def Obligations.RevisionTakeRepeatsOrRefuses : Prop :=
  ∀ (i : Nat) (s : State), Settled s → s.chip.takeTurn = true → s.chip.servable = some i → i < 2048 →
    let n := s.chip.intent i
    let owner := (s.chip.port (n.element * 4 + n.port)).owner
    let code : Option OutcomeCode :=
      if n.revision = (s.chip.sub i).live.takenRev then some .done
      else if n.status = 0 then none
      else if 2 < n.status then some .statusCode
      else if 7 < n.zone then some .zoneRange
      else if 639 < n.element ∨ s.chip.isTap n.element = false then some .notATap
      else if 3 < n.port then some .portRange
      else if owner ≠ none ∧ owner ≠ some i then some .portTaken
      else if (s.chip.sub i).live.state = .final then some .finalPending
      else none
    ∀ o, code = some o →
      ∃ t, exec .revisionTake s = .next t
        ∧ (t.chip.sub i).live = { (s.chip.sub i).live with outcome := o }
        ∧ (t.chip.sub i).taken = (s.chip.sub i).taken
        ∧ t.chip.store.queue = s.chip.store.queue.filter (· != i)
        ∧ t.chip.store = { s.chip.store with queue := t.chip.store.queue, turn := .takeServed }
        ∧ (∀ j, j ≠ i → t.chip.sub j = s.chip.sub j)
        ∧ SameLinks s t ∧ SameSupervision s t ∧ SameTime s t ∧ SameLineUp s t ∧ SameQueues s t ∧ SameBus s t
        ∧ SameOutside s t

/-- REVISION_TAKE of an ACTIVE or SUSPENDED intent that passes the checks: the intent is taken, the record has its state
and owns the port named, whose owner it becomes; a port it owned before has no owner (R27, R28). -/
def Obligations.RevisionTakeEntersService : Prop :=
  ∀ (i : Nat) (s : State), s.chip.takeTurn = true → s.chip.servable = some i → i < 2048 →
    let n := s.chip.intent i
    let p := n.element * 4 + n.port
    n.revision ≠ (s.chip.sub i).live.takenRev → (n.status = 1 ∨ n.status = 2) → n.zone < 8 → n.element < 640 →
    s.chip.isTap n.element = true → n.port < 4 →
    ((s.chip.port p).owner = none ∨ (s.chip.port p).owner = some i) → (s.chip.sub i).live.state ≠ .final →
    ∃ t, exec .revisionTake s = .next t ∧ (t.chip.sub i).taken = n
      ∧ (t.chip.sub i).live.state = (if n.status = 1 then .active else .suspended)
      ∧ (t.chip.sub i).live.takenRev = n.revision ∧ (t.chip.sub i).live.outcome = .done
      ∧ (t.chip.sub i).live.owned = some { element := n.element, port := n.port, zone := n.zone }
      ∧ (s.chip.ownedPort i ≠ some p → (t.chip.port p).owner = some i)
      ∧ (∀ o, s.chip.ownedPort i = some o → o ≠ p → o < 2560 → (t.chip.port o).owner = none)
      ∧ (t.chip.port p).desired = t.chip.desiredOf p
      ∧ (∀ j, j ≠ i → t.chip.sub j = s.chip.sub j)
      ∧ t.chip.store.queue = s.chip.store.queue.filter (· != i)
      ∧ SameSupervision s t ∧ SameTime s t ∧ SameLineUp s t ∧ SameOutside s t

/-- REVISION_TAKE of a VACANT intent. A record that is not in use keeps its state and shows DONE. A record in use
releases its port, whose desired state is OFF, and goes on by its open business: if its cycle has ended it is closed
first, with a CYCLE TOTAL entry; it becomes FINAL; an open held run is resolved, by an OUTAGE CREDIT entry from the
credit threshold on and by a back-charge below it; its purchases end in list order, BOOKED and CHARGED ones without an
entry, OPENING ones with a PURCHASE LAPSED notice, CONFIRMED ones charged with a PURCHASE CHARGE entry; and it shows
DONE. Where the close, the credit or a charge finds no slot free, the take stops there, holds the store, and its outcome
stands (R28 to R31, R118, R131, R137, R144, R145, R153). Each of the three is stated with the other two absent, and the
amounts without a clamp. That the applied summary shows OFF from the release on is the model's choice (log 25; R125 does
not say when it changes). -/
def Obligations.RevisionTakeVacates : Prop :=
  ∀ (i : Nat) (s : State), s.chip.takeTurn = true → s.chip.servable = some i → i < 2048 →
    let n := s.chip.intent i
    let l := (s.chip.sub i).live
    let M : Int := s.chip.clock.cal.m
    let vacated := { l with
      takenRev := n.revision, owned := none, appliedOn := false, appliedTiers := 0, confirmed := false, stuck := false }
    let final := { vacated with state := .final }
    let entry := fun (amount : Int) (cycle : Byte) (body : EntryBody) =>
      ({ entry := { index := i, minute := s.chip.eventMinute i, account := n.account, amount := amount
                    cycle := cycle, body := body }
         ring := 0, writing := false } : Queued)
    let joined := fun (t : State) (q : List Queued) =>
      t.chip.journal = { s.chip.journal with queue := s.chip.journal.queue ++ q }
    let served := { s.chip.store with queue := s.chip.store.queue.filter (· != i), turn := .takeServed }
    let done := fun (t : State) (x : Live) (q : List Queued) =>
      (t.chip.sub i).live = { x with outcome := .done } ∧ t.chip.store = served ∧ joined t q
    let stopped := fun (t : State) (x : Live) (step : TakeStep) =>
      (t.chip.sub i).live = x ∧ joined t []
        ∧ t.chip.store = { served with hold := some (.take i step), answered := false }
    let within := fun x : Int => -2000000000 ≤ x ∧ x ≤ 2000000000
    let current := l.cycle = s.chip.clock.cal.cycle
    n.revision ≠ l.takenRev → n.status = 0 →
    ∃ t, exec .revisionTake s = .next t ∧ (t.chip.sub i).taken = n
      ∧ (l.state = .free ∨ l.state = .final → done t { l with takenRev := n.revision } [])
      ∧ (t.chip.sub i).live.takenRev = n.revision
      ∧ (l.state = .active ∨ l.state = .suspended →
          (t.chip.sub i).live.owned = none ∧ (t.chip.sub i).live.appliedOn = false
            ∧ (∀ p, s.chip.ownedPort i = some p → p < 2560 →
              (t.chip.port p).owner = none ∧ (t.chip.port p).desired = .off)
            ∧ (current → l.outSince = none → l.purchases = [] → done t final [])
            ∧ (¬ current → 64 ≤ s.chip.journal.queue.length → stopped t vacated .close)
            ∧ (¬ current → s.chip.journal.queue.length < 64 → l.outSince = none → l.purchases = [] →
                done t { final with
                    tierAmount := 0, eventAmount := 0, remainder := 0, saturated := false
                    cycle := s.chip.clock.cal.cycle }
                  [entry (max (-2000000000) (min 2000000000 (l.tierAmount + l.eventAmount))) l.cycle
                    (.cycleTotal false l.saturated 0 l.remainder l.tierAmount l.eventAmount l.heldMinutes 65535)])
            ∧ (current → l.outSince.isSome = true → s.chip.config.creditThreshold ≤ l.heldMinutes →
                64 ≤ s.chip.journal.queue.length → stopped t final .credit)
            ∧ (current → l.outSince.isSome = true → l.purchases = [] →
                (s.chip.config.creditThreshold ≤ l.heldMinutes → s.chip.journal.queue.length < 64 →
                    done t { final with heldMinutes := 0, heldNumerator := 0, outSince := none }
                      [entry (l.heldNumerator.fdiv M) l.cycle
                        (.outageCredit s.chip.clock.cal.m l.heldMinutes l.heldNumerator l.outSince)])
                  ∧ (let owed := (l.remainder : Int) + l.heldNumerator
                    l.heldMinutes < s.chip.config.creditThreshold → within (l.tierAmount + owed.fdiv M) →
                    done t { final with
                        tierAmount := l.tierAmount + owed.fdiv M, remainder := (owed.fmod M).toNat
                        heldMinutes := 0, heldNumerator := 0, outSince := none } []))
            ∧ (current → l.outSince = none → l.purchases.length ≤ 4 →
                (let price := fun p : Purchase => if p.state = .confirmed then p.price else 0
                  let total := fun k : Nat => l.eventAmount + ((l.purchases.take k).map price).sum
                  (∀ k, k ≤ 4 → within (total k)) →
                  s.chip.journal.queue.length + l.purchases.length ≤ 56 →
                  done t { final with eventAmount := total 4, purchases := [] }
                    (l.purchases.filterMap fun p => match p.state with
                      | .booked => none
                      | .opening => some (entry 0 0 (.purchaseLapsed p.position p.start p.stop))
                      | .confirmed => some (entry p.price l.cycle (.purchaseCharge p.position p.start p.stop))
                      | .charged => none))
                  ∧ (∀ (before after : List Purchase) (p : Purchase), l.purchases = before ++ p :: after →
                    (∀ x ∈ before, x.state = .booked ∨ x.state = .charged) → p.state = .confirmed →
                    64 ≤ s.chip.journal.queue.length → stopped t { final with purchases := p :: after } .purchases)
                  ∧ (∀ p : Purchase, l.purchases = [p] → p.state = .opening → 56 ≤ s.chip.journal.queue.length →
                    (t.chip.sub i).live = { final with purchases := [], outcome := .done } ∧ t.chip.store = served
                      ∧ t.chip.journal = { s.chip.journal with dropped := s.chip.journal.dropped + 1 })))
      ∧ (∀ j, j ≠ i → t.chip.sub j = s.chip.sub j)
      ∧ SameSupervision s t ∧ SameTime s t ∧ SameLineUp s t ∧ SameOutside s t

/-! ### Branch links -/

/-- The end of a frame opens the reply window, and a frame discarded in a window is counted, on the branch links and
on the rack link alike (R42, R43, R94, R95). For a discarded exchange of a branch nothing is read: what arrives
changes nothing and no frame is counted (R62; that the event row changes nothing there is log 22). That the event
changes nothing on a link that is not in the state for it is, for the end of a frame, the model's choice (log 2). -/
def Obligations.FramesSentAndRejected : Prop :=
  (∀ (b : Fin 4) (s : State), Settled s →
      ((s.chip.branch b).link = .sending → ∃ t, exec (.branchFrameSent b) s = .next t
        ∧ t.chip = s.chip.updBranch b (fun r => { r with link := .listening }) ∧ SameOutside s t)
      ∧ ((s.chip.branch b).link ≠ .sending → exec (.branchFrameSent b) s = .next s)
      ∧ ((s.chip.branch b).link = .listening → (∀ x, (s.chip.branch b).hold = some x → x.discard = false) →
        ∃ t, exec (.branchFrameRejected b) s = .next t
          ∧ t.chip = s.chip.updBranch b (fun r => { r with rejected := r.rejected + 1 }) ∧ SameOutside s t)
      ∧ (∀ x, (s.chip.branch b).hold = some x → x.discard = true → exec (.branchFrameRejected b) s = .next s
        ∧ ∀ bytes, exec (.branchReplyReceived b bytes) s = .next s)
      ∧ ((s.chip.branch b).link ≠ .listening → exec (.branchFrameRejected b) s = .next s
        ∧ ∀ bytes, exec (.branchReplyReceived b bytes) s = .next s))
    ∧ ∀ s : State, Settled s →
      (s.chip.rack.link = .sending → ∃ t, exec .rackFrameSent s = .next t
        ∧ t.chip = s.chip.setRack { s.chip.rack with link := .listening } ∧ SameOutside s t)
      ∧ (s.chip.rack.link ≠ .sending → exec .rackFrameSent s = .next s)
      ∧ (s.chip.rack.link = .listening → ∃ t, exec .rackFrameRejected s = .next t
        ∧ t.chip = s.chip.setRack { s.chip.rack with rejected := s.chip.rack.rejected + 1 } ∧ SameOutside s t)
      ∧ (s.chip.rack.link ≠ .listening → exec .rackFrameRejected s = .next s
        ∧ ∀ bytes, exec (.rackReplyReceived bytes) s = .next s)

/-- A reply window that closes with an attempt left sends the same frame again as the next attempt; after the third,
or on a link whose root has failed, or for a discarded exchange, the exchange is counted as made and unanswered (R42,
R44, R60 to R62; that a discarded one counts as unanswered is log 22). A PORT LOAD that ends so leaves its port's
applied state unconfirmed, its mismatch count as it was and its unit's load-doubt flag set; the port is DIRTY again,
or IN FLIGHT where its branch takes it up at once, and PARKED where the unit has become FAILING by it (R51, R52; that
the flag is set then too is log 36). -/
def Obligations.WindowClosedRetriesOrCounts : Prop :=
  ∀ (b : Fin 4) (x : Exchange) (s : State), Settled s → (s.chip.branch b).link = .listening →
    (s.chip.branch b).hold = some x →
    (x.attempt < 3 → x.last = false → ∃ t, exec (.branchReplyWindowClosed b) s = .next t
        ∧ t.chip = s.chip.updBranch b
            (fun r => { r with link := .sending, hold := some { x with attempt := x.attempt + 1 } })
        ∧ SameOutside s t)
      ∧ (3 ≤ x.attempt ∨ x.last = true → ∃ t, exec (.branchReplyWindowClosed b) s = .next t
        ∧ (t.chip.branch b).exchanges = (s.chip.branch b).exchanges + 1
        ∧ (t.chip.branch b).unanswered = (s.chip.branch b).unanswered + 1
        ∧ (t.chip.branch b).rejected = (s.chip.branch b).rejected
        ∧ (x.discard = true → (s.chip.linkOpen b = false → (t.chip.branch b).link = .silent)
            ∧ SameSupervision s t ∧ SameSubscribers s t ∧ t.chip.journal = s.chip.journal)
        ∧ (∀ p, x.discard = false → x.port = some p → x.element = p / 4 → p < 2560 →
            (s.chip.element (p / 4)).record.inUse = true → (s.chip.element (p / 4)).record.kind = .tap →
            (s.chip.element (p / 4)).sup.state = .answering → (s.chip.port p).condition = .inFlight →
            (∀ k, k < 4 → p ∉ (s.chip.branch k).dirty) →
            (t.chip.port p).confirmed = false ∧ (t.chip.port p).applied = (s.chip.port p).applied
              ∧ (t.chip.port p).mismatch = (s.chip.port p).mismatch ∧ (t.chip.element (p / 4)).doubt = true
              ∧ (∀ i, (s.chip.port p).owner = some i → i < 2048 → (t.chip.sub i).live.confirmed = false)
              ∧ ((s.chip.element (p / 4)).sup.unanswered < 2 → (t.chip.port p).condition = .dirty
                ∨ ((t.chip.port p).condition = .inFlight ∧ (t.chip.port p).sent = some (t.chip.port p).desired))
              ∧ ((s.chip.element (p / 4)).sup.unanswered = 2 → (t.chip.port p).condition = .parked
                ∧ (t.chip.port p).sent = none ∧ (t.chip.element (p / 4)).sup.state = .failing))
        ∧ SameTime s t ∧ SameLineUp s t ∧ SameOutside s t)

/-- An unanswered poll of an ANSWERING element with fewer than two unanswered before it: the reply history shifts in a
0, the unanswered count rises and the answered count is 0, the run's start is kept from its first exchange; the third
in a row makes it FAILING with that start (R74, R76). -/
def Obligations.UnansweredPollsMakeAnElementFail : Prop :=
  ∀ (b : Fin 4) (x : Exchange) (s : State), (s.chip.branch b).link = .listening →
    (s.chip.branch b).hold = some x → (3 ≤ x.attempt ∨ x.last = true) → x.discard = false → x.port = none →
    x.element < 640 → (s.chip.element x.element).sup.state = .answering →
    let r := (s.chip.element x.element).sup
    ∃ t, exec (.branchReplyWindowClosed b) s = .next t
      ∧ (t.chip.element x.element).sup.history = r.history <<< 1
      ∧ (r.unanswered < 2 →
          (t.chip.element x.element).sup =
              { r with history := r.history <<< 1, answered := 0, unanswered := r.unanswered + 1
                       runStart := if r.unanswered = 0 then s.chip.clock.minute else r.runStart }
            ∧ (∀ e, e ≠ x.element → t.chip.element e = s.chip.element e) ∧ t.chip.subs = s.chip.subs
            ∧ t.chip.journal = s.chip.journal ∧ t.chip.outages = s.chip.outages)
      ∧ (r.unanswered = 2 → (t.chip.element x.element).sup.state = .failing
          ∧ (t.chip.element x.element).sup.failure = r.runStart)
      ∧ SameTime s t ∧ SameLineUp s t ∧ SameOutside s t

/-- A valid STATUS REPLY ends its exchange answered: the history shifts in a 1; unless the element is SUPPRESSED, the
unanswered count is 0 and the answered count rises to at most 2. An ANSWERING node or tap stays so, an UNVERIFIED node
becomes ANSWERING with no failure start, a FAILING node does on its second answer in a row. An AMPLIFIER takes the
level as a sample of its hysteresis, N_trip 3 and N_clear 2: an ANSWERING one that has just TRIPPED is FAILING from
the start of the low run, an UNVERIFIED one becomes ANSWERING unless TRIPPED. A TAP's unit has been heard with its
load count; a restart, a summary that differs from the applied states, or an unexplained load makes all four ports
unconfirmed, an IDLE or STUCK one DIRTY, or IN FLIGHT where its branch takes it up at once, with mismatch count 0
where it was STUCK. A TAP that becomes ANSWERING has its four ports unparked: unconfirmed, mismatch count 0, DIRTY or
already IN FLIGHT (R43, R44, R53, R54, R56, R74 to R77, R80, R189). What the low-run start holds while no low run goes
on is the model's choice (logs 52, 64). -/
def Obligations.StatusReplyAnswersThePoll : Prop :=
  ∀ (b : Fin 4) (x : Exchange) (level flags count : Byte) (s : State), (s.chip.branch b).link = .listening →
    (s.chip.branch b).hold = some x → x.discard = false → x.port = none → x.address < 1024 → x.element < 640 →
    let el := s.chip.element x.element
    let r := el.sup
    let history := (r.history <<< 1) ||| 1
    ∃ t, exec (.branchReplyReceived b (frameOf x.address 0x81 [level, flags, count])) s = .next t
      ∧ (t.chip.branch b).exchanges = (s.chip.branch b).exchanges + 1
      ∧ (t.chip.branch b).unanswered = (s.chip.branch b).unanswered
      ∧ (t.chip.branch b).rejected = (s.chip.branch b).rejected
      ∧ (t.chip.element x.element).sup.history = history
      ∧ (r.state = .suppressed → (t.chip.element x.element).sup = { r with history := history })
      ∧ (el.record.kind = .node ∨ el.record.kind = .tap → r.state = .answering →
          (t.chip.element x.element).sup =
              { r with history := history, unanswered := 0, answered := min 2 (r.answered + 1) }
            ∧ (∀ e, e ≠ x.element → t.chip.element e = s.chip.element e)
            ∧ t.chip.journal = s.chip.journal ∧ t.chip.outages = s.chip.outages)
      ∧ (el.record.kind = .node → (r.state = .answering → t.chip.subs = s.chip.subs)
          ∧ (r.state = .unverified → (t.chip.element x.element).sup.state = .answering
            ∧ (t.chip.element x.element).sup.failure = none ∧ (t.chip.element x.element).mark = none)
          ∧ (r.state = .failing → ((t.chip.element x.element).sup.state = .answering ↔ 1 ≤ r.answered)))
      ∧ (el.record.kind = .amplifier → r.state ≠ .suppressed →
          let y := ({ state := r.level, low := r.low, high := r.high, start := r.lowStart } : LevelRun).sample
            el.record.arm el.record.trigger 3 2 level.toNat s.chip.clock.minute
          let z := (t.chip.element x.element).sup
          z.level = y.state ∧ z.low = y.low ∧ z.high = y.high ∧ z.lowStart = y.start
            ∧ (r.state = .answering → (r.level ≠ .tripped ∧ y.state = .tripped →
                  z.state = .failing ∧ z.failure = y.start)
                ∧ (¬ (r.level ≠ .tripped ∧ y.state = .tripped) → z.state = .answering))
            ∧ (r.state = .unverified → z.state = if y.state = .tripped then .unverified else .answering)
            ∧ (r.state = .failing → (z.state = .answering ↔ 1 ≤ r.answered ∧ y.state ≠ .tripped)))
      ∧ (el.record.kind = .tap → el.record.inUse = true →
          let reports := flags.getLsbD 7 = true
            ∨ (∃ k, k < 4 ∧ ¬ (flags.getLsbD k = true ↔ (s.chip.port (x.element * 4 + k)).applied ≠ .off))
            ∨ (el.doubt = false ∧ ∃ n, el.heard = some n ∧ n ≠ count)
          (t.chip.element x.element).heard = some count ∧ (t.chip.element x.element).doubt = false
            ∧ (reports → ∀ k, k < 4 → (t.chip.port (x.element * 4 + k)).confirmed = false)
            ∧ (r.state = .unverified ∨ (r.state = .failing ∧ 1 ≤ r.answered) →
              (t.chip.element x.element).sup.state = .answering ∧ (t.chip.element x.element).sup.failure = none
                ∧ ∀ k, k < 4 → let p := t.chip.port (x.element * 4 + k)
                  p.confirmed = false ∧ p.mismatch = 0 ∧ (p.condition = .dirty ∨ p.condition = .inFlight))
            ∧ (r.state = .answering →
              (reports → ∀ k, k < 4 →
                  ((s.chip.port (x.element * 4 + k)).condition = .idle
                      ∨ (s.chip.port (x.element * 4 + k)).condition = .stuck →
                    (t.chip.port (x.element * 4 + k)).condition = .dirty
                      ∨ (t.chip.port (x.element * 4 + k)).condition = .inFlight)
                    ∧ ((s.chip.port (x.element * 4 + k)).condition = .stuck →
                      (t.chip.port (x.element * 4 + k)).mismatch = 0))
                ∧ (¬ reports → (∀ p, (t.chip.port p).confirmed = (s.chip.port p).confirmed)
                  ∧ t.chip.subs = s.chip.subs)))
      ∧ SameTime s t ∧ SameLineUp s t ∧ SameOutside s t

/-- A valid PORT REPLY settles its port from the state it reports: applied state and confirmed flag, the mismatch
count, and the load count heard from the unit; the exchange is counted and the supervision record sees an answer. At
count 3 the port is STUCK and PORT STUCK is offered; below it is DIRTY, or IN FLIGHT where its branch takes it up at
once, if it needs a load, IDLE if not. The owner's OPENING purchases outside the reported jam set are CONFIRMED and no
other changes. A reply of OFF where the owner was applied ON with a held run open resolves the run: one OUTAGE CREDIT
from the threshold on, or nothing done where no slot is free, a back-charge below it (R43, R44, R50, R55, R56, R74,
R121, R131, R132, R136, R189). The notice's account, amount and cycle 0 are the model's choice (log 27), and so are
that it is raised before the report's own entries (log 49) and that a third mismatch makes the port STUCK also where
the reply matches the changed desired state (log 63). -/
def Obligations.PortReplySettlesThePort : Prop :=
  ∀ (b : Fin 4) (x : Exchange) (p : Nat) (st : PortState) (count : Byte) (s : State),
    (s.chip.branch b).link = .listening → (s.chip.branch b).hold = some x → x.discard = false → x.port = some p →
    x.element = p / 4 → p < 2560 → x.address < 1024 → (s.chip.element (p / 4)).sup.state = .answering →
    (s.chip.element (p / 4)).record.inUse = true → (s.chip.element (p / 4)).record.kind = .tap →
    let n := if (s.chip.port p).sent = some st then 0 else min 3 ((s.chip.port p).mismatch + 1)
    ∃ t, exec (.branchReplyReceived b (frameOf x.address 0x82 (portPayload p st ++ [count]))) s = .next t
      ∧ (t.chip.port p).applied = st ∧ (t.chip.port p).confirmed = true
      ∧ (n < 3 → (t.chip.port p).mismatch = n)
      ∧ (∀ q, q ≠ p → (t.chip.port q).applied = (s.chip.port q).applied
          ∧ (t.chip.port q).confirmed = (s.chip.port q).confirmed)
      ∧ (t.chip.element (p / 4)).heard = some count ∧ (t.chip.element (p / 4)).doubt = false
      ∧ (t.chip.element (p / 4)).sup.unanswered = 0 ∧ (t.chip.element (p / 4)).sup.state = .answering
      ∧ (∀ e, e ≠ p / 4 → t.chip.element e = s.chip.element e)
      ∧ (t.chip.branch b).exchanges = (s.chip.branch b).exchanges + 1
      ∧ (t.chip.branch b).unanswered = (s.chip.branch b).unanswered
      ∧ ((∀ k, k < 4 → p ∉ (s.chip.branch k).dirty) →
        (st = .off ∨ ∀ i, (s.chip.port p).owner = some i → ∀ q ∈ (s.chip.sub i).live.purchases, q.state ≠ .opening) →
        (n = 3 → (t.chip.port p).condition = .stuck ∧ (t.chip.port p).mismatch = 3)
          ∧ (n < 3 → (s.chip.port p).desired = st → (t.chip.port p).condition = .idle)
          ∧ (n < 3 → (s.chip.port p).desired ≠ st →
            (t.chip.port p).condition = .dirty ∨ (t.chip.port p).condition = .inFlight)
          ∧ ∀ i, (s.chip.port p).owner = some i → i < 2048 →
            (t.chip.sub i).live.confirmed = true ∧ (t.chip.sub i).live.stuck = decide (n = 3)
              ∧ ((t.chip.sub i).live.appliedOn = true ↔ st ≠ .off)
              ∧ ∀ tiers jam, st = .on tiers jam → (t.chip.sub i).live.appliedTiers = tiers)
      ∧ ((st ≠ .off ∨ ∀ i, (s.chip.port p).owner = some i → (s.chip.sub i).live.outSince = none) →
        (n = 3 → NoticeOffered s.chip t.chip p (.portStuck (s.chip.port p).owner p st))
          ∧ (n < 3 → t.chip.journal = s.chip.journal))
      ∧ (∀ i, (s.chip.port p).owner = some i → i < 2048 →
        (∀ tiers jam, st = .on tiers jam → (t.chip.sub i).live.purchases = (s.chip.sub i).live.purchases.map fun q =>
            if q.state = .opening ∧ jam.getLsbD q.position = false then { q with state := .confirmed } else q)
          ∧ (st = .off → (t.chip.sub i).live.purchases = (s.chip.sub i).live.purchases)
          ∧ (st = .off → n < 3 → (s.chip.sub i).live.appliedOn = true → (s.chip.sub i).live.outSince.isSome = true →
            (s.chip.sub i).live.cycle = s.chip.clock.cal.cycle → 1 ≤ s.chip.clock.cal.m →
            let l := (s.chip.sub i).live
            let M : Int := s.chip.clock.cal.m
            let sum := (l.remainder : Int) + l.heldNumerator
            let off : Live := { l with appliedOn := false, appliedTiers := 0, confirmed := true, stuck := false }
            (s.chip.config.creditThreshold ≤ l.heldMinutes → s.chip.journal.queue.length < 64 →
                (t.chip.sub i).live = { off with heldMinutes := 0, heldNumerator := 0, outSince := none }
                  ∧ t.chip.journal = { s.chip.journal with queue := s.chip.journal.queue
                    ++ [{ entry := { index := i, minute := s.chip.eventMinute i, account := (s.chip.sub i).taken.account
                                     amount := l.heldNumerator.fdiv M, cycle := l.cycle
                                     body := .outageCredit s.chip.clock.cal.m l.heldMinutes l.heldNumerator l.outSince }
                          ring := 0, writing := false }] })
              ∧ (s.chip.config.creditThreshold ≤ l.heldMinutes → 64 ≤ s.chip.journal.queue.length →
                (t.chip.sub i).live = off ∧ t.chip.journal = s.chip.journal)
              ∧ (l.heldMinutes < s.chip.config.creditThreshold → -2000000000 ≤ l.tierAmount + sum.fdiv M →
                l.tierAmount + sum.fdiv M ≤ 2000000000 →
                (t.chip.sub i).live = { off with
                    tierAmount := l.tierAmount + sum.fdiv M, remainder := (sum.fmod M).toNat, heldMinutes := 0
                    heldNumerator := 0, outSince := none }
                  ∧ t.chip.journal = s.chip.journal)))
      ∧ SameTime s t ∧ SameLineUp s t ∧ t.chip.store = s.chip.store ∧ SameOutside s t

/-- CARRIER_LOST at an ANSWERING root while RUNNING: the root is FAILING from the current minute and every element
below it SUPPRESSED; CARRIER_PRESENT at a FAILING or UNVERIFIED root: the root is ANSWERING with no failure start;
while the part is not RUNNING only the carrier state changes (R60, R78, R79, R80). The event stands for its timer's
expiry (log 12). CARRIER_INPUT_CHANGE sets the input level of its branch, restarts the timer that the level and the
carrier state call for, and changes nothing else; an unchanged level changes nothing (R60). -/
def Obligations.CarrierDecidesTheRoot : Prop :=
  (∀ (b : Fin 4) (s : State), s.chip.part.state ≠ .transparent →
    ((s.chip.branch b).carrier ≠ .lost → ∃ t, exec (.carrierLost b) s = .next t
        ∧ (t.chip.branch b).carrier = .lost ∧ (t.chip.branch b).timing = .stopped
        ∧ (s.chip.running = true → (s.chip.element b).sup.state = .answering →
            (t.chip.element b).sup.state = .failing ∧ (t.chip.element b).sup.failure = s.chip.clock.minute
              ∧ ∀ e, e ≠ b.val → s.chip.inSubtree b e = true → (t.chip.element e).sup.state = .suppressed)
        ∧ (s.chip.running = false → Settled s → t.chip = s.chip.updBranch b
            (fun r => { r with carrier := .lost, input := false, timing := .stopped }))
        ∧ SameTime s t ∧ SameLineUp s t ∧ SameOutside s t)
      ∧ ((s.chip.branch b).carrier ≠ .present → ∃ t, exec (.carrierPresent b) s = .next t
        ∧ (t.chip.branch b).carrier = .present ∧ (t.chip.branch b).timing = .stopped
        ∧ (s.chip.running = true →
            (s.chip.element b).sup.state = .failing ∨ (s.chip.element b).sup.state = .unverified →
            (t.chip.element b).sup.state = .answering ∧ (t.chip.element b).sup.failure = none)
        ∧ (s.chip.running = false → Settled s → t.chip = s.chip.updBranch b
            (fun r => { r with carrier := .present, input := true, timing := .stopped }))
        ∧ SameTime s t ∧ SameLineUp s t ∧ SameOutside s t))
    ∧ ∀ (b : Fin 4) (high : Bool) (s : State),
      ∃ t, exec (.carrierInputChange b high) s = .next t ∧ (t.chip.branch b).input = high
        ∧ (t.chip.branch b).carrier = (s.chip.branch b).carrier
        ∧ ((s.chip.branch b).input = high → t.chip.branch b = s.chip.branch b)
        ∧ ((s.chip.branch b).input ≠ high → s.chip.part.state ≠ .transparent →
            (t.chip.branch b).timing =
              if (high = true ∧ (s.chip.branch b).carrier = .present)
                ∨ (high = false ∧ (s.chip.branch b).carrier = .lost) then .stopped
              else if high = true then .high else .low)
        ∧ (∀ k, k ≠ b.val → t.chip.branch k = s.chip.branch k)
        ∧ t.chip = s.chip.setBranches t.chip.branches ∧ SameOutside s t

/-- Outage records. An opening appends an OPEN record under the next id with an OUTAGE OPENED notice, in the place of
the oldest CLOSED record where the table holds 64; with none CLOSED the object is marked unrecorded with its notice,
once; it waits where the object's record is CLOSING. Closing makes the record CLOSING with an OUTAGE CLOSED notice, or
CLOSED at once where the notice is dropped. A record that becomes CLOSED is freed if its flag is set; then the first
marked object still failing has its record opened, from the start minute of its mark, in the freed place or that of the
CLOSED record; then an opening that waited on its object proceeds if the object still fails. Suppression covers an OPEN
record and a failure opens a COVERED one again, with no notice. By command: CARRIER_LOST at an ANSWERING root with no
record and no mark opens its record from the current minute, and a completed tenure that wrote the OUTAGE CLOSED notice
makes its record CLOSED, with all that follows (R79, R83 to R86, R88, R153). That only the newest opening of an object
waits is the model's choice (log 28), and so are the notice's account, amount and cycle 0 (log 27). -/
def Obligations.OutagesOpenAndClose : Prop :=
  let alone := fun (before after : List Outage) (r : Outage) => ∀ x ∈ before ++ after, x.id ≠ r.id
  (∀ (c : Chip) (o : Opening),
    let d := c.openRequest o
    let l := c.outages.records
    let n := c.affected o.kind o.object
    let r : Outage :=
      { id := c.outages.nextId, kind := o.kind, object := o.object, state := .opened, start := o.start, stop := none
        affected := n, cause := .none, acknowledged := false }
    let opened := fun kept : List Outage => d.outages.records = kept ++ [r]
      ∧ (∀ x ∈ kept ++ [r], x.id ≠ d.outages.nextId) ∧ d.outages.waiting = c.outages.waiting
      ∧ NoticeOffered c d o.object (.outageOpened c.outages.nextId o.kind o.start n)
    (o.kind = .plant → n = ((List.range 2048).filter fun i => (c.sub i).live.state == .active
        && match (c.sub i).live.owned with
          | some w => c.isTap w.element && c.inSubtree o.object w.element
          | none => false).length)
      ∧ (o.kind = .source → n =
          ((List.range 64).filter fun q => (c.channel q).used && (c.channel q).primary == o.object).length)
      ∧ ((∃ x ∈ l, x.kind = o.kind ∧ x.object = o.object ∧ x.state = .closing) →
          d.outages.records = l ∧ d.journal = c.journal ∧ d.outages.nextId = c.outages.nextId
            ∧ d.outages.waiting =
                c.outages.waiting.filter (fun w => !(w.kind == o.kind && w.object == o.object)) ++ [o])
      ∧ ((∀ x ∈ l, x.kind = o.kind → x.object = o.object → x.state ≠ .closing) →
          (l.length < 64 → opened l)
            ∧ (∀ (before after : List Outage) (x : Outage), l = before ++ x :: after → l.length = 64 →
                x.state = .closed → (∀ y ∈ before, y.state ≠ .closed) → opened (before ++ after))
            ∧ (64 ≤ l.length → (∀ x ∈ l, x.state ≠ .closed) → d.outages.records = l
                ∧ (c.markOf o.kind o.object ≠ none → d = c)
                ∧ (c.markOf o.kind o.object = none → (o.kind = .plant → o.object < 640) →
                    (o.kind = .source → o.object < 32) → d.markOf o.kind o.object = some { start := o.start }
                      ∧ NoticeOffered c d o.object (.outageUnrecorded o.kind o.start)))))
    ∧ (∀ (c : Chip) (before after : List Outage) (r : Outage) (cause : CloseCause),
      c.outages.records = before ++ r :: after → alone before after r →
      let x : Outage := { r with state := .closing, stop := c.clock.minute, cause := cause }
      let d := c.closeRecord r cause
      (c.journal.queue.length < 56 → d.outages = { c.outages with records := before ++ x :: after }
          ∧ NoticeOffered c d r.object (.outageClosed r.id r.kind r.start c.clock.minute cause))
        ∧ (56 ≤ c.journal.queue.length →
            ClosedServes (c.setJournal { c.journal with dropped := c.journal.dropped + 1 }) d before after x))
    ∧ (∀ (c : Chip) (e : Nat) (before after : List Outage) (r : Outage),
      c.outages.records = before ++ r :: after → alone before after r → r.kind = .plant → r.object = e →
      (∀ x ∈ before, x.kind = .plant → x.object ≠ e) →
      (r.state = .opened →
          (c.suppress e).outages = { c.outages with records := before ++ { r with state := .covered } :: after }
            ∧ (c.suppress e).journal = c.journal)
        ∧ (r.state = .covered → ∀ start, c.recordFailure e start =
            c.setOutages { c.outages with records := before ++ { r with state := .opened } :: after }))
    ∧ (∀ (b : Fin 4) (s : State), s.chip.running = true → (s.chip.branch b).carrier ≠ .lost →
      (s.chip.element b).sup.state = .answering → (s.chip.element b).mark = none → s.chip.outages.records = [] →
      ∃ t, exec (.carrierLost b) s = .next t
        ∧ t.chip.outages.records =
            [{ id := s.chip.outages.nextId, kind := .plant, object := b, state := .opened
               start := s.chip.clock.minute, stop := none, affected := s.chip.affected .plant b, cause := .none
               acknowledged := false }]
        ∧ NoticeOffered s.chip t.chip b
            (.outageOpened s.chip.outages.nextId .plant s.chip.clock.minute (s.chip.affected .plant b)))
    ∧ ∀ (s : State) (before after : List Outage) (r : Outage) (q : Queued) (rest : List Queued) (kind : OutageKind)
      (start stop : Option Nat) (cause : CloseCause),
      s.chip.engine.request = .holding →
      s.chip.engine.tenure = some { fillReads := 0, entries := 1, checkpoint := none, writeBack := false } →
      s.chip.journal.queue = q :: rest → q.entry.body = .outageClosed r.id kind start stop cause →
      s.chip.outages.records = before ++ r :: after → alone before after r → r.state = .closing →
      s.chip.moneyWaiting = false →
      ∃ t, exec .tenureComplete s = .next t
        ∧ ClosedServes (s.chip.setJournal { s.chip.journal with queue := rest, tail := s.chip.journal.tail + 1 })
            t.chip before after r
        ∧ SameSubscribers s t ∧ t.chip.sources = s.chip.sources ∧ SamePlant s t ∧ SameTime s t

/-! ### The rack link and the sources -/

/-- A valid reply on the rack link: a CROSSPOINT REPLY with the source sent makes it the confirmed crosspoint and
clears the mismatch count, at no other position. One that reports another source or NOTHING makes that the confirmed
crosspoint: an UNUSED position is IDLE with count 0; a USED one counts the mismatch and is MARKED, or IN FLIGHT where
it is taken up at once, if it still needs a set, IDLE if not, and at count 3 STUCK with its notice. A GROUP REPLY
gives its four sources their levels, and no other source changes (R95 to R98, R102). The notice's account, amount and
cycle 0 are the model's choice (log 27), and so is that a third mismatch makes the position STUCK also where the reply
reports its present effective source (log 67). -/
def Obligations.RackRepliesReachTheirOwners : Prop :=
  (∀ (q k : Nat) (x : RackExchange) (s : State), Settled s → s.chip.rack.link = .listening →
      s.chip.rack.hold = some x → x.job = .set q k → q < 64 → k < 32 →
      ∃ t, exec (.rackReplyReceived (frameOf 1 0x83 [BitVec.ofNat 8 q, BitVec.ofNat 8 k])) s = .next t
        ∧ (t.chip.point q).confirmed = .source k ∧ (t.chip.point q).mismatch = 0
        ∧ (∀ j, j ≠ q → (t.chip.point j).confirmed = (s.chip.point j).confirmed
            ∧ (t.chip.point j).mismatch = (s.chip.point j).mismatch)
        ∧ t.chip.rack.exchanges = s.chip.rack.exchanges + 1 ∧ t.chip.rack.unanswered = s.chip.rack.unanswered
        ∧ t.chip.rack.rejected = s.chip.rack.rejected
        ∧ t.chip = s.chip.setRack t.chip.rack ∧ SameOutside s t)
    ∧ (∀ (q k : Nat) (v : Byte) (x : RackExchange) (s : State), Settled s → s.chip.rack.link = .listening →
      s.chip.rack.hold = some x → x.job = .set q k → q < 64 → k < 32 → v.toNat ≠ k → q ∉ s.chip.rack.pendingList →
      let r := if v.toNat < 32 then some v.toNat else none
      let n := min 3 ((s.chip.point q).mismatch + 1)
      let needs := ∃ e, (s.chip.effective q).source = some e ∧ r ≠ some e
      ∃ t, exec (.rackReplyReceived (frameOf 1 0x83 [BitVec.ofNat 8 q, v])) s = .next t
        ∧ (t.chip.point q).confirmed = (match r with
          | some e => .source e
          | none => .nothing)
        ∧ ((s.chip.channel q).used = false → (t.chip.point q).mismatch = 0 ∧ (t.chip.point q).condition = .idle
          ∧ t.chip = s.chip.setRack t.chip.rack)
        ∧ ((s.chip.channel q).used = true → (t.chip.point q).mismatch = n
          ∧ (n < 3 → (needs → (t.chip.point q).condition = .marked ∨ (t.chip.point q).condition = .inFlight)
            ∧ (¬ needs → (t.chip.point q).condition = .idle) ∧ t.chip = s.chip.setRack t.chip.rack)
          ∧ (n = 3 → (t.chip.point q).condition = .stuck ∧ NoticeOffered s.chip t.chip q (.crosspointStuck k r)))
        ∧ (∀ j, j ≠ q → (t.chip.point j).confirmed = (s.chip.point j).confirmed
            ∧ (t.chip.point j).mismatch = (s.chip.point j).mismatch)
        ∧ t.chip.rack.exchanges = s.chip.rack.exchanges + 1 ∧ t.chip.rack.unanswered = s.chip.rack.unanswered
        ∧ t.chip.rack.rejected = s.chip.rack.rejected ∧ SameLineUp s t ∧ SameSupervision s t ∧ SameSubscribers s t
        ∧ SameTime s t ∧ SameOutside s t)
    ∧ ∀ (g : Nat) (l : Fin 4 → Byte) (x : RackExchange) (s : State), Settled s → s.chip.rack.link = .listening →
      s.chip.rack.hold = some x → x.job = .query g → g < 8 →
      ∃ t, exec (.rackReplyReceived (frameOf 1 0x84 [BitVec.ofNat 8 g, l 0, l 1, l 2, l 3])) s = .next t
        ∧ (∀ k : Fin 4, (t.chip.source (4 * g + k)).lastLevel = some (l k)
            ∧ (t.chip.source (4 * g + k)).lastUnanswered = false)
        ∧ (∀ j, j < 4 * g ∨ 4 * g + 4 ≤ j → t.chip.source j = s.chip.source j)
        ∧ t.chip.rack.exchanges = s.chip.rack.exchanges + 1 ∧ t.chip.rack.unanswered = s.chip.rack.unanswered
        ∧ t.chip.ports = s.chip.ports ∧ t.chip.branches = s.chip.branches ∧ SamePlant s t
        ∧ SameSubscribers s t ∧ SameTime s t ∧ t.chip.lineUp.current = s.chip.lineUp.current ∧ SameOutside s t

/-- The rack's reply window closes: the same frame again while an attempt is left; after the third, an unanswered SET
leaves its crosspoint UNKNOWN and a GROUP QUERY goes next, and an unanswered QUERY counts as a level 0 for each source
of its group (R94, R96, R101, R103). -/
def Obligations.RackWindowClosedRetriesOrLoses : Prop :=
  ∀ (x : RackExchange) (s : State), Settled s → s.chip.rack.link = .listening → s.chip.rack.hold = some x →
    (x.attempt < 3 → ∃ t, exec .rackReplyWindowClosed s = .next t
        ∧ t.chip = s.chip.setRack
            { s.chip.rack with link := .sending, hold := some { x with attempt := x.attempt + 1 } }
        ∧ SameOutside s t)
      ∧ (3 ≤ x.attempt → ∃ t, exec .rackReplyWindowClosed s = .next t
        ∧ t.chip.rack.exchanges = s.chip.rack.exchanges + 1
        ∧ t.chip.rack.unanswered = s.chip.rack.unanswered + 1 ∧ t.chip.rack.rejected = s.chip.rack.rejected
        ∧ (∀ q k, x.job = .set q k → q < 64 → (t.chip.point q).confirmed = .unknown
            ∧ (t.chip.point q).mismatch = (s.chip.point q).mismatch
            ∧ (s.chip.running = true → ∃ y, t.chip.rack.hold = some y ∧ y.attempt = 1
                ∧ y.job = .query (match s.chip.rack.cursor with
                  | some g => (g + 1) % 8
                  | none => 0))
            ∧ t.chip.sources = s.chip.sources ∧ t.chip.journal = s.chip.journal)
        ∧ (∀ g, x.job = .query g → g < 8 → (∀ k, k < 4 →
              (t.chip.source (4 * g + k)).lastLevel = some 0 ∧ (t.chip.source (4 * g + k)).lastUnanswered = true)
            ∧ ∀ j, j < 4 * g ∨ 4 * g + 4 ≤ j → t.chip.source j = s.chip.source j)
        ∧ t.chip.ports = s.chip.ports ∧ t.chip.branches = s.chip.branches ∧ SamePlant s t
        ∧ SameSubscribers s t ∧ SameTime s t ∧ SameOutside s t)

/-- Effective sources. A position runs on its backup when its primary has an open source outage, a backup is set, and
the backup has none; on its primary in every other case of a USED position; on none where UNUSED. A GROUP REPLY whose
level trips a supervised source opens its outage from the run's first low sample, moves the one position it is the
primary of to the healthy backup with a SUBSTITUTION notice behind the outage's, and offers it, so that its CROSSPOINT
SET is the next exchange of an empty list; a level that brings the source back ARMED closes the outage as RECOVERED
and moves the position back with its notice. Both leave the counts 0 and the low-run start NONE, and move no other
position (R12 to R15, R96, R101, R104 to R106). The notices' account, amount and cycle 0 are the model's choice (log
27). -/
def Obligations.SourcesMoveTheirPositions : Prop :=
  (∀ (c : Chip) (q : Nat),
    ((c.channel q).used = false → (c.effectiveOf q).source = none)
      ∧ ((c.channel q).used = true →
        (∀ b, (c.channel q).backup = some b → c.sourceOut (c.channel q).primary = true → c.sourceOut b = false →
            (c.effectiveOf q).source = some b)
          ∧ ((c.channel q).backup = none ∨ c.sourceOut (c.channel q).primary = false
              ∨ (∃ b, (c.channel q).backup = some b ∧ c.sourceOut b = true) →
            (c.effectiveOf q).source = some (c.channel q).primary)))
    ∧ ∀ (g : Nat) (j : Fin 4) (l : Fin 4 → Byte) (q b : Nat) (x : RackExchange) (s : State), Settled s →
      s.chip.running = true → s.chip.rack.link = .listening → s.chip.rack.hold = some x → x.job = .query g → g < 8 →
      let k := 4 * g + j
      let r := s.chip.source k
      let set := vget s.chip.lineUp.current.sources k
      set.supervised = true → set.trigger < set.arm → 1 ≤ set.nTrip → 1 ≤ set.nClear →
      (∀ i : Fin 4, i ≠ j → (vget s.chip.lineUp.current.sources (4 * g + i)).supervised = false) →
      q < 64 → (s.chip.channel q).used = true → (s.chip.channel q).primary = k → (s.chip.channel q).backup = some b →
      b ≠ k → s.chip.sourceOut b = false →
      (∀ i, i < 64 → i ≠ q → (s.chip.channel i).used = true →
        (s.chip.channel i).primary ≠ k ∧ (s.chip.channel i).backup ≠ some k) →
      let moved := fun (t : State) (state : Hysteresis) => (t.chip.source k).state = state
        ∧ (t.chip.source k).low = 0 ∧ (t.chip.source k).high = 0 ∧ (t.chip.source k).lowStart = none
        ∧ (t.chip.source k).lastLevel = some (l j)
        ∧ (∀ i, i < 64 → i ≠ q → t.chip.effective i = s.chip.effective i)
        ∧ t.chip.lineUp = { s.chip.lineUp with effective := t.chip.lineUp.effective }
        ∧ SamePlant s t ∧ SameSubscribers s t ∧ SameTime s t ∧ SameOutside s t
      ∃ t, exec (.rackReplyReceived (frameOf 1 0x84 [BitVec.ofNat 8 g, l 0, l 1, l 2, l 3])) s = .next t
        ∧ (r.state ≠ .tripped → (l j).toNat ≤ set.trigger → r.low + 1 = set.nTrip →
          s.chip.effective q = { source := some k, onBackup := false } →
          let d := s.chip.openRequest
            { kind := .source, object := k, start := if r.low = 0 then s.chip.clock.minute else r.lowStart }
          moved t .tripped ∧ t.chip.effective q = { source := some b, onBackup := true }
            ∧ t.chip.outages = d.outages ∧ NoticeOffered d t.chip q (.substitution .source (some k) (some b) k)
            ∧ (s.chip.rack.pendingList = [] → s.chip.rack.owed = false → (s.chip.point q).condition = .idle →
              (s.chip.point q).confirmed = .source k →
              ∃ y, t.chip.rack.hold = some y ∧ y.job = .set q b ∧ y.attempt = 1))
        ∧ (r.state = .tripped → set.arm ≤ (l j).toNat → r.high + 1 = set.nClear →
          s.chip.effective q = { source := some b, onBackup := true } → s.chip.journal.queue.length < 56 →
          let d := (s.chip.setMark .source k none).closeOf .source k (· == .opened) .recovered
          moved t .armed ∧ t.chip.effective q = { source := some k, onBackup := false }
            ∧ t.chip.outages = d.outages ∧ NoticeOffered d t.chip q (.substitution .source (some b) (some k) k))

/-- The level counting that sources and amplifiers share: a record goes TRIPPED only on its n-th low sample in a row
and comes back ARMED only on its n-th high one: a low sample clears the high count, a high one the low count, one
between the levels both; an ARMED record counts high samples and a TRIPPED one low samples up to their bounds and
stays; a change clears both counts, which stay within their bounds; the counting sets the low-run start at a run's
first low sample and at no other (R75, R104; that it stands while no low sample comes is the model's choice, log 52,
and that an amplifier's stands over a change of state, log 64).
A sample at a source's own record counts so while the source is supervised, and a change of state sets its low-run
start to NONE; an unsupervised source only shows its level and whether the query was answered (R104). -/
def Obligations.HysteresisNeedsARun : Prop :=
  (∀ (r : LevelRun) (arm trigger nTrip nClear v : Nat) (now : Option Nat), trigger < arm → 1 ≤ nTrip → 1 ≤ nClear →
    r.low ≤ nTrip → r.high ≤ nClear → (r.low = nTrip → r.state = .tripped) → (r.high = nClear → r.state = .armed) →
    let x := r.sample arm trigger nTrip nClear v now
    (trigger < v → v < arm → x = { r with low := 0, high := 0 })
      ∧ (v ≤ trigger → x.high = 0
          ∧ (r.state ≠ .tripped → (x.state = .tripped ↔ r.low + 1 = nTrip)
              ∧ (r.low + 1 < nTrip → x.low = r.low + 1 ∧ x.state = r.state))
          ∧ (r.state = .tripped → x.state = .tripped ∧ x.low = min nTrip (r.low + 1)))
      ∧ (arm ≤ v → x.low = 0
          ∧ (r.state ≠ .armed → (x.state = .armed ↔ r.high + 1 = nClear)
              ∧ (r.high + 1 < nClear → x.high = r.high + 1 ∧ x.state = r.state))
          ∧ (r.state = .armed → x.state = .armed ∧ x.high = min nClear (r.high + 1)))
      ∧ (x.state ≠ r.state → x.low = 0 ∧ x.high = 0)
      ∧ x.start = (if v ≤ trigger ∧ r.low = 0 then now else r.start)
      ∧ x.low ≤ nTrip ∧ x.high ≤ nClear ∧ (x.low = nTrip → x.state = .tripped)
      ∧ (x.high = nClear → x.state = .armed))
    ∧ ∀ (r : Source) (set : SourceSetting) (v : Byte) (silent : Bool) (now : Option Nat),
      let y := ({ state := r.state, low := r.low, high := r.high, start := r.lowStart } : LevelRun).sample set.arm
        set.trigger set.nTrip set.nClear v.toNat now
      let x := r.sample set v silent now
      x.lastLevel = some v ∧ x.lastUnanswered = silent
        ∧ (set.supervised = true → x.state = y.state ∧ x.low = y.low ∧ x.high = y.high
          ∧ (x.state ≠ r.state → x.lowStart = none) ∧ (x.state = r.state → x.lowStart = y.start))
        ∧ (set.supervised = false →
          x.state = r.state ∧ x.low = r.low ∧ x.high = r.high ∧ x.lowStart = r.lowStart)

/-! ### The clock and the pass -/

/-- SEC1_EDGE, MINUTE_EVENT and SECONDS_LOSS_TIMEOUT while RUNNING: an edge counts one second and takes a HELD clock
back to RUNNING; the 60th wraps the count and raises the minute number, but not past FFFFFFFEh; a minute event finds
the backlog below 1,440 or drops the oldest waiting minute, or starts a pass that was due, and evaluates the blackouts
for the new minute number, with the ports of the affected zones recomputed; a loss of seconds holds the clock with a
CLOCK HELD notice (R16, R17, R34, R109 to R111, R115, R116). A minute event that stands alone clears the seconds, and
an edge at the last minute number keeps the count; the notice's index, account, amount and cycle are 0 (the model's
choices, logs 11, 41 and 27). Room for a notice is R153's: fewer than 56 entries; that a waiting money entry has
joined before a notice finds a freed slot is log 31's. -/
def Obligations.SecondsMakeMinutes : Prop :=
  ∀ (m : Nat) (s : State), s.chip.running = true → s.chip.clock.state ≠ .unset → s.chip.clock.minute = some m →
    (Settled s → s.chip.clock.seconds < 59 → ∃ t, exec .sec1Edge s = .next t
        ∧ t.chip = s.chip.setClock
            { s.chip.clock with state := .running, lossTimer := true, seconds := s.chip.clock.seconds + 1 }
        ∧ SameOutside s t)
      ∧ (Settled s → 59 ≤ s.chip.clock.seconds → 4294967294 ≤ m → ∃ t, exec .sec1Edge s = .next t
        ∧ t.chip = s.chip.setClock { s.chip.clock with state := .running, lossTimer := true } ∧ SameOutside s t)
      ∧ (Settled s → m < 4294967294 → ∀ c : Instr, c = .minuteEvent ∨ (c = .sec1Edge ∧ 59 ≤ s.chip.clock.seconds) →
        ∃ t, exec c s = .next t ∧ t.chip.clock.minute = some (m + 1) ∧ t.chip.clock.seconds = 0
          ∧ (c = .sec1Edge → t.chip.clock.state = .running)
          ∧ (s.chip.pass.state ≠ .idle → s.chip.clock.backlog < 1440 →
              t.chip.clock.backlog = s.chip.clock.backlog + 1 ∧ t.chip.clock.nextPass = s.chip.clock.nextPass
                ∧ t.chip.clock.dropped = s.chip.clock.dropped ∧ t.chip.pass = s.chip.pass)
          ∧ (s.chip.pass.state ≠ .idle → s.chip.clock.backlog = 1440 → ∀ n, s.chip.clock.nextPass = some n →
              t.chip.clock.backlog = 1440 ∧ t.chip.clock.nextPass = some (n + 1)
                ∧ t.chip.clock.dropped = s.chip.clock.dropped + 1 ∧ t.chip.pass = s.chip.pass)
          ∧ (s.chip.pass.state = .idle → s.chip.clock.backlog = 0 → ∀ n, s.chip.clock.nextPass = some n →
              t.chip.clock.backlog = 0 ∧ t.chip.clock.nextPass = some (n + 1)
                ∧ t.chip.pass = { state := .visiting, minute := some n, cursor := 0, point := none }
                ∧ t.chip.engine.checkpoint.isSome = true
                ∧ t.chip.clock.cal = if s.chip.clock.cal.start + s.chip.clock.cal.m ≤ n
                    then { cycle := s.chip.clock.cal.cycle + 1
                           start := s.chip.clock.cal.start + s.chip.clock.cal.m
                           m := s.chip.clock.cal.nextM, nextM := s.chip.clock.cal.nextM }
                    else s.chip.clock.cal)
          ∧ BlackoutsEvaluated s t (some (m + 1))
          ∧ SameSupervision s t ∧ t.chip.rack = s.chip.rack ∧ SameOutside s t)
      ∧ (Settled s → s.chip.clock.state = .running → ∃ t, exec .secondsLossTimeout s = .next t
        ∧ t.chip.clock = { s.chip.clock with state := .held, lossTimer := false }
        ∧ (s.chip.noticeRoom = true → t.chip.journal.queue = s.chip.journal.queue
            ++ [{ entry := { index := 0, minute := some m, account := 0, amount := 0, cycle := 0
                             body := .clockHeld s.chip.clock.seconds }
                  ring := 0, writing := false }]
            ∧ t.chip.journal.dropped = s.chip.journal.dropped)
        ∧ (s.chip.noticeRoom = false → t.chip.journal =
            { s.chip.journal with dropped := s.chip.journal.dropped + 1 })
        ∧ SameLinks s t ∧ SameSupervision s t ∧ SameSubscribers s t ∧ t.chip.pass = s.chip.pass
        ∧ t.chip.orders = s.chip.orders ∧ SameLineUp s t ∧ SameBus s t ∧ SameOutside s t)

/-- PASS_VISIT: a FREE record is passed over; a record whose cycle has ended is closed on touch where a slot is free, a
CYCLE TOTAL joining and its amounts cleared, a FINAL one becoming FREE, and the visit goes on to bill or hold the
minute, and waits with the pass PAUSED at stage 1 where none is; an ACTIVE record with applied state ON is billed by
remainder arithmetic when it is not out, and has its held values raised when it is; a held run that ends with the billed
minute is resolved at stage 5: by one OUTAGE CREDIT entry from the credit threshold on, or with the pass PAUSED there
while no slot is free, and by a back-charge below it. Past record 2047, FREE or billed like any other, the pass ends
IDLE, and where the backlog is not zero the next pass starts at once: its minute, the calendar's boundary if due, a
queued checkpoint, the cursor at 0 (R113, R116 to R119, R122, R126, R128, R130 to R132, R145). -/
def Obligations.PassVisitBillsOrHolds : Prop :=
  (∀ (i m : Nat) (s : State), s.chip.visitTurn = true → s.chip.pass.cursor = i → s.chip.pass.minute = some m →
    i < 2047 → Settled s →
    let l := (s.chip.sub i).live
    let M : Int := s.chip.clock.cal.m
    let S : Int := ((List.range 16).map fun k =>
      if l.appliedTiers.getLsbD k then vget s.chip.lineUp.current.rates k else 0).sum
    let passed : Pass := { state := .visiting, minute := some m, cursor := i + 1, point := none }
    let frame := fun t : State => (∀ j, j ≠ i → t.chip.sub j = s.chip.sub j) ∧ t.chip.clock = s.chip.clock
      ∧ SameLinks s t ∧ SameSupervision s t ∧ SameLineUp s t ∧ SameOutside s t
    (l.state = .free → ∃ t, exec .passVisit s = .next t ∧ t.chip.subs = s.chip.subs ∧ t.chip.pass = passed
        ∧ t.chip.journal = s.chip.journal ∧ frame t)
      ∧ (l.state ≠ .free → l.cycle ≠ s.chip.clock.cal.cycle → 64 ≤ s.chip.journal.queue.length →
        ∃ t, exec .passVisit s = .next t ∧ t.chip.subs = s.chip.subs
          ∧ t.chip.pass = { s.chip.pass with state := .paused, point := some { stage := 1, place := 0 } }
          ∧ t.chip.journal = s.chip.journal ∧ frame t)
      ∧ (l.state ≠ .free → l.cycle ≠ s.chip.clock.cal.cycle → s.chip.journal.queue.length < 64 → l.purchases = [] →
        (l.outSince = none ∨ (s.chip.out i = true ∧ l.appliedOn = true)) →
        let closed : Live := { l with
          tierAmount := 0, eventAmount := 0, remainder := 0, saturated := false, cycle := s.chip.clock.cal.cycle }
        let total : Half → Queued := fun minutes =>
          { entry := { index := i, minute := some m, account := (s.chip.sub i).taken.account
                       amount := max (-2000000000) (min 2000000000 (l.tierAmount + l.eventAmount)), cycle := l.cycle
                       body := .cycleTotal (l.state == .final) l.saturated 0 l.remainder l.tierAmount l.eventAmount
                         l.heldMinutes minutes }
            ring := 0, writing := false }
        ∃ t minutes, exec .passVisit s = .next t ∧ t.chip.pass = passed ∧ frame t
          ∧ (l.outSince = none → minutes = 65535)
          ∧ (∀ o, l.outSince = some o → o ≤ m → minutes = BitVec.ofNat 16 (min 65534 (m - o)))
          ∧ ((l.state = .active → l.appliedOn = true →
                (s.chip.out i = false → -2000000000 ≤ S.fdiv M ∧ S.fdiv M ≤ 2000000000)
                  ∧ (s.chip.out i = true →
                    -140737488355327 ≤ l.heldNumerator + S ∧ l.heldNumerator + S ≤ 140737488355327)) →
              t.chip.journal = { s.chip.journal with queue := s.chip.journal.queue ++ [total minutes] }
                ∧ (t.chip.sub i).live =
                  if l.state = .final then
                    { closed with state := .free, heldMinutes := 0, heldNumerator := 0, outSince := none }
                  else if l.state = .active ∧ l.appliedOn = true then
                    if s.chip.out i = true then
                      { closed with heldMinutes := min 65535 (l.heldMinutes + 1), heldNumerator := l.heldNumerator + S
                                    outSince := some (l.outSince.getD m) }
                    else { closed with tierAmount := S.fdiv M, remainder := (S.fmod M).toNat }
                  else closed))
      ∧ (l.state = .active → l.appliedOn = true → l.cycle = s.chip.clock.cal.cycle → l.purchases = [] →
        1 ≤ s.chip.clock.cal.m → (l.outSince = none ∨ s.chip.out i = true) →
        ∃ t, exec .passVisit s = .next t ∧ t.chip.pass = passed
          ∧ (s.chip.out i = false → ∃ q : Int,
              (l.remainder : Int) + S = q * M + (t.chip.sub i).live.remainder
                ∧ (t.chip.sub i).live.remainder < s.chip.clock.cal.m
                ∧ (t.chip.sub i).live.tierAmount = max (-2000000000) (min 2000000000 (l.tierAmount + q))
                ∧ (t.chip.sub i).dirty = true
                ∧ (-2000000000 ≤ l.tierAmount + q → l.tierAmount + q ≤ 2000000000 →
                    (t.chip.sub i).live = { l with remainder := (t.chip.sub i).live.remainder
                                                   tierAmount := l.tierAmount + q }
                      ∧ t.chip.journal = s.chip.journal)
                ∧ ((l.tierAmount + q < -2000000000 ∨ 2000000000 < l.tierAmount + q) →
                    (t.chip.sub i).live.saturated = true))
          ∧ (s.chip.out i = true →
              (t.chip.sub i).live.tierAmount = l.tierAmount ∧ (t.chip.sub i).live.remainder = l.remainder
                ∧ (t.chip.sub i).live.heldMinutes = min 65535 (l.heldMinutes + 1)
                ∧ (t.chip.sub i).live.heldNumerator =
                    max (-140737488355327) (min 140737488355327 (l.heldNumerator + S))
                ∧ (t.chip.sub i).live.outSince = some (l.outSince.getD m))
          ∧ frame t)
      ∧ (l.state = .active → l.appliedOn = true → l.cycle = s.chip.clock.cal.cycle → l.purchases = [] →
        1 ≤ s.chip.clock.cal.m → l.outSince.isSome = true → s.chip.out i = false →
        let n := (l.remainder : Int) + S
        let tier := l.tierAmount + n.fdiv M
        let back := n.fmod M + l.heldNumerator
        (-2000000000 ≤ tier ∧ tier ≤ 2000000000) →
        (s.chip.config.creditThreshold ≤ l.heldMinutes → s.chip.journal.queue.length < 64 →
          ∃ t, exec .passVisit s = .next t ∧ t.chip.pass = passed
            ∧ (t.chip.sub i).live = { l with
                tierAmount := tier, remainder := (n.fmod M).toNat, heldMinutes := 0, heldNumerator := 0
                outSince := none }
            ∧ t.chip.journal = { s.chip.journal with queue := s.chip.journal.queue
                ++ [{ entry := { index := i, minute := some m, account := (s.chip.sub i).taken.account
                                 amount := l.heldNumerator.fdiv M, cycle := l.cycle
                                 body := .outageCredit s.chip.clock.cal.m l.heldMinutes l.heldNumerator l.outSince }
                      ring := 0, writing := false }] }
            ∧ frame t)
          ∧ (s.chip.config.creditThreshold ≤ l.heldMinutes → 64 ≤ s.chip.journal.queue.length →
            ∃ t, exec .passVisit s = .next t
              ∧ t.chip.pass = { s.chip.pass with state := .paused, point := some { stage := 5, place := 0 } }
              ∧ (t.chip.sub i).live = { l with tierAmount := tier, remainder := (n.fmod M).toNat }
              ∧ t.chip.journal = s.chip.journal ∧ frame t)
          ∧ (l.heldMinutes < s.chip.config.creditThreshold → -2000000000 ≤ tier + back.fdiv M →
            tier + back.fdiv M ≤ 2000000000 →
            ∃ t, exec .passVisit s = .next t ∧ t.chip.pass = passed
              ∧ (t.chip.sub i).live = { l with
                  tierAmount := tier + back.fdiv M, remainder := (back.fmod M).toNat, heldMinutes := 0
                  heldNumerator := 0, outSince := none }
              ∧ t.chip.journal = s.chip.journal ∧ frame t)))
    ∧ ∀ (m : Nat) (s : State), s.chip.visitTurn = true → s.chip.pass.cursor = 2047 → s.chip.pass.minute = some m →
      Settled s →
      let l := (s.chip.sub 2047).live
      let M : Int := s.chip.clock.cal.m
      let S : Int := ((List.range 16).map fun k =>
        if l.appliedTiers.getLsbD k then vget s.chip.lineUp.current.rates k else 0).sum
      let owed := (l.remainder : Int) + S
      let held := l.heldNumerator + S
      (l.state = .free ∨ (l.cycle = s.chip.clock.cal.cycle ∧ l.purchases = [] ∧ l.outSince = none)) →
      ∃ t, exec .passVisit s = .next t
        ∧ (s.chip.clock.backlog = 0 → t.chip.pass.state = .idle ∧ t.chip.pass.minute = some m
          ∧ t.chip.pass.point = none ∧ t.chip.clock = s.chip.clock
          ∧ t.chip.engine.checkpoint = s.chip.engine.checkpoint)
        ∧ (∀ k n, s.chip.clock.backlog = k + 1 → s.chip.clock.nextPass = some n →
          t.chip.pass = { state := .visiting, minute := some n, cursor := 0, point := none }
            ∧ t.chip.clock.backlog = k ∧ t.chip.clock.nextPass = some (n + 1)
            ∧ t.chip.clock.minute = s.chip.clock.minute ∧ t.chip.engine.checkpoint.isSome = true
            ∧ t.chip.clock.cal = if s.chip.clock.cal.start + s.chip.clock.cal.m ≤ n
                then { cycle := s.chip.clock.cal.cycle + 1
                       start := s.chip.clock.cal.start + s.chip.clock.cal.m
                       m := s.chip.clock.cal.nextM, nextM := s.chip.clock.cal.nextM }
                else s.chip.clock.cal)
        ∧ (¬ (l.state = .active ∧ l.appliedOn = true) → t.chip.subs = s.chip.subs ∧ t.chip.journal = s.chip.journal)
        ∧ (l.state = .active → l.appliedOn = true → s.chip.out 2047 = false →
            -2000000000 ≤ l.tierAmount + owed.fdiv M → l.tierAmount + owed.fdiv M ≤ 2000000000 →
            (t.chip.sub 2047).live =
                { l with tierAmount := l.tierAmount + owed.fdiv M, remainder := (owed.fmod M).toNat }
              ∧ t.chip.journal = s.chip.journal)
        ∧ (l.state = .active → l.appliedOn = true → s.chip.out 2047 = true →
            -140737488355327 ≤ held → held ≤ 140737488355327 →
            (t.chip.sub 2047).live =
                { l with heldMinutes := min 65535 (l.heldMinutes + 1), heldNumerator := held, outSince := some m }
              ∧ t.chip.journal = s.chip.journal)
        ∧ (∀ j, j ≠ 2047 → t.chip.sub j = s.chip.sub j) ∧ t.chip.orders = s.chip.orders
        ∧ SameLinks s t ∧ SameSupervision s t ∧ SameLineUp s t ∧ SameOutside s t

/-- PASS_VISIT of an ACTIVE or SUSPENDED record with one purchase. CONFIRMED: the price joins the event amount, one
PURCHASE CHARGE entry joins the queue, and the purchase is CHARGED; where its window is over it then ends as CHARGED;
with no slot free the pass is PAUSED at stage 2. BOOKED: it becomes OPENING from its start minute on, and stays before
it. At or past its end minute an OPENING one, and a BOOKED one whose start has come, leaves the list with a PURCHASE
LAPSED notice; a CHARGED one leaves it, refunded with a PURCHASE REFUND entry where at least a quarter of the window was
dark, with the pass PAUSED at stage 3 while no slot is free, and kept with no entry below that. A CHARGED one inside its
window stays, and its dark count rises by one where the minute is dark. Then the minute of an ACTIVE record with
applied state ON is billed with remainder arithmetic, or held while it is out (stated where no amount clamps); a visit
that pauses has not billed it. Nothing else of a record changes but the applied summary, which follows its port (R117,
R119, R126, R130, R135, R137 to R139, R144, R153). -/
def Obligations.PassVisitChargesAPurchase : Prop :=
  ∀ (i m : Nat) (p : Purchase) (s : State), s.chip.visitTurn = true → s.chip.pass.cursor = i →
    s.chip.pass.minute = some m → i < 2047 →
    let l := (s.chip.sub i).live
    let M : Int := s.chip.clock.cal.m
    l.state = .suspended ∨ l.state = .active → l.cycle = s.chip.clock.cal.cycle → l.outSince = none →
    l.purchases = [p] →
    let entry := fun (amount : Int) (cycle : Byte) (body : EntryBody) =>
      ({ entry := { index := i, minute := some m, account := (s.chip.sub i).taken.account, amount := amount
                    cycle := cycle, body := body }
         ring := 0, writing := false } : Queued)
    let charge := entry p.price l.cycle (.purchaseCharge p.position p.start p.stop)
    let refund := entry (-p.price) l.cycle (.purchaseRefund p.position p.start p.stop p.dark)
    let lapsed := entry 0 0 (.purchaseLapsed p.position p.start p.stop)
    let summary := fun (t : State) (j : Nat) (x : Live) => { x with
      appliedOn := (t.chip.sub j).live.appliedOn, appliedTiers := (t.chip.sub j).live.appliedTiers
      confirmed := (t.chip.sub j).live.confirmed, stuck := (t.chip.sub j).live.stuck }
    let joining := fun joined : List Queued => { s.chip.journal with queue := s.chip.journal.queue ++ joined }
    let within := fun x : Int => -2000000000 ≤ x ∧ x ≤ 2000000000
    let numerator := fun t : State => ((List.range 16).map fun k =>
      if (t.chip.sub i).live.appliedTiers.getLsbD k then vget s.chip.lineUp.current.rates k else 0).sum
    let bills := fun t : State => l.state = .active ∧ (t.chip.sub i).live.appliedOn = true
    let owed := fun t : State => (l.remainder : Int) + numerator t
    let held := fun t : State => l.heldNumerator + numerator t
    let unclamped := fun t : State => bills t →
      (s.chip.out i = false → within (l.tierAmount + (owed t).fdiv M))
        ∧ (s.chip.out i = true → -140737488355327 ≤ held t ∧ held t ≤ 140737488355327)
    let billed := fun (t : State) (x : Live) =>
      if l.state = .active ∧ (t.chip.sub i).live.appliedOn = true then
        if s.chip.out i = true then
          { x with heldMinutes := min 65535 (l.heldMinutes + 1), heldNumerator := held t, outSince := some m }
        else { x with tierAmount := l.tierAmount + (owed t).fdiv M, remainder := ((owed t).fmod M).toNat }
      else x
    let others := fun t : State =>
      (∀ j, (t.chip.sub j).taken = (s.chip.sub j).taken)
        ∧ (∀ j, j ≠ i → (t.chip.sub j).live = summary t j (s.chip.sub j).live)
        ∧ t.chip.clock = s.chip.clock ∧ SameSupervision s t ∧ SameLineUp s t ∧ SameOutside s t
    let after := fun (t : State) (event : Int) (purchases : List Purchase) (journal : Journal) =>
      (unclamped t →
        (t.chip.sub i).live = billed t (summary t i { l with eventAmount := event, purchases := purchases })
          ∧ t.chip.journal = journal) ∧ others t
    let paused := fun (t : State) (stage : Nat) (event : Int) (x : Purchase) (journal : Journal) =>
      t.chip.pass = { s.chip.pass with state := .paused, point := some { stage := stage, place := 0 } }
        ∧ (t.chip.sub i).live = summary t i { l with eventAmount := event, purchases := [x] }
        ∧ t.chip.journal = journal ∧ others t
    let darker := if p.start ≤ m ∧ s.chip.darkAt i p.position = true then p.dark + 1 else p.dark
    let gone := fun t : State =>
      t.chip.pass = { state := .visiting, minute := some m, cursor := i + 1, point := none }
    (p.state = .confirmed → m < p.stop → s.chip.journal.queue.length < 64 → within (l.eventAmount + p.price) →
        ∃ t, exec .passVisit s = .next t ∧ gone t
          ∧ after t (l.eventAmount + p.price) [{ p with state := .charged, dark := darker }] (joining [charge]))
      ∧ (p.state = .confirmed → 64 ≤ s.chip.journal.queue.length →
        ∃ t, exec .passVisit s = .next t ∧ paused t 2 l.eventAmount p s.chip.journal)
      ∧ (p.state = .charged → m < p.stop → ∃ t, exec .passVisit s = .next t ∧ gone t
          ∧ after t l.eventAmount [{ p with dark := darker }] s.chip.journal)
      ∧ (p.state = .confirmed → p.stop ≤ m → s.chip.journal.queue.length < 64 → within (l.eventAmount + p.price) →
        (p.stop ≤ 4 * p.dark + p.start → s.chip.journal.queue.length < 63 → within l.eventAmount →
            ∃ t, exec .passVisit s = .next t ∧ gone t ∧ after t l.eventAmount [] (joining [charge, refund]))
          ∧ (p.stop ≤ 4 * p.dark + p.start → s.chip.journal.queue.length = 63 →
            ∃ t, exec .passVisit s = .next t
              ∧ paused t 3 (l.eventAmount + p.price) { p with state := .charged } (joining [charge]))
          ∧ (4 * p.dark + p.start < p.stop → ∃ t, exec .passVisit s = .next t ∧ gone t
            ∧ after t (l.eventAmount + p.price) [] (joining [charge])))
      ∧ (p.state = .booked → m < p.stop → ∃ t, exec .passVisit s = .next t ∧ gone t
          ∧ after t l.eventAmount [if p.start ≤ m then { p with state := .opening } else p] s.chip.journal)
      ∧ (p.state = .opening → m < p.stop → ∃ t, exec .passVisit s = .next t ∧ gone t
          ∧ after t l.eventAmount [p] s.chip.journal)
      ∧ (p.state = .opening ∨ (p.state = .booked ∧ p.start ≤ m) → p.stop ≤ m →
        (s.chip.journal.queue.length < 56 → ∃ t, exec .passVisit s = .next t ∧ gone t
            ∧ after t l.eventAmount [] (joining [lapsed]))
          ∧ (56 ≤ s.chip.journal.queue.length → ∃ t, exec .passVisit s = .next t ∧ gone t
            ∧ after t l.eventAmount [] { s.chip.journal with dropped := s.chip.journal.dropped + 1 }))
      ∧ (p.state = .charged → p.stop ≤ m →
        (p.stop ≤ 4 * p.dark + p.start → s.chip.journal.queue.length < 64 → within (l.eventAmount - p.price) →
            ∃ t, exec .passVisit s = .next t ∧ gone t
              ∧ after t (l.eventAmount - p.price) [] (joining [refund]))
          ∧ (p.stop ≤ 4 * p.dark + p.start → 64 ≤ s.chip.journal.queue.length → ∃ t, exec .passVisit s = .next t
            ∧ paused t 3 l.eventAmount p s.chip.journal)
          ∧ (4 * p.dark + p.start < p.stop → ∃ t, exec .passVisit s = .next t ∧ gone t
            ∧ after t l.eventAmount [] s.chip.journal))

/-- A money producer that waits. PASS_RESUME at stage 1 and TAKE_RESUME at the credit, once a slot is free, make the
waiting entry and go on: the CYCLE TOTAL entry joins with the clamped sum of the amounts, the record's amounts,
remainder and saturation flag are cleared, it takes the calendar's cycle number, a FINAL record becomes FREE, and the
pass goes on to the next record; the OUTAGE CREDIT entry joins, the held values are cleared, the amounts stand, and
the take shows DONE. A tenure that frees a slot makes the same entry with its effect at once, at the tail of the
queue, while the pass stays PAUSED or the take holds the store; the resume then goes on behind it and makes no second
entry (R29, R31, R118, R119, R131, R145, R153, R155). That the producer goes on at its resume, a step of its own, is
the model's choice (logs 10, 31). -/
def Obligations.ResumesGoOnBehindTheEntry : Prop :=
  (∀ (i m : Nat) (s : State), s.chip.running = true → s.chip.pass.state = .paused → s.chip.pass.cursor = i →
    s.chip.pass.minute = some m → i < 2047 → s.chip.pass.point = some { stage := 1, place := 0 } →
    s.chip.store.hold = none →
    let l := (s.chip.sub i).live
    let closed := { l with
      tierAmount := 0, eventAmount := 0, remainder := 0, saturated := false, cycle := s.chip.clock.cal.cycle }
    let closing := fun t : State => (∀ j, j ≠ i → t.chip.sub j = s.chip.sub j)
      ∧ (l.state = .suspended → (t.chip.sub i).live = closed)
      ∧ (l.state = .final → (t.chip.sub i).live = { closed with state := .free, heldMinutes := 0, heldNumerator := 0 })
    let total : Queued :=
      { entry :=
          { index := i, minute := some m, account := (s.chip.sub i).taken.account
            amount := max (-2000000000) (min 2000000000 (l.tierAmount + l.eventAmount)), cycle := l.cycle
            body := .cycleTotal (l.state == .final) l.saturated 0 l.remainder l.tierAmount l.eventAmount
              l.heldMinutes 65535 }
        ring := 0, writing := false }
    let advanced := fun t : State =>
      t.chip.pass = { state := .visiting, minute := some m, cursor := i + 1, point := none }
    let frame := fun t : State => t.chip.clock = s.chip.clock ∧ SameSupervision s t ∧ SameLineUp s t
    l.outSince = none → l.purchases = [] →
    (s.chip.store.answered = false → l.cycle ≠ s.chip.clock.cal.cycle → l.state = .suspended ∨ l.state = .final →
        (s.chip.journal.queue.length < 64 → ∃ t, exec .passResume s = .next t ∧ closing t ∧ advanced t
            ∧ t.chip.journal.queue = s.chip.journal.queue ++ [total] ∧ frame t ∧ SameOutside s t)
          ∧ ∀ n, EntriesUnderWay s n → ∃ t, exec .tenureComplete s = .next t ∧ closing t
            ∧ t.chip.pass = s.chip.pass ∧ t.chip.store = { s.chip.store with answered := true }
            ∧ t.chip.journal = { s.chip.journal with
                queue := s.chip.journal.queue.drop n ++ [total], tail := s.chip.journal.tail + BitVec.ofNat 16 n }
            ∧ frame t ∧ t.pending = s.pending)
      ∧ (s.chip.store.answered = true → l.cycle = s.chip.clock.cal.cycle → l.state ≠ .active →
        ∃ t, exec .passResume s = .next t ∧ t.chip.subs = s.chip.subs ∧ t.chip.journal = s.chip.journal
          ∧ t.chip.store.answered = false ∧ advanced t ∧ frame t ∧ SameOutside s t))
    ∧ ∀ (i : Nat) (s : State), s.chip.running = true → s.chip.store.hold = some (.take i .credit) →
      s.chip.pass.state ≠ .paused → i < 2048 →
      let l := (s.chip.sub i).live
      let credit : Queued :=
        { entry :=
            { index := i, minute := s.chip.eventMinute i, account := (s.chip.sub i).taken.account
              amount := l.heldNumerator.fdiv (s.chip.clock.cal.m : Int), cycle := l.cycle
              body := .outageCredit s.chip.clock.cal.m l.heldMinutes l.heldNumerator l.outSince }
          ring := 0, writing := false }
      let frame := fun t : State =>
        (∀ j, j ≠ i → t.chip.sub j = s.chip.sub j) ∧ SameSupervision s t ∧ SameTime s t ∧ SameLineUp s t
      l.purchases = [] →
      (s.chip.store.answered = false → l.outSince.isSome = true → s.chip.config.creditThreshold ≤ l.heldMinutes →
          (s.chip.journal.queue.length < 64 → ∃ t, exec .takeResume s = .next t
              ∧ t.chip.store = { s.chip.store with hold := none }
              ∧ (t.chip.sub i).live =
                { l with outcome := .done, heldMinutes := 0, heldNumerator := 0, outSince := none }
              ∧ t.chip.journal.queue = s.chip.journal.queue ++ [credit] ∧ frame t ∧ SameOutside s t)
            ∧ ∀ n, EntriesUnderWay s n → ∃ t, exec .tenureComplete s = .next t
              ∧ t.chip.store = { s.chip.store with answered := true }
              ∧ (t.chip.sub i).live = { l with heldMinutes := 0, heldNumerator := 0, outSince := none }
              ∧ t.chip.journal = { s.chip.journal with
                  queue := s.chip.journal.queue.drop n ++ [credit]
                  tail := s.chip.journal.tail + BitVec.ofNat 16 n }
              ∧ frame t ∧ t.pending = s.pending)
        ∧ (s.chip.store.answered = true → l.outSince = none → ∃ t, exec .takeResume s = .next t
            ∧ t.chip.store = { s.chip.store with hold := none, answered := false }
            ∧ (t.chip.sub i).live = { l with outcome := .done } ∧ t.chip.journal = s.chip.journal ∧ frame t
            ∧ SameOutside s t)

/-- Accrual with remainder is exact: n minutes at a constant numerator S, from remainder 0 and with no clamp, leave the
remainder n S mod M and raise the tier amount by floor(n S / M) (R126, R127). -/
def Obligations.AccrualIsExact : Prop :=
  ∀ (c : Chip) (i n : Nat) (S : Int) (minute : Option Nat), i < 2048 → 1 ≤ c.clock.cal.m →
    (c.sub i).live.remainder = 0 →
    (∀ k, k ≤ n → -2000000000 ≤ (c.sub i).live.tierAmount + (k * S) / (c.clock.cal.m : Int)
      ∧ (c.sub i).live.tierAmount + (k * S) / (c.clock.cal.m : Int) ≤ 2000000000) →
    let d := forIndices n (fun c _ => c.accrue i S minute) c
    ((d.sub i).live.remainder : Int) = (n * S) % (c.clock.cal.m : Int)
      ∧ (d.sub i).live.tierAmount = (c.sub i).live.tierAmount + (n * S) / (c.clock.cal.m : Int)
      ∧ d.journal = c.journal

/-! ### The rings and the orders -/

/-- Host writes to the ring words while RUNNING. A kind word: captured, and its slot's outcome shows PENDING. The
order tail and the journal head: accepted when the new value lies in the range from the order head to the capacity,
and from the journal head to the tail; otherwise held back from the array and counted (R148, R149, R156, R169, R170).
The write stands alone and a refused index word is held back whole (the model's choices, logs 9, 34). -/
def Obligations.RingWordWrites : Prop :=
  ∀ (h : HalfWrite) (s : State), Settled s → ArrayCanonical s → BusFree s → s.chip.running = true →
    s.chip.part.mapInForce = true → touchesWord h = true →
    (∀ k, k < 256 → k < s.chip.config.orderCapacity →
      s.chip.kindOf (s.chip.config.orderRing.base + 32 * k) = .slot (32 * k) →
      ∃ t, exec (.orderKindWrite k h) s = .next t
        ∧ HalfWritten s.array t.array (s.chip.config.orderRing.base + 32 * k) h
        ∧ vget t.chip.orders.outcomes k = { vget s.chip.orders.outcomes k with code := .pending }
        ∧ (∀ j, j ≠ k → vget t.chip.orders.outcomes j = vget s.chip.orders.outcomes j)
        ∧ t.chip.orders = { s.chip.orders with
            outcomes := t.chip.orders.outcomes
            mirror := Memory.writeHost s.chip.orders.mirror s.chip.config.orderRing.base
              (halfWord h (s.chip.config.orderRing.base + 32 * k)) }
        ∧ t.chip.journal = s.chip.journal ∧ SameLinks s t ∧ SameSupervision s t ∧ SameSubscribers s t
        ∧ SameTime s t ∧ SameLineUp s t ∧ SameBus s t ∧ t.pending = s.pending)
      ∧ (s.chip.kindOf s.chip.config.status.base = .orderTail →
        let x := newHalf h s.chip.orders.tail
        ∃ t, exec (.orderTailWrite h) s = .next t
          ∧ ((x - s.chip.orders.head).toNat ≤ s.chip.config.orderCapacity → t.chip.orders.tail = x
              ∧ HalfWritten s.array t.array s.chip.config.status.base h ∧ t.chip.journal = s.chip.journal
              ∧ SameBus s t)
          ∧ (s.chip.config.orderCapacity < (x - s.chip.orders.head).toNat → t.chip.orders = s.chip.orders
              ∧ t.array = s.array ∧ t.chip.path.guarded = s.chip.path.guarded + 1
              ∧ t.chip.path.lastGuarded = s.chip.config.status.base)
          ∧ t.chip.orders.head = s.chip.orders.head ∧ t.chip.orders.outcomes = s.chip.orders.outcomes
          ∧ SameLinks s t ∧ SameSupervision s t ∧ SameSubscribers s t ∧ SameTime s t ∧ SameLineUp s t
          ∧ t.pending = s.pending)
      ∧ (s.chip.kindOf (s.chip.config.status.base + 4) = .journalHead →
        let x := newHalf h s.chip.journal.head
        ∃ t, exec (.journalHeadWrite h) s = .next t
          ∧ ((x - s.chip.journal.head).toNat ≤ (s.chip.journal.tail - s.chip.journal.head).toNat →
              t.chip.journal = { s.chip.journal with head := x }
                ∧ HalfWritten s.array t.array (s.chip.config.status.base + 4) h ∧ SameBus s t)
          ∧ ((s.chip.journal.tail - s.chip.journal.head).toNat < (x - s.chip.journal.head).toNat →
              t.chip.journal.head = s.chip.journal.head ∧ t.chip.journal.tail = s.chip.journal.tail
                ∧ t.array = s.array ∧ t.chip.path.guarded = s.chip.path.guarded + 1
                ∧ t.chip.path.lastGuarded = s.chip.config.status.base + 4)
          ∧ t.chip.orders = s.chip.orders ∧ SameLinks s t ∧ SameSupervision s t ∧ SameSubscribers s t
          ∧ SameTime s t ∧ SameLineUp s t ∧ t.pending = s.pending)

/-- PURCHASE: the common checks and the four of its own, in order, refuse it with their code and no other effect; an
order that passes them books a BOOKED entry with dark minutes 0 at the tail of the list (R141). -/
def Obligations.PurchaseBooksAtTheTail : Prop :=
  ∀ (o : Order) (s : State), Settled s → OrderTaken s o → o.kind = 1 → s.chip.orderTurn = true →
    let r := s.chip.sub o.index
    let code : Option OutcomeCode :=
      if s.chip.clock.state = .unset then some .clockUnset
      else if 2047 < o.index then some .indexRange
      else if r.live.state ≠ .active then some .notInService
      else if 63 < o.word8 ∨ o.word16 ≤ o.word12 ∨ 1440 < o.word16 - o.word12 ∨ 9999999 < o.word20 then
        some .parameterRange
      else if o.word16 ≤ (s.chip.eventMinute o.index).getD 0 then some .tooLate
      else if 4 ≤ r.live.purchases.length then some .listFull
      else if (s.chip.channel o.word8).used = true ∧ r.taken.tiers.getLsbD (s.chip.channel o.word8).tier = true then
        some .alreadyEntitled
      else if ∃ p ∈ r.live.purchases, p.position = o.word8 ∧ p.start < o.word16 ∧ o.word12 < p.stop then some .conflict
      else none
    (∀ k, code = some k → ∃ t, exec .purchase s = .next t ∧ OrderRefused s t k)
      ∧ (code = none → ∃ t, exec .purchase s = .next t ∧ OrderFinished s t .done
          ∧ (t.chip.sub o.index).live.purchases = r.live.purchases
              ++ [{ position := o.word8, state := .booked, start := o.word12, stop := o.word16, price := o.word20
                    dark := 0 }]
          ∧ (t.chip.sub o.index).dirty = true ∧ (t.chip.sub o.index).taken = r.taken
          ∧ (∀ j, j ≠ o.index → (t.chip.sub j).live.purchases = (s.chip.sub j).live.purchases)
          ∧ t.chip.journal = s.chip.journal ∧ SameSupervision s t ∧ SameTime s t ∧ SameLineUp s t ∧ SameBus s t
          ∧ SameOutside s t)

/-- CANCEL_PURCHASE: the checks in order, and NOT FOUND or TOO LATE by the entry it names, refuse it with no other
effect; otherwise that entry leaves the list, the others keep their order, and no journal entry is raised (R142). -/
def Obligations.CancelPurchaseDropsTheEntry : Prop :=
  ∀ (o : Order) (s : State), Settled s → OrderTaken s o → o.kind = 2 → s.chip.orderTurn = true →
    let l := (s.chip.sub o.index).live
    let named := fun p : Purchase => p.position = o.word8 ∧ p.start = o.word12
    let code : Option OutcomeCode :=
      if s.chip.clock.state = .unset then some .clockUnset
      else if 2047 < o.index then some .indexRange
      else if l.state ≠ .active ∧ l.state ≠ .suspended then some .notInService
      else if 63 < o.word8 then some .parameterRange
      else none
    (∀ k, code = some k → ∃ t, exec .cancelPurchase s = .next t ∧ OrderRefused s t k)
      ∧ (code = none → (∀ p ∈ l.purchases, ¬ named p) →
          ∃ t, exec .cancelPurchase s = .next t ∧ OrderRefused s t .notFound)
      ∧ ∀ (before after : List Purchase) (p : Purchase), code = none → l.purchases = before ++ p :: after → named p →
          (∀ x ∈ before, ¬ named x) →
          (p.state ≠ .booked → ∃ t, exec .cancelPurchase s = .next t ∧ OrderRefused s t .tooLate)
            ∧ (p.state = .booked → ∃ t, exec .cancelPurchase s = .next t ∧ OrderFinished s t .done
                ∧ (t.chip.sub o.index).live.purchases = before ++ after
                ∧ (∀ q, s.chip.ownedPort o.index = some q → (t.chip.port q).desired = t.chip.desiredOf q ∨ 2560 ≤ q)
                ∧ (∀ j, j ≠ o.index → (t.chip.sub j).live.purchases = (s.chip.sub j).live.purchases)
                ∧ t.chip.journal = s.chip.journal ∧ SameSupervision s t ∧ SameTime s t ∧ SameLineUp s t
                ∧ SameBus s t ∧ SameOutside s t)

/-- ADJUST and ADJUST_RESUME: the checks refuse with no other effect; an order on a record of the current cycle adds
its signed amount to the event amount with one ADJUSTMENT entry when a slot is free, and holds the store, its outcome
PENDING, when none is. A tenure that frees a slot makes the same addition with its entry at once, the order still in
hand; the resume makes it where no tenure has, and otherwise only finishes the order (R120, R143, R144, R153). The
resume is a step of its own (the model's choice, logs 10, 31). -/
def Obligations.AdjustAddsOrWaits : Prop :=
  ∀ (o : Order) (s : State), OrderTaken s o → o.kind = 3 →
    let r := s.chip.sub o.index
    let amount : Int := if o.word12 < 2147483648 then o.word12 else o.word12 - 4294967296
    let entry : Queued :=
      { entry := { index := o.index, minute := s.chip.eventMinute o.index, account := r.taken.account
                   amount := amount, cycle := r.live.cycle, body := .adjustment (r.live.eventAmount + amount) }
        ring := 0, writing := false }
    let frame := fun t : State =>
      (∀ j, j ≠ o.index → t.chip.sub j = s.chip.sub j) ∧ SameSupervision s t ∧ SameTime s t ∧ SameLineUp s t
    let added := fun t : State =>
      OrderFinished s t .done ∧ (t.chip.sub o.index).live = { r.live with eventAmount := r.live.eventAmount + amount }
        ∧ t.chip.journal.queue = s.chip.journal.queue ++ [entry] ∧ t.chip.store.hold = none ∧ frame t ∧ SameOutside s t
    let fits := -2000000000 ≤ r.live.eventAmount + amount ∧ r.live.eventAmount + amount ≤ 2000000000
    let code : Option OutcomeCode :=
      if 2047 < o.index then some .indexRange
      else if r.live.state = .free ∨ (r.live.state = .final ∧ r.live.cycle ≠ s.chip.clock.cal.cycle) then
        some .notInService
      else if amount < -9999999 ∨ 9999999 < amount then some .parameterRange
      else none
    (Settled s → s.chip.orderTurn = true → ∀ k, code = some k →
        ∃ t, exec .adjust s = .next t ∧ OrderRefused s t k)
      ∧ (s.chip.orderTurn = true → code = none → r.live.cycle = s.chip.clock.cal.cycle →
        (s.chip.journal.queue.length < 64 → fits → ∃ t, exec .adjust s = .next t ∧ added t)
          ∧ (64 ≤ s.chip.journal.queue.length → ∃ t, exec .adjust s = .next t
              ∧ t.chip.store.hold = some (.adjust .add) ∧ t.chip.store.answered = false ∧ t.chip.subs = s.chip.subs
              ∧ t.chip.journal = s.chip.journal ∧ t.chip.orders = s.chip.orders ∧ SameOutside s t))
      ∧ (s.chip.store.hold = some (.adjust .add) → o.index < 2048 → s.chip.pass.state ≠ .paused →
        (s.chip.store.answered = false → fits →
          (s.chip.journal.queue.length < 64 → ∃ t, exec .adjustResume s = .next t ∧ added t)
            ∧ ∀ n, EntriesUnderWay s n → ∃ t, exec .tenureComplete s = .next t
              ∧ (t.chip.sub o.index).live = { r.live with eventAmount := r.live.eventAmount + amount }
              ∧ t.chip.journal = { s.chip.journal with
                  queue := s.chip.journal.queue.drop n ++ [entry], tail := s.chip.journal.tail + BitVec.ofNat 16 n }
              ∧ t.chip.store = { s.chip.store with answered := true } ∧ t.chip.orders = s.chip.orders ∧ frame t
              ∧ t.pending = s.pending)
          ∧ (s.chip.store.answered = true → ∃ t, exec .adjustResume s = .next t ∧ OrderFinished s t .done
            ∧ t.chip.subs = s.chip.subs ∧ t.chip.journal = s.chip.journal
            ∧ t.chip.store = { s.chip.store with hold := none, answered := false } ∧ frame t ∧ SameOutside s t))

/-- RESEND: refused with no other effect for a record that is not in service or owns no port; otherwise the owned port's
applied state is unconfirmed, an IDLE or STUCK port stands on its branch's dirty list, a STUCK one with count 0, and a
DIRTY, PARKED or IN FLIGHT port keeps its condition (R54, R63). -/
def Obligations.ResendDoubtsThePort : Prop :=
  ∀ (o : Order) (s : State), Settled s → OrderTaken s o → o.kind = 4 → s.chip.orderTurn = true →
    let r := s.chip.sub o.index
    (2047 < o.index → ∃ t, exec .resend s = .next t ∧ OrderRefused s t .indexRange)
      ∧ (o.index < 2048 → ((r.live.state ≠ .active ∧ r.live.state ≠ .suspended) ∨ r.live.owned = none) →
          ∃ t, exec .resend s = .next t ∧ OrderRefused s t .notInService)
      ∧ ∀ p b, o.index < 2048 → (r.live.state = .active ∨ r.live.state = .suspended) →
          s.chip.ownedPort o.index = some p → p < 2560 → s.chip.branchOf (p / 4) = b → b < 4 →
          (s.chip.branch b).hold.isSome = true →
          ∃ t, exec .resend s = .next t ∧ OrderFinished s t .done ∧ (t.chip.port p).confirmed = false
            ∧ ((s.chip.port p).condition = .idle ∨ (s.chip.port p).condition = .stuck →
                (t.chip.port p).condition = .dirty ∧ p ∈ (t.chip.branch b).dirty)
            ∧ ((s.chip.port p).condition = .stuck → (t.chip.port p).mismatch = 0)
            ∧ ((s.chip.port p).condition = .dirty ∨ (s.chip.port p).condition = .parked
                ∨ (s.chip.port p).condition = .inFlight →
                (t.chip.port p).condition = (s.chip.port p).condition ∧ t.chip.branches = s.chip.branches)
            ∧ (∀ q, q ≠ p → t.chip.port q = s.chip.port q) ∧ t.chip.journal = s.chip.journal
            ∧ t.chip.rack = s.chip.rack ∧ SameSupervision s t ∧ SameTime s t ∧ SameLineUp s t ∧ SameBus s t
            ∧ SameOutside s t

/-- An order of a kind other than 1 to 8 is refused UNKNOWN KIND by UNKNOWN_KIND, and nothing else changes (R151).
REPOLL is refused with no other effect for an element past 639, or one that is not in use, a branch root or
SUPPRESSED; otherwise the element is on its branch's repoll list, at the tail unless it stood there already, and no
supervision state changes (R89). Each order row acts on the order in the working copy (the model's choice, log 10). -/
def Obligations.UnknownRefusedRepollLists : Prop :=
  (∀ (o : Order) (s : State), Settled s → OrderTaken s o → o.kind = 0 ∨ 8 < o.kind →
    ∃ t, exec .unknownKind s = .next t ∧ OrderRefused s t .unknownKind)
    ∧ ∀ (o : Order) (s : State), Settled s → OrderTaken s o → o.kind = 5 →
    let e := s.chip.element o.index
    (639 < o.index → ∃ t, exec .repoll s = .next t ∧ OrderRefused s t .indexRange)
      ∧ (o.index < 640 → (e.record.inUse = false ∨ o.index < 4 ∨ e.sup.state = .suppressed) →
          ∃ t, exec .repoll s = .next t ∧ OrderRefused s t .notInService)
      ∧ ∀ b, o.index < 640 → e.record.inUse = true → 4 ≤ o.index → e.sup.state ≠ .suppressed →
          s.chip.branchOf o.index = b → b < 4 →
          ∃ t, exec .repoll s = .next t ∧ OrderFinished s t .done
            ∧ t.chip.branch b = { s.chip.branch b with
                repoll := if o.index ∈ (s.chip.branch b).repoll then (s.chip.branch b).repoll
                  else (s.chip.branch b).repoll ++ [o.index] }
            ∧ (∀ k, k ≠ b → t.chip.branch k = s.chip.branch k) ∧ t.chip.ports = s.chip.ports
            ∧ t.chip.rack = s.chip.rack ∧ t.chip.journal = s.chip.journal ∧ SameSupervision s t
            ∧ SameSubscribers s t ∧ SameTime s t ∧ SameLineUp s t ∧ SameBus s t ∧ SameOutside s t

/-- ACKNOWLEDGE_OUTAGE: refused for an id past 255 or one no record holds; a record that is not CLOSED gets its flag and
stays; a CLOSED record is freed at once, and the first marked object still failing has its record opened in its place,
OPEN from the start minute of its mark with an OUTAGE OPENED notice and the mark cleared; one whose flag is set already
changes nothing (R84, R86, R87, R88). The notice's account, amount and cycle 0 are the model's choice (log 27). -/
def Obligations.AcknowledgeFlagsOrFrees : Prop :=
  ∀ (o : Order) (s : State), Settled s → OrderTaken s o → o.kind = 6 →
    (255 < o.index → ∃ t, exec .acknowledgeOutage s = .next t ∧ OrderRefused s t .indexRange)
      ∧ (o.index < 256 → (∀ r ∈ s.chip.outages.records, r.id.toNat ≠ o.index) →
          ∃ t, exec .acknowledgeOutage s = .next t ∧ OrderRefused s t .notFound)
      ∧ ∀ (before after : List Outage) (r : Outage), s.chip.outages.records = before ++ r :: after →
          r.id.toNat = o.index → (∀ x ∈ before ++ after, x.id ≠ r.id) →
          let frame := fun t : State => SameLinks s t ∧ SamePlant s t ∧ t.chip.sources = s.chip.sources
            ∧ SameSubscribers s t ∧ SameTime s t ∧ SameLineUp s t ∧ SameBus s t ∧ SameOutside s t
          let quiet := fun (t : State) (records : List Outage) =>
            t.chip.outages = { s.chip.outages with records := records } ∧ t.chip.elements = s.chip.elements
              ∧ t.chip.journal = s.chip.journal
          (r.acknowledged = true → ∃ t, exec .acknowledgeOutage s = .next t ∧ OrderFinished s t .done ∧ frame t
              ∧ quiet t (before ++ r :: after))
            ∧ (r.acknowledged = false → r.state ≠ .closed → ∃ t, exec .acknowledgeOutage s = .next t
              ∧ OrderFinished s t .done ∧ frame t ∧ quiet t (before ++ { r with acknowledged := true } :: after))
            ∧ (r.acknowledged = false → r.state = .closed → ∃ t, exec .acknowledgeOutage s = .next t
              ∧ OrderFinished s t .done ∧ frame t
              ∧ ((∀ kind object, ¬ MarkedFailing s.chip kind object) → quiet t (before ++ after))
              ∧ ∀ kind object m, FirstMarked s.chip kind object → s.chip.markOf kind object = some m →
                before.length + after.length < 64 →
                RecordOpened s.chip t.chip (before ++ after) kind object m.start
                  ∧ t.chip.outages.waiting = s.chip.outages.waiting)

/-- SET_CLOCK: the seconds and minute ranges, STEP BACK and STEP RANGE refuse it with no other effect; from UNSET the
clock runs at the minute carried, the next pass minute is the one after it, and the calendar stands on its grid at the
cycle that contains it, and the blackouts are evaluated for that minute with the ports of the affected zones
recomputed; in RUNNING and HELD the minute number comes to the minute carried, the clock keeps its state, and a step
of one minute or more leaves the blackouts evaluated for that minute (R16, R17, R34, R112, R113). -/
def Obligations.SetClockSetsOrSteps : Prop :=
  ∀ (o : Order) (s : State), Settled s → OrderTaken s o → o.kind = 7 →
    let cal := s.chip.clock.cal
    let refused := fun k : OutcomeCode => ∃ t, exec .setClock s = .next t ∧ OrderRefused s t k
    (59 < o.word8 ∨ o.word12 = 4294967295 → refused .parameterRange)
      ∧ (o.word8 ≤ 59 → o.word12 ≠ 4294967295 →
        (s.chip.clock.state = .unset → ∃ t, exec .setClock s = .next t ∧ OrderFinished s t .done
            ∧ t.chip.clock = { s.chip.clock with
                state := .running, minute := some o.word12, seconds := o.word8, lossTimer := true
                nextPass := some (o.word12 + 1), cal := t.chip.clock.cal }
            ∧ (o.word12 < cal.start + cal.m → t.chip.clock.cal = cal)
            ∧ (1 ≤ cal.nextM → cal.start + cal.m ≤ o.word12 → ∃ n,
                t.chip.clock.cal = { cycle := cal.cycle + 1 + BitVec.ofNat 8 n
                                     start := cal.start + cal.m + n * cal.nextM, m := cal.nextM, nextM := cal.nextM }
                  ∧ t.chip.clock.cal.start ≤ o.word12 ∧ o.word12 < t.chip.clock.cal.start + cal.nextM)
            ∧ t.chip.engine.checkpoint.isSome = true ∧ t.chip.pass = s.chip.pass
            ∧ BlackoutsEvaluated s t (some o.word12)
            ∧ t.chip.journal = s.chip.journal ∧ SameSupervision s t ∧ SameOutside s t)
          ∧ ∀ m, s.chip.clock.state ≠ .unset → s.chip.clock.minute = some m →
            (o.word12 < m → refused .stepBack) ∧ (m + 1440 < o.word12 → refused .stepRange)
              ∧ (m ≤ o.word12 → o.word12 ≤ m + 1440 → ∃ t, exec .setClock s = .next t ∧ OrderFinished s t .done
                ∧ t.chip.clock.minute = some o.word12 ∧ t.chip.clock.seconds = o.word8
                ∧ t.chip.clock.state = s.chip.clock.state
                ∧ (o.word12 = m → t.chip.clock = { s.chip.clock with seconds := o.word8 }
                    ∧ t.chip.pass = s.chip.pass ∧ SameLineUp s t)
                ∧ (m < o.word12 → BlackoutsAt t.chip (some o.word12)
                    ∧ t.chip.lineUp = { s.chip.lineUp with
                        active := t.chip.lineUp.active, zones := t.chip.lineUp.zones }
                    ∧ t.chip.sweep = s.chip.sweep)
                ∧ SameSupervision s t ∧ SameOutside s t))

/-- NEXT_CYCLE: refused CLOCK UNSET or PARAMETER RANGE with no other effect; otherwise next M becomes the length
carried, the current M is not changed, the next boundary gives the new length, and the checkpoint is queued (R114). -/
def Obligations.NextCycleSetsNextM : Prop :=
  ∀ (o : Order) (s : State), Settled s → OrderTaken s o → o.kind = 8 →
    (s.chip.clock.state = .unset → ∃ t, exec .nextCycle s = .next t ∧ OrderRefused s t .clockUnset)
      ∧ (s.chip.clock.state ≠ .unset → (o.word12 < 1440 ∨ 44640 < o.word12) →
          ∃ t, exec .nextCycle s = .next t ∧ OrderRefused s t .parameterRange)
      ∧ (s.chip.clock.state ≠ .unset → 1440 ≤ o.word12 → o.word12 ≤ 44640 →
          ∃ t, exec .nextCycle s = .next t ∧ OrderFinished s t .done
            ∧ t.chip.clock = { s.chip.clock with cal := { s.chip.clock.cal with nextM := o.word12 } }
            ∧ t.chip.clock.cal.m = s.chip.clock.cal.m ∧ (t.chip.clock.cal.boundary).m = o.word12
            ∧ t.chip.engine = { s.chip.engine with
                request := t.chip.engine.request
                checkpoint := some
                  { cycle := s.chip.clock.cal.cycle, start := s.chip.clock.cal.start, m := s.chip.clock.cal.m
                    nextM := o.word12, passMinute := s.chip.pass.minute
                    lineUpGen := s.chip.lineUp.gen.getD 0, plantGen := s.chip.plant.gen.getD 0 } }
            ∧ t.chip.pass = s.chip.pass ∧ t.chip.journal = s.chip.journal ∧ SameLinks s t ∧ SameSupervision s t
            ∧ SameSubscribers s t ∧ SameLineUp s t ∧ t.chip.path = s.chip.path ∧ t.chip.part = s.chip.part
            ∧ SameOutside s t)

/-! ### Layouts -/

/-- A live block written as the 96 bytes of its live section reads back as itself: no bit of a field in range is lost or
moved (R22, R134, R188). -/
def Obligations.LiveSectionRoundTrips : Prop :=
  ∀ (l : Live) (a : Nat), OutcomeCode.ofByte l.outcome.byte = l.outcome → l.heldMinutes < 65536 →
    -2147483648 ≤ l.tierAmount → l.tierAmount < 2147483648 → -2147483648 ≤ l.eventAmount →
    l.eventAmount < 2147483648 → l.remainder < 65536 → -140737488355328 ≤ l.heldNumerator →
    l.heldNumerator < 140737488355328 → (∀ m, l.outSince = some m → m < 4294967295) →
    (∀ o, l.owned = some o → o.element < 640 ∧ o.port < 4 ∧ o.zone < 8) → l.purchases.length ≤ 4 →
    (∀ p ∈ l.purchases, p.position < 256 ∧ p.dark < 65536 ∧ p.start < 4294967296 ∧ p.stop < 4294967296
      ∧ 0 ≤ p.price ∧ p.price < 2147483648) →
    l.bytes.length = 96 ∧ liveAt (Memory.writeBytes [] a l.bytes) a = l
      ∧ oddStateAt (Memory.writeBytes [] a l.bytes) a = none

/-- A frame as sent begins with the lead byte, gives its own address, kind, length and payload back to a receiver, and
sums to zero over all its bytes after the lead (R189). -/
def Obligations.FramesReadBackAndSumToZero : Prop :=
  ∀ (address : Nat) (kind : Byte) (payload rest : List Byte), address < 1024 → payload.length < 256 →
    ∃ body, frameOf address kind payload = 0x7E :: body ∧ body.length = payload.length + 5 ∧ byteSum body = 0
      ∧ frameAfterLead (body ++ rest) =
          some { addr := address, kind := kind, length := payload.length, payload := payload, sum := 0 }

/-- The words the host reads: every word of the STATUS views in the layout of 11.3 (R19, R64, R90, R107, R123, R158,
R176, R184), and the order tail, journal head, slot outcome, LINE-UP and PLANT outcome words, by part state (R11, R72,
R148, R168, R171). The codes of the memory and taking states (log 15), of a CLOSED bank and of the START cursor, both
free (log 16), what an element not in use shows (log 51), the journal head in FILL (log 54) and the outcome words in
CONFIG FAULT (log 29) are the model's choices. -/
def Obligations.StatusViewsShowTheState : Prop :=
  let w := fun n : Nat => BitVec.ofNat 32 n
  let bit := fun x : Bool => if x = true then 1 else 0
  let pack := fun b0 b1 b2 b3 : Nat =>
    w (b0 % 256 + 256 * (b1 % 256) + 65536 * (b2 % 256) + 16777216 * (b3 % 256))
  (∀ c : Chip,
    let words := fun off n : Nat => (List.range n).map fun k => c.statusWord (off + 4 * k)
    words 0 4 = [w c.orders.tail.toNat, w c.journal.head.toNat, w c.journal.tail.toNat, w c.orders.head.toNat]
      ∧ c.statusWord 64 = pack c.part.state.code c.part.fault.code c.part.stage.code c.part.cause.code
      ∧ words 68 8 = (List.range 8).map (fun k => wordAt c.part.startView (4 * k))
      ∧ c.statusWord 100 = w (bit c.part.startBlank)
      ∧ words 256 15 =
          [w c.orders.head.toNat, w c.orders.tail.toNat, w c.config.orderCapacity, w c.orders.taking.code
           , c.orders.done, c.orders.refused, w c.journal.head.toNat, w c.journal.tail.toNat
           , w c.config.journalCapacity, w c.journal.queue.length
           , w (c.journal.queue.filter (fun q => q.writing)).length, w (bit c.moneyWaiting), c.journal.dropped
           , c.path.guarded, w c.path.lastGuarded]
      ∧ words 384 14 =
          [w c.clock.state.code, w (c.clock.minute.getD 0), w c.clock.seconds, w c.clock.cal.cycle.toNat
           , w c.clock.cal.start, w c.clock.cal.m, w c.clock.cal.nextM, w c.clock.backlog
           , w (c.clock.nextPass.getD 0), c.clock.dropped, w c.pass.state.code, w (c.pass.minute.getD 0)
           , w c.pass.cursor
           , w (if c.pass.state = .paused then (c.pass.point.map (·.stage)).getD 0 else 0)]
      ∧ words 512 16 =
          [w c.path.mem.code, w ((c.path.cas.map (·.toNat)).getD 4294967295)]
            ++ (List.range 4).map (fun k => match vget c.path.banks k with
              | some row => w row.toNat
              | none => Config.closedBankCode)
            ++ [c.path.blind, c.path.guarded, w c.path.lastGuarded, w c.engine.request.code, w (bit c.busurg)
                , w c.fillReads, w c.journalOffer, w (bit c.engine.checkpoint.isSome), w (bit c.store.copy.isSome)
                , c.engine.count]
      ∧ (∀ b, b < 4 → words (1024 + 32 * b) 7 =
          [w (c.branch b).link.code, w (c.branch b).carrier.code, w (c.branch b).dirty.length
           , w (c.branch b).repoll.length, (c.branch b).exchanges, (c.branch b).unanswered, (c.branch b).rejected])
      ∧ (∀ q, q < 64 → words (2048 + 8 * q) 2 =
          [pack (bit (c.channel q).used + 2 * bit (c.effective q).onBackup) ((c.effective q).source.getD 255)
              (vget c.lineUp.zones q).toNat (match (c.point q).confirmed with
                | .source k => k
                | .nothing => 255
                | .unknown => 254)
           , pack (c.point q).mismatch (c.point q).condition.code 0 0])
      ∧ (∀ k, k < 32 → c.statusWord (2560 + 4 * k) =
          pack (c.source k).state.code ((c.source k).lastLevel.getD 255).toNat
            (bit (c.source k).lastUnanswered + 2 * bit (c.source k).lastLevel.isNone) 0)
      ∧ words 2688 6 =
          [w c.rack.link.code, w c.rack.pendingList.length
           , (match c.rack.cursor with
              | some g => w g
              | none => Config.startCursorCode)
           , c.rack.exchanges, c.rack.unanswered, c.rack.rejected]
      ∧ words 4096 3 = [w c.outages.records.length, w c.outages.nextId.toNat, w c.markedObjects.length]
      ∧ (∀ k, k < 64 → words (4112 + 32 * k) 8 = match c.outages.records[k]? with
          | some o =>
            [pack o.id.toNat o.kind.code o.state.code o.cause.code
             , pack o.object (o.object / 256) (bit o.acknowledged) 0, w (o.start.getD 4294967295)
             , w (o.stop.getD 4294967295), w (o.affected % 65536), 0, 0, 0]
          | none => List.replicate 8 0)
      ∧ (∀ e, e < 640 → c.statusWord (6400 + 4 * e) =
          w (bit (c.element e).record.inUse + 16 * (c.element e).sup.level.code + 256 * (c.element e).sup.state.code
            + 65536 * (c.element e).sup.history.toNat)))
    ∧ (∀ (c : Chip) (j off : Nat),
      let fill := c.part.state = .fill
      let running := c.part.state = .running
      let fault := c.part.state = .configFault
      let word := fun (o : OutcomeCode) (gen : Option Half) =>
        w (o.byte.toNat + 256 * bit gen.isSome + 65536 * (gen.getD 0).toNat)
      let shown := fun (k : WordKind) (o : OutcomeCode) (gen : Option Half) =>
        ((fill ∨ running) → gen.isSome = true → c.merged k = some (word o gen))
          ∧ (fault → gen = none → o ≠ .notTaken → c.merged k = some (word o none))
          ∧ ((fill ∨ running) → gen = none → c.merged k = none)
      (fill ∨ running ∨ fault → c.merged (.status off) = some (c.statusWord off))
        ∧ (fill ∨ running → c.merged .orderTail = some (w c.orders.tail.toNat))
        ∧ (running → c.merged .journalHead = some (w c.journal.head.toNat))
        ∧ (running → c.merged (.slotOutcome j) =
            some (w ((c.slotOutcome j).code.byte.toNat + 65536 * (c.slotOutcome j).index.toNat)))
        ∧ shown .lineUpOutcome c.lineUp.outcome c.lineUp.gen ∧ shown .plantOutcome c.plant.outcome c.plant.gen
        ∧ (¬ running → c.merged .journalHead = none ∧ c.merged (.slotOutcome j) = none)
        ∧ (¬ (fill ∨ running) → c.merged .orderTail = none)
        ∧ (c.part.state = .awaitMode ∨ c.part.state = .transparent → ∀ k, c.merged k = none))
    ∧ [PartState.awaitMode, .fill, .running, .configFault, .transparent].map PartState.code = [0, 1, 2, 3, 4]
    ∧ [FaultCode.none, .format, .regionPlace, .regionSize, .overlap, .ringSize, .calendar, .plantTake,
        .lineUpTake].map FaultCode.code = [0, 1, 2, 3, 4, 5, 6, 7, 8]
    ∧ [LinkState.silent, .idle, .sending, .listening].map LinkState.code = [0, 1, 2, 3]
    ∧ [Supervision.unverified, .answering, .failing, .suppressed].map Supervision.code = [0, 1, 2, 3]
    ∧ [OutageState.opened, .covered, .closing, .closed].map OutageState.code = [0, 1, 2, 3]
    ∧ [ClockState.unset, .running, .held].map ClockState.code = [0, 1, 2]
    ∧ [PassState.idle, .visiting, .paused].map PassState.code = [0, 1, 2]
    ∧ [Hysteresis.unarmed, .armed, .tripped].map Hysteresis.code = [0, 1, 2]
end

