-- ==== Sys2Proof/Laws/Memory.lean ====
section
/-! SUPPORT. The laws of memory: a read after a write, and the canonical form that every operation keeps. -/

namespace Sys2Proof.Machine

theorem Memory.wfAbove_mono {m : Memory} {lo hi : Nat} (h : lo ≤ hi) (w : Memory.wfAbove hi m = true) :
    Memory.wfAbove lo m = true := by
  cases m with
  | nil => rfl
  | cons x m =>
    obtain ⟨k, v⟩ := x
    simp only [Memory.wfAbove, Bool.and_eq_true, decide_eq_true_eq] at w ⊢
    exact ⟨⟨by omega, w.1.2⟩, w.2⟩

/-- Writing a byte at or above the bound keeps the canonical form above it. -/
theorem Memory.write_wfAbove {m : Memory} {lo a : Nat} {b : Byte} (hl : lo ≤ a) (w : Memory.wfAbove lo m = true) :
    Memory.wfAbove lo (Memory.write m a b) = true := by
  induction m generalizing lo with
  | nil => by_cases hb : b = Config.blankByte <;> simp [Memory.write, Memory.wfAbove, hb, hl]
  | cons x m ih =>
    obtain ⟨k, v⟩ := x
    simp only [Memory.wfAbove, Bool.and_eq_true, decide_eq_true_eq, bne_iff_ne, ne_eq] at w
    obtain ⟨⟨hk, hv⟩, hm⟩ := w
    by_cases h1 : a < k
    · by_cases hb : b = Config.blankByte <;>
        simp [Memory.write, Memory.wfAbove, h1, hb, hl, hv, hk, hm]
    · by_cases h2 : a = k
      · by_cases hb : b = Config.blankByte
        · simpa [Memory.write, h2, hb] using Memory.wfAbove_mono (by omega) hm
        · simp [Memory.write, Memory.wfAbove, h2, hb, hk, hm]
      · simp [Memory.write, Memory.wfAbove, h1, h2, hk, hv, ih (by omega : k + 1 ≤ a) hm]

/-- A write keeps the canonical form. -/
theorem Memory.write_wf {m : Memory} (a : Nat) (b : Byte) (w : Memory.wf m = true) :
    Memory.wf (Memory.write m a b) = true :=
  Memory.write_wfAbove (Nat.zero_le a) w

/-- Writing bytes keeps the canonical form. -/
theorem Memory.writeBytes_wf {m : Memory} (a : Nat) (bs : List Byte) (w : Memory.wf m = true) :
    Memory.wf (Memory.writeBytes m a bs) = true := by
  induction bs generalizing m a with
  | nil => exact w
  | cons b bs ih => exact ih (a + 1) (Memory.write_wf a b w)

/-- A predicate that every step of a loop over indices keeps holds after it. -/
theorem forIndices_keeps {α : Type} {P : α → Prop} {f : α → Nat → α} (n : Nat) {x : α} (h : P x)
    (hf : ∀ y k, k < n → P y → P (f y k)) : P (forIndices n f x) := by
  have key : ∀ (l : List Nat) (y : α), (∀ k ∈ l, k < n) → P y → P (l.foldl f y) := by
    intro l
    induction l with
    | nil => intro y _ hy; exact hy
    | cons k l ih =>
      intro y hl hy
      exact ih _ (fun j hj => hl j (List.mem_cons_of_mem _ hj)) (hf y k (hl k List.mem_cons_self) hy)
  exact key _ x (fun k hk => List.mem_range.mp hk) h

/-- The unmasked bytes of a host word keep the canonical form. -/
theorem Memory.writeHost_wf {m : Memory} (base : Nat) (w : HostWord) (h : Memory.wf m = true) :
    Memory.wf (Memory.writeHost m base w) = true := by
  refine forIndices_keeps (P := fun m => Memory.wf m = true) 4 h fun y k _ hy => ?_
  by_cases t : w.touches k = true
  · simpa [t] using Memory.write_wf _ _ hy
  · simpa [t] using hy

/-- Below the bound of a canonical memory every address is blank. -/
theorem Memory.read_below {m : Memory} {lo a : Nat} (w : Memory.wfAbove lo m = true) (h : a < lo) :
    Memory.read m a = Config.blankByte := by
  induction m generalizing lo with
  | nil => rfl
  | cons x m ih =>
    obtain ⟨k, v⟩ := x
    simp only [Memory.wfAbove, Bool.and_eq_true, decide_eq_true_eq] at w
    have hk : k ≠ a := by omega
    simp only [Memory.read, hk, if_false]
    exact ih w.2 (by omega)

/-- A read after a write in a canonical memory: the byte written at its address, every other byte as before. -/
theorem Memory.read_write_above {m : Memory} {lo : Nat} (w : Memory.wfAbove lo m = true) (a : Nat) (b : Byte) (x : Nat) :
    Memory.read (Memory.write m a b) x = if x = a then b else Memory.read m x := by
  induction m generalizing lo with
  | nil =>
    by_cases hb : b = Config.blankByte <;> by_cases hx : x = a
    · simp [Memory.write, Memory.read, hb]
    · simp [Memory.write, Memory.read, hb]
    · simp [Memory.write, Memory.read, hb, hx]
    · simp [Memory.write, Memory.read, hb, hx, Ne.symm hx]
  | cons p m ih =>
    obtain ⟨k, v⟩ := p
    simp only [Memory.wfAbove, Bool.and_eq_true, decide_eq_true_eq] at w
    obtain ⟨⟨hk, _⟩, hm⟩ := w
    by_cases h1 : a < k
    · by_cases hb : b = Config.blankByte
      · simp only [Memory.write, h1, hb, if_true]
        split
        · next hx =>
          subst hx
          have : k ≠ x := by omega
          simp [Memory.read, this, Memory.read_below hm (show x < k + 1 by omega)]
        · rfl
      · simp only [Memory.write, h1, hb, if_true, if_false, Memory.read]
        by_cases hx : x = a
        · simp [hx]
        · simp [hx, Ne.symm hx]
    · by_cases h2 : a = k
      · subst h2
        by_cases hb : b = Config.blankByte
        · simp only [Memory.write, hb, if_true, Nat.lt_irrefl, if_false]
          by_cases hx : x = a
          · subst hx; simp [Memory.read_below hm (Nat.lt_succ_self x)]
          · simp [Memory.read, hx, Ne.symm hx]
        · simp only [Memory.write, hb, Nat.lt_irrefl, if_true, if_false, Memory.read]
          by_cases hx : x = a
          · simp [hx]
          · simp [hx, Ne.symm hx]
      · simp only [Memory.write, h1, h2, if_false, Memory.read]
        by_cases hx : k = x
        · subst hx; simp [Ne.symm h2]
        · simp only [hx, if_false]; exact ih hm

theorem Memory.read_write {m : Memory} (w : Memory.wf m = true) (a : Nat) (b : Byte) (x : Nat) :
    Memory.read (Memory.write m a b) x = if x = a then b else Memory.read m x :=
  Memory.read_write_above w a b x

/-- A read after bytes are written at rising addresses. -/
theorem Memory.read_writeBytes {m : Memory} (w : Memory.wf m = true) (a : Nat) (bs : List Byte) (x : Nat) :
    Memory.read (Memory.writeBytes m a bs) x =
      if a ≤ x ∧ x < a + bs.length then bs.getD (x - a) 0 else Memory.read m x := by
  induction bs generalizing m a with
  | nil =>
    simp [Memory.writeBytes]
  | cons b bs ih =>
    simp only [Memory.writeBytes, ih (Memory.write_wf a b w), Memory.read_write w, List.length_cons]
    by_cases h : a + 1 ≤ x ∧ x < a + 1 + bs.length
    · have h2 : a ≤ x ∧ x < a + (bs.length + 1) := by omega
      have h3 : x - a = (x - (a + 1)) + 1 := by omega
      simp only [h, h2, and_self, if_true, h3, List.getD_cons_succ]
    · by_cases hx : x = a
      · subst hx
        have h2 : x ≤ x ∧ x < x + (bs.length + 1) := by omega
        simp only [h, h2, and_self, if_true, if_false, Nat.sub_self, List.getD_cons_zero]
      · have h2 : ¬ (a ≤ x ∧ x < a + (bs.length + 1)) := by omega
        simp only [h, h2, hx, if_false]

end Sys2Proof.Machine
end

