-- ==== Sys2Proof/Laws/State.lean ====
section
/-! SUPPORT. One lemma per field per named update of the part and of the machine, each true by rfl. -/

namespace Sys2Proof.Machine

@[simp] theorem Chip.setPart_part (c : Chip) (x : Part) : (c.setPart x).part = x := rfl
@[simp] theorem Chip.setPart_path (c : Chip) (x : Part) : (c.setPart x).path = c.path := rfl
@[simp] theorem Chip.setPart_engine (c : Chip) (x : Part) : (c.setPart x).engine = c.engine := rfl
@[simp] theorem Chip.setPart_lineUp (c : Chip) (x : Part) : (c.setPart x).lineUp = c.lineUp := rfl
@[simp] theorem Chip.setPart_subs (c : Chip) (x : Part) : (c.setPart x).subs = c.subs := rfl
@[simp] theorem Chip.setPart_store (c : Chip) (x : Part) : (c.setPart x).store = c.store := rfl
@[simp] theorem Chip.setPart_ports (c : Chip) (x : Part) : (c.setPart x).ports = c.ports := rfl
@[simp] theorem Chip.setPart_sweep (c : Chip) (x : Part) : (c.setPart x).sweep = c.sweep := rfl
@[simp] theorem Chip.setPart_branches (c : Chip) (x : Part) : (c.setPart x).branches = c.branches := rfl
@[simp] theorem Chip.setPart_elements (c : Chip) (x : Part) : (c.setPart x).elements = c.elements := rfl
@[simp] theorem Chip.setPart_plant (c : Chip) (x : Part) : (c.setPart x).plant = c.plant := rfl
@[simp] theorem Chip.setPart_rack (c : Chip) (x : Part) : (c.setPart x).rack = c.rack := rfl
@[simp] theorem Chip.setPart_sources (c : Chip) (x : Part) : (c.setPart x).sources = c.sources := rfl
@[simp] theorem Chip.setPart_outages (c : Chip) (x : Part) : (c.setPart x).outages = c.outages := rfl
@[simp] theorem Chip.setPart_clock (c : Chip) (x : Part) : (c.setPart x).clock = c.clock := rfl
@[simp] theorem Chip.setPart_pass (c : Chip) (x : Part) : (c.setPart x).pass = c.pass := rfl
@[simp] theorem Chip.setPart_orders (c : Chip) (x : Part) : (c.setPart x).orders = c.orders := rfl
@[simp] theorem Chip.setPart_journal (c : Chip) (x : Part) : (c.setPart x).journal = c.journal := rfl
@[simp] theorem Chip.setPart_drawn (c : Chip) (x : Part) : (c.setPart x).drawn = c.drawn := rfl
@[simp] theorem Chip.setPath_part (c : Chip) (x : MemPath) : (c.setPath x).part = c.part := rfl
@[simp] theorem Chip.setPath_path (c : Chip) (x : MemPath) : (c.setPath x).path = x := rfl
@[simp] theorem Chip.setPath_engine (c : Chip) (x : MemPath) : (c.setPath x).engine = c.engine := rfl
@[simp] theorem Chip.setPath_lineUp (c : Chip) (x : MemPath) : (c.setPath x).lineUp = c.lineUp := rfl
@[simp] theorem Chip.setPath_subs (c : Chip) (x : MemPath) : (c.setPath x).subs = c.subs := rfl
@[simp] theorem Chip.setPath_store (c : Chip) (x : MemPath) : (c.setPath x).store = c.store := rfl
@[simp] theorem Chip.setPath_ports (c : Chip) (x : MemPath) : (c.setPath x).ports = c.ports := rfl
@[simp] theorem Chip.setPath_sweep (c : Chip) (x : MemPath) : (c.setPath x).sweep = c.sweep := rfl
@[simp] theorem Chip.setPath_branches (c : Chip) (x : MemPath) : (c.setPath x).branches = c.branches := rfl
@[simp] theorem Chip.setPath_elements (c : Chip) (x : MemPath) : (c.setPath x).elements = c.elements := rfl
@[simp] theorem Chip.setPath_plant (c : Chip) (x : MemPath) : (c.setPath x).plant = c.plant := rfl
@[simp] theorem Chip.setPath_rack (c : Chip) (x : MemPath) : (c.setPath x).rack = c.rack := rfl
@[simp] theorem Chip.setPath_sources (c : Chip) (x : MemPath) : (c.setPath x).sources = c.sources := rfl
@[simp] theorem Chip.setPath_outages (c : Chip) (x : MemPath) : (c.setPath x).outages = c.outages := rfl
@[simp] theorem Chip.setPath_clock (c : Chip) (x : MemPath) : (c.setPath x).clock = c.clock := rfl
@[simp] theorem Chip.setPath_pass (c : Chip) (x : MemPath) : (c.setPath x).pass = c.pass := rfl
@[simp] theorem Chip.setPath_orders (c : Chip) (x : MemPath) : (c.setPath x).orders = c.orders := rfl
@[simp] theorem Chip.setPath_journal (c : Chip) (x : MemPath) : (c.setPath x).journal = c.journal := rfl
@[simp] theorem Chip.setPath_drawn (c : Chip) (x : MemPath) : (c.setPath x).drawn = c.drawn := rfl
@[simp] theorem Chip.setEngine_part (c : Chip) (x : Engine) : (c.setEngine x).part = c.part := rfl
@[simp] theorem Chip.setEngine_path (c : Chip) (x : Engine) : (c.setEngine x).path = c.path := rfl
@[simp] theorem Chip.setEngine_engine (c : Chip) (x : Engine) : (c.setEngine x).engine = x := rfl
@[simp] theorem Chip.setEngine_lineUp (c : Chip) (x : Engine) : (c.setEngine x).lineUp = c.lineUp := rfl
@[simp] theorem Chip.setEngine_subs (c : Chip) (x : Engine) : (c.setEngine x).subs = c.subs := rfl
@[simp] theorem Chip.setEngine_store (c : Chip) (x : Engine) : (c.setEngine x).store = c.store := rfl
@[simp] theorem Chip.setEngine_ports (c : Chip) (x : Engine) : (c.setEngine x).ports = c.ports := rfl
@[simp] theorem Chip.setEngine_sweep (c : Chip) (x : Engine) : (c.setEngine x).sweep = c.sweep := rfl
@[simp] theorem Chip.setEngine_branches (c : Chip) (x : Engine) : (c.setEngine x).branches = c.branches := rfl
@[simp] theorem Chip.setEngine_elements (c : Chip) (x : Engine) : (c.setEngine x).elements = c.elements := rfl
@[simp] theorem Chip.setEngine_plant (c : Chip) (x : Engine) : (c.setEngine x).plant = c.plant := rfl
@[simp] theorem Chip.setEngine_rack (c : Chip) (x : Engine) : (c.setEngine x).rack = c.rack := rfl
@[simp] theorem Chip.setEngine_sources (c : Chip) (x : Engine) : (c.setEngine x).sources = c.sources := rfl
@[simp] theorem Chip.setEngine_outages (c : Chip) (x : Engine) : (c.setEngine x).outages = c.outages := rfl
@[simp] theorem Chip.setEngine_clock (c : Chip) (x : Engine) : (c.setEngine x).clock = c.clock := rfl
@[simp] theorem Chip.setEngine_pass (c : Chip) (x : Engine) : (c.setEngine x).pass = c.pass := rfl
@[simp] theorem Chip.setEngine_orders (c : Chip) (x : Engine) : (c.setEngine x).orders = c.orders := rfl
@[simp] theorem Chip.setEngine_journal (c : Chip) (x : Engine) : (c.setEngine x).journal = c.journal := rfl
@[simp] theorem Chip.setEngine_drawn (c : Chip) (x : Engine) : (c.setEngine x).drawn = c.drawn := rfl
@[simp] theorem Chip.setLineUp_part (c : Chip) (x : LineUpEngine) : (c.setLineUp x).part = c.part := rfl
@[simp] theorem Chip.setLineUp_path (c : Chip) (x : LineUpEngine) : (c.setLineUp x).path = c.path := rfl
@[simp] theorem Chip.setLineUp_engine (c : Chip) (x : LineUpEngine) : (c.setLineUp x).engine = c.engine := rfl
@[simp] theorem Chip.setLineUp_lineUp (c : Chip) (x : LineUpEngine) : (c.setLineUp x).lineUp = x := rfl
@[simp] theorem Chip.setLineUp_subs (c : Chip) (x : LineUpEngine) : (c.setLineUp x).subs = c.subs := rfl
@[simp] theorem Chip.setLineUp_store (c : Chip) (x : LineUpEngine) : (c.setLineUp x).store = c.store := rfl
@[simp] theorem Chip.setLineUp_ports (c : Chip) (x : LineUpEngine) : (c.setLineUp x).ports = c.ports := rfl
@[simp] theorem Chip.setLineUp_sweep (c : Chip) (x : LineUpEngine) : (c.setLineUp x).sweep = c.sweep := rfl
@[simp] theorem Chip.setLineUp_branches (c : Chip) (x : LineUpEngine) : (c.setLineUp x).branches = c.branches := rfl
@[simp] theorem Chip.setLineUp_elements (c : Chip) (x : LineUpEngine) : (c.setLineUp x).elements = c.elements := rfl
@[simp] theorem Chip.setLineUp_plant (c : Chip) (x : LineUpEngine) : (c.setLineUp x).plant = c.plant := rfl
@[simp] theorem Chip.setLineUp_rack (c : Chip) (x : LineUpEngine) : (c.setLineUp x).rack = c.rack := rfl
@[simp] theorem Chip.setLineUp_sources (c : Chip) (x : LineUpEngine) : (c.setLineUp x).sources = c.sources := rfl
@[simp] theorem Chip.setLineUp_outages (c : Chip) (x : LineUpEngine) : (c.setLineUp x).outages = c.outages := rfl
@[simp] theorem Chip.setLineUp_clock (c : Chip) (x : LineUpEngine) : (c.setLineUp x).clock = c.clock := rfl
@[simp] theorem Chip.setLineUp_pass (c : Chip) (x : LineUpEngine) : (c.setLineUp x).pass = c.pass := rfl
@[simp] theorem Chip.setLineUp_orders (c : Chip) (x : LineUpEngine) : (c.setLineUp x).orders = c.orders := rfl
@[simp] theorem Chip.setLineUp_journal (c : Chip) (x : LineUpEngine) : (c.setLineUp x).journal = c.journal := rfl
@[simp] theorem Chip.setLineUp_drawn (c : Chip) (x : LineUpEngine) : (c.setLineUp x).drawn = c.drawn := rfl
@[simp] theorem Chip.setSubs_part (c : Chip) (x : Vector Subscriber 2048) : (c.setSubs x).part = c.part := rfl
@[simp] theorem Chip.setSubs_path (c : Chip) (x : Vector Subscriber 2048) : (c.setSubs x).path = c.path := rfl
@[simp] theorem Chip.setSubs_engine (c : Chip) (x : Vector Subscriber 2048) : (c.setSubs x).engine = c.engine := rfl
@[simp] theorem Chip.setSubs_lineUp (c : Chip) (x : Vector Subscriber 2048) : (c.setSubs x).lineUp = c.lineUp := rfl
@[simp] theorem Chip.setSubs_subs (c : Chip) (x : Vector Subscriber 2048) : (c.setSubs x).subs = x := rfl
@[simp] theorem Chip.setSubs_store (c : Chip) (x : Vector Subscriber 2048) : (c.setSubs x).store = c.store := rfl
@[simp] theorem Chip.setSubs_ports (c : Chip) (x : Vector Subscriber 2048) : (c.setSubs x).ports = c.ports := rfl
@[simp] theorem Chip.setSubs_sweep (c : Chip) (x : Vector Subscriber 2048) : (c.setSubs x).sweep = c.sweep := rfl
@[simp] theorem Chip.setSubs_branches (c : Chip) (x : Vector Subscriber 2048) : (c.setSubs x).branches = c.branches := rfl
@[simp] theorem Chip.setSubs_elements (c : Chip) (x : Vector Subscriber 2048) : (c.setSubs x).elements = c.elements := rfl
@[simp] theorem Chip.setSubs_plant (c : Chip) (x : Vector Subscriber 2048) : (c.setSubs x).plant = c.plant := rfl
@[simp] theorem Chip.setSubs_rack (c : Chip) (x : Vector Subscriber 2048) : (c.setSubs x).rack = c.rack := rfl
@[simp] theorem Chip.setSubs_sources (c : Chip) (x : Vector Subscriber 2048) : (c.setSubs x).sources = c.sources := rfl
@[simp] theorem Chip.setSubs_outages (c : Chip) (x : Vector Subscriber 2048) : (c.setSubs x).outages = c.outages := rfl
@[simp] theorem Chip.setSubs_clock (c : Chip) (x : Vector Subscriber 2048) : (c.setSubs x).clock = c.clock := rfl
@[simp] theorem Chip.setSubs_pass (c : Chip) (x : Vector Subscriber 2048) : (c.setSubs x).pass = c.pass := rfl
@[simp] theorem Chip.setSubs_orders (c : Chip) (x : Vector Subscriber 2048) : (c.setSubs x).orders = c.orders := rfl
@[simp] theorem Chip.setSubs_journal (c : Chip) (x : Vector Subscriber 2048) : (c.setSubs x).journal = c.journal := rfl
@[simp] theorem Chip.setSubs_drawn (c : Chip) (x : Vector Subscriber 2048) : (c.setSubs x).drawn = c.drawn := rfl
@[simp] theorem Chip.setStore_part (c : Chip) (x : Store) : (c.setStore x).part = c.part := rfl
@[simp] theorem Chip.setStore_path (c : Chip) (x : Store) : (c.setStore x).path = c.path := rfl
@[simp] theorem Chip.setStore_engine (c : Chip) (x : Store) : (c.setStore x).engine = c.engine := rfl
@[simp] theorem Chip.setStore_lineUp (c : Chip) (x : Store) : (c.setStore x).lineUp = c.lineUp := rfl
@[simp] theorem Chip.setStore_subs (c : Chip) (x : Store) : (c.setStore x).subs = c.subs := rfl
@[simp] theorem Chip.setStore_store (c : Chip) (x : Store) : (c.setStore x).store = x := rfl
@[simp] theorem Chip.setStore_ports (c : Chip) (x : Store) : (c.setStore x).ports = c.ports := rfl
@[simp] theorem Chip.setStore_sweep (c : Chip) (x : Store) : (c.setStore x).sweep = c.sweep := rfl
@[simp] theorem Chip.setStore_branches (c : Chip) (x : Store) : (c.setStore x).branches = c.branches := rfl
@[simp] theorem Chip.setStore_elements (c : Chip) (x : Store) : (c.setStore x).elements = c.elements := rfl
@[simp] theorem Chip.setStore_plant (c : Chip) (x : Store) : (c.setStore x).plant = c.plant := rfl
@[simp] theorem Chip.setStore_rack (c : Chip) (x : Store) : (c.setStore x).rack = c.rack := rfl
@[simp] theorem Chip.setStore_sources (c : Chip) (x : Store) : (c.setStore x).sources = c.sources := rfl
@[simp] theorem Chip.setStore_outages (c : Chip) (x : Store) : (c.setStore x).outages = c.outages := rfl
@[simp] theorem Chip.setStore_clock (c : Chip) (x : Store) : (c.setStore x).clock = c.clock := rfl
@[simp] theorem Chip.setStore_pass (c : Chip) (x : Store) : (c.setStore x).pass = c.pass := rfl
@[simp] theorem Chip.setStore_orders (c : Chip) (x : Store) : (c.setStore x).orders = c.orders := rfl
@[simp] theorem Chip.setStore_journal (c : Chip) (x : Store) : (c.setStore x).journal = c.journal := rfl
@[simp] theorem Chip.setStore_drawn (c : Chip) (x : Store) : (c.setStore x).drawn = c.drawn := rfl
@[simp] theorem Chip.setPorts_part (c : Chip) (x : Vector Port 2560) : (c.setPorts x).part = c.part := rfl
@[simp] theorem Chip.setPorts_path (c : Chip) (x : Vector Port 2560) : (c.setPorts x).path = c.path := rfl
@[simp] theorem Chip.setPorts_engine (c : Chip) (x : Vector Port 2560) : (c.setPorts x).engine = c.engine := rfl
@[simp] theorem Chip.setPorts_lineUp (c : Chip) (x : Vector Port 2560) : (c.setPorts x).lineUp = c.lineUp := rfl
@[simp] theorem Chip.setPorts_subs (c : Chip) (x : Vector Port 2560) : (c.setPorts x).subs = c.subs := rfl
@[simp] theorem Chip.setPorts_store (c : Chip) (x : Vector Port 2560) : (c.setPorts x).store = c.store := rfl
@[simp] theorem Chip.setPorts_ports (c : Chip) (x : Vector Port 2560) : (c.setPorts x).ports = x := rfl
@[simp] theorem Chip.setPorts_sweep (c : Chip) (x : Vector Port 2560) : (c.setPorts x).sweep = c.sweep := rfl
@[simp] theorem Chip.setPorts_branches (c : Chip) (x : Vector Port 2560) : (c.setPorts x).branches = c.branches := rfl
@[simp] theorem Chip.setPorts_elements (c : Chip) (x : Vector Port 2560) : (c.setPorts x).elements = c.elements := rfl
@[simp] theorem Chip.setPorts_plant (c : Chip) (x : Vector Port 2560) : (c.setPorts x).plant = c.plant := rfl
@[simp] theorem Chip.setPorts_rack (c : Chip) (x : Vector Port 2560) : (c.setPorts x).rack = c.rack := rfl
@[simp] theorem Chip.setPorts_sources (c : Chip) (x : Vector Port 2560) : (c.setPorts x).sources = c.sources := rfl
@[simp] theorem Chip.setPorts_outages (c : Chip) (x : Vector Port 2560) : (c.setPorts x).outages = c.outages := rfl
@[simp] theorem Chip.setPorts_clock (c : Chip) (x : Vector Port 2560) : (c.setPorts x).clock = c.clock := rfl
@[simp] theorem Chip.setPorts_pass (c : Chip) (x : Vector Port 2560) : (c.setPorts x).pass = c.pass := rfl
@[simp] theorem Chip.setPorts_orders (c : Chip) (x : Vector Port 2560) : (c.setPorts x).orders = c.orders := rfl
@[simp] theorem Chip.setPorts_journal (c : Chip) (x : Vector Port 2560) : (c.setPorts x).journal = c.journal := rfl
@[simp] theorem Chip.setPorts_drawn (c : Chip) (x : Vector Port 2560) : (c.setPorts x).drawn = c.drawn := rfl
@[simp] theorem Chip.setSweep_part (c : Chip) (x : Option Nat) : (c.setSweep x).part = c.part := rfl
@[simp] theorem Chip.setSweep_path (c : Chip) (x : Option Nat) : (c.setSweep x).path = c.path := rfl
@[simp] theorem Chip.setSweep_engine (c : Chip) (x : Option Nat) : (c.setSweep x).engine = c.engine := rfl
@[simp] theorem Chip.setSweep_lineUp (c : Chip) (x : Option Nat) : (c.setSweep x).lineUp = c.lineUp := rfl
@[simp] theorem Chip.setSweep_subs (c : Chip) (x : Option Nat) : (c.setSweep x).subs = c.subs := rfl
@[simp] theorem Chip.setSweep_store (c : Chip) (x : Option Nat) : (c.setSweep x).store = c.store := rfl
@[simp] theorem Chip.setSweep_ports (c : Chip) (x : Option Nat) : (c.setSweep x).ports = c.ports := rfl
@[simp] theorem Chip.setSweep_sweep (c : Chip) (x : Option Nat) : (c.setSweep x).sweep = x := rfl
@[simp] theorem Chip.setSweep_branches (c : Chip) (x : Option Nat) : (c.setSweep x).branches = c.branches := rfl
@[simp] theorem Chip.setSweep_elements (c : Chip) (x : Option Nat) : (c.setSweep x).elements = c.elements := rfl
@[simp] theorem Chip.setSweep_plant (c : Chip) (x : Option Nat) : (c.setSweep x).plant = c.plant := rfl
@[simp] theorem Chip.setSweep_rack (c : Chip) (x : Option Nat) : (c.setSweep x).rack = c.rack := rfl
@[simp] theorem Chip.setSweep_sources (c : Chip) (x : Option Nat) : (c.setSweep x).sources = c.sources := rfl
@[simp] theorem Chip.setSweep_outages (c : Chip) (x : Option Nat) : (c.setSweep x).outages = c.outages := rfl
@[simp] theorem Chip.setSweep_clock (c : Chip) (x : Option Nat) : (c.setSweep x).clock = c.clock := rfl
@[simp] theorem Chip.setSweep_pass (c : Chip) (x : Option Nat) : (c.setSweep x).pass = c.pass := rfl
@[simp] theorem Chip.setSweep_orders (c : Chip) (x : Option Nat) : (c.setSweep x).orders = c.orders := rfl
@[simp] theorem Chip.setSweep_journal (c : Chip) (x : Option Nat) : (c.setSweep x).journal = c.journal := rfl
@[simp] theorem Chip.setSweep_drawn (c : Chip) (x : Option Nat) : (c.setSweep x).drawn = c.drawn := rfl
@[simp] theorem Chip.setBranches_part (c : Chip) (x : Vector Branch 4) : (c.setBranches x).part = c.part := rfl
@[simp] theorem Chip.setBranches_path (c : Chip) (x : Vector Branch 4) : (c.setBranches x).path = c.path := rfl
@[simp] theorem Chip.setBranches_engine (c : Chip) (x : Vector Branch 4) : (c.setBranches x).engine = c.engine := rfl
@[simp] theorem Chip.setBranches_lineUp (c : Chip) (x : Vector Branch 4) : (c.setBranches x).lineUp = c.lineUp := rfl
@[simp] theorem Chip.setBranches_subs (c : Chip) (x : Vector Branch 4) : (c.setBranches x).subs = c.subs := rfl
@[simp] theorem Chip.setBranches_store (c : Chip) (x : Vector Branch 4) : (c.setBranches x).store = c.store := rfl
@[simp] theorem Chip.setBranches_ports (c : Chip) (x : Vector Branch 4) : (c.setBranches x).ports = c.ports := rfl
@[simp] theorem Chip.setBranches_sweep (c : Chip) (x : Vector Branch 4) : (c.setBranches x).sweep = c.sweep := rfl
@[simp] theorem Chip.setBranches_branches (c : Chip) (x : Vector Branch 4) : (c.setBranches x).branches = x := rfl
@[simp] theorem Chip.setBranches_elements (c : Chip) (x : Vector Branch 4) : (c.setBranches x).elements = c.elements := rfl
@[simp] theorem Chip.setBranches_plant (c : Chip) (x : Vector Branch 4) : (c.setBranches x).plant = c.plant := rfl
@[simp] theorem Chip.setBranches_rack (c : Chip) (x : Vector Branch 4) : (c.setBranches x).rack = c.rack := rfl
@[simp] theorem Chip.setBranches_sources (c : Chip) (x : Vector Branch 4) : (c.setBranches x).sources = c.sources := rfl
@[simp] theorem Chip.setBranches_outages (c : Chip) (x : Vector Branch 4) : (c.setBranches x).outages = c.outages := rfl
@[simp] theorem Chip.setBranches_clock (c : Chip) (x : Vector Branch 4) : (c.setBranches x).clock = c.clock := rfl
@[simp] theorem Chip.setBranches_pass (c : Chip) (x : Vector Branch 4) : (c.setBranches x).pass = c.pass := rfl
@[simp] theorem Chip.setBranches_orders (c : Chip) (x : Vector Branch 4) : (c.setBranches x).orders = c.orders := rfl
@[simp] theorem Chip.setBranches_journal (c : Chip) (x : Vector Branch 4) : (c.setBranches x).journal = c.journal := rfl
@[simp] theorem Chip.setBranches_drawn (c : Chip) (x : Vector Branch 4) : (c.setBranches x).drawn = c.drawn := rfl
@[simp] theorem Chip.setElements_part (c : Chip) (x : Vector Element 640) : (c.setElements x).part = c.part := rfl
@[simp] theorem Chip.setElements_path (c : Chip) (x : Vector Element 640) : (c.setElements x).path = c.path := rfl
@[simp] theorem Chip.setElements_engine (c : Chip) (x : Vector Element 640) : (c.setElements x).engine = c.engine := rfl
@[simp] theorem Chip.setElements_lineUp (c : Chip) (x : Vector Element 640) : (c.setElements x).lineUp = c.lineUp := rfl
@[simp] theorem Chip.setElements_subs (c : Chip) (x : Vector Element 640) : (c.setElements x).subs = c.subs := rfl
@[simp] theorem Chip.setElements_store (c : Chip) (x : Vector Element 640) : (c.setElements x).store = c.store := rfl
@[simp] theorem Chip.setElements_ports (c : Chip) (x : Vector Element 640) : (c.setElements x).ports = c.ports := rfl
@[simp] theorem Chip.setElements_sweep (c : Chip) (x : Vector Element 640) : (c.setElements x).sweep = c.sweep := rfl
@[simp] theorem Chip.setElements_branches (c : Chip) (x : Vector Element 640) : (c.setElements x).branches = c.branches := rfl
@[simp] theorem Chip.setElements_elements (c : Chip) (x : Vector Element 640) : (c.setElements x).elements = x := rfl
@[simp] theorem Chip.setElements_plant (c : Chip) (x : Vector Element 640) : (c.setElements x).plant = c.plant := rfl
@[simp] theorem Chip.setElements_rack (c : Chip) (x : Vector Element 640) : (c.setElements x).rack = c.rack := rfl
@[simp] theorem Chip.setElements_sources (c : Chip) (x : Vector Element 640) : (c.setElements x).sources = c.sources := rfl
@[simp] theorem Chip.setElements_outages (c : Chip) (x : Vector Element 640) : (c.setElements x).outages = c.outages := rfl
@[simp] theorem Chip.setElements_clock (c : Chip) (x : Vector Element 640) : (c.setElements x).clock = c.clock := rfl
@[simp] theorem Chip.setElements_pass (c : Chip) (x : Vector Element 640) : (c.setElements x).pass = c.pass := rfl
@[simp] theorem Chip.setElements_orders (c : Chip) (x : Vector Element 640) : (c.setElements x).orders = c.orders := rfl
@[simp] theorem Chip.setElements_journal (c : Chip) (x : Vector Element 640) : (c.setElements x).journal = c.journal := rfl
@[simp] theorem Chip.setElements_drawn (c : Chip) (x : Vector Element 640) : (c.setElements x).drawn = c.drawn := rfl
@[simp] theorem Chip.setPlant_part (c : Chip) (x : Plant) : (c.setPlant x).part = c.part := rfl
@[simp] theorem Chip.setPlant_path (c : Chip) (x : Plant) : (c.setPlant x).path = c.path := rfl
@[simp] theorem Chip.setPlant_engine (c : Chip) (x : Plant) : (c.setPlant x).engine = c.engine := rfl
@[simp] theorem Chip.setPlant_lineUp (c : Chip) (x : Plant) : (c.setPlant x).lineUp = c.lineUp := rfl
@[simp] theorem Chip.setPlant_subs (c : Chip) (x : Plant) : (c.setPlant x).subs = c.subs := rfl
@[simp] theorem Chip.setPlant_store (c : Chip) (x : Plant) : (c.setPlant x).store = c.store := rfl
@[simp] theorem Chip.setPlant_ports (c : Chip) (x : Plant) : (c.setPlant x).ports = c.ports := rfl
@[simp] theorem Chip.setPlant_sweep (c : Chip) (x : Plant) : (c.setPlant x).sweep = c.sweep := rfl
@[simp] theorem Chip.setPlant_branches (c : Chip) (x : Plant) : (c.setPlant x).branches = c.branches := rfl
@[simp] theorem Chip.setPlant_elements (c : Chip) (x : Plant) : (c.setPlant x).elements = c.elements := rfl
@[simp] theorem Chip.setPlant_plant (c : Chip) (x : Plant) : (c.setPlant x).plant = x := rfl
@[simp] theorem Chip.setPlant_rack (c : Chip) (x : Plant) : (c.setPlant x).rack = c.rack := rfl
@[simp] theorem Chip.setPlant_sources (c : Chip) (x : Plant) : (c.setPlant x).sources = c.sources := rfl
@[simp] theorem Chip.setPlant_outages (c : Chip) (x : Plant) : (c.setPlant x).outages = c.outages := rfl
@[simp] theorem Chip.setPlant_clock (c : Chip) (x : Plant) : (c.setPlant x).clock = c.clock := rfl
@[simp] theorem Chip.setPlant_pass (c : Chip) (x : Plant) : (c.setPlant x).pass = c.pass := rfl
@[simp] theorem Chip.setPlant_orders (c : Chip) (x : Plant) : (c.setPlant x).orders = c.orders := rfl
@[simp] theorem Chip.setPlant_journal (c : Chip) (x : Plant) : (c.setPlant x).journal = c.journal := rfl
@[simp] theorem Chip.setPlant_drawn (c : Chip) (x : Plant) : (c.setPlant x).drawn = c.drawn := rfl
@[simp] theorem Chip.setRack_part (c : Chip) (x : Rack) : (c.setRack x).part = c.part := rfl
@[simp] theorem Chip.setRack_path (c : Chip) (x : Rack) : (c.setRack x).path = c.path := rfl
@[simp] theorem Chip.setRack_engine (c : Chip) (x : Rack) : (c.setRack x).engine = c.engine := rfl
@[simp] theorem Chip.setRack_lineUp (c : Chip) (x : Rack) : (c.setRack x).lineUp = c.lineUp := rfl
@[simp] theorem Chip.setRack_subs (c : Chip) (x : Rack) : (c.setRack x).subs = c.subs := rfl
@[simp] theorem Chip.setRack_store (c : Chip) (x : Rack) : (c.setRack x).store = c.store := rfl
@[simp] theorem Chip.setRack_ports (c : Chip) (x : Rack) : (c.setRack x).ports = c.ports := rfl
@[simp] theorem Chip.setRack_sweep (c : Chip) (x : Rack) : (c.setRack x).sweep = c.sweep := rfl
@[simp] theorem Chip.setRack_branches (c : Chip) (x : Rack) : (c.setRack x).branches = c.branches := rfl
@[simp] theorem Chip.setRack_elements (c : Chip) (x : Rack) : (c.setRack x).elements = c.elements := rfl
@[simp] theorem Chip.setRack_plant (c : Chip) (x : Rack) : (c.setRack x).plant = c.plant := rfl
@[simp] theorem Chip.setRack_rack (c : Chip) (x : Rack) : (c.setRack x).rack = x := rfl
@[simp] theorem Chip.setRack_sources (c : Chip) (x : Rack) : (c.setRack x).sources = c.sources := rfl
@[simp] theorem Chip.setRack_outages (c : Chip) (x : Rack) : (c.setRack x).outages = c.outages := rfl
@[simp] theorem Chip.setRack_clock (c : Chip) (x : Rack) : (c.setRack x).clock = c.clock := rfl
@[simp] theorem Chip.setRack_pass (c : Chip) (x : Rack) : (c.setRack x).pass = c.pass := rfl
@[simp] theorem Chip.setRack_orders (c : Chip) (x : Rack) : (c.setRack x).orders = c.orders := rfl
@[simp] theorem Chip.setRack_journal (c : Chip) (x : Rack) : (c.setRack x).journal = c.journal := rfl
@[simp] theorem Chip.setRack_drawn (c : Chip) (x : Rack) : (c.setRack x).drawn = c.drawn := rfl
@[simp] theorem Chip.setSources_part (c : Chip) (x : Vector Source 32) : (c.setSources x).part = c.part := rfl
@[simp] theorem Chip.setSources_path (c : Chip) (x : Vector Source 32) : (c.setSources x).path = c.path := rfl
@[simp] theorem Chip.setSources_engine (c : Chip) (x : Vector Source 32) : (c.setSources x).engine = c.engine := rfl
@[simp] theorem Chip.setSources_lineUp (c : Chip) (x : Vector Source 32) : (c.setSources x).lineUp = c.lineUp := rfl
@[simp] theorem Chip.setSources_subs (c : Chip) (x : Vector Source 32) : (c.setSources x).subs = c.subs := rfl
@[simp] theorem Chip.setSources_store (c : Chip) (x : Vector Source 32) : (c.setSources x).store = c.store := rfl
@[simp] theorem Chip.setSources_ports (c : Chip) (x : Vector Source 32) : (c.setSources x).ports = c.ports := rfl
@[simp] theorem Chip.setSources_sweep (c : Chip) (x : Vector Source 32) : (c.setSources x).sweep = c.sweep := rfl
@[simp] theorem Chip.setSources_branches (c : Chip) (x : Vector Source 32) : (c.setSources x).branches = c.branches := rfl
@[simp] theorem Chip.setSources_elements (c : Chip) (x : Vector Source 32) : (c.setSources x).elements = c.elements := rfl
@[simp] theorem Chip.setSources_plant (c : Chip) (x : Vector Source 32) : (c.setSources x).plant = c.plant := rfl
@[simp] theorem Chip.setSources_rack (c : Chip) (x : Vector Source 32) : (c.setSources x).rack = c.rack := rfl
@[simp] theorem Chip.setSources_sources (c : Chip) (x : Vector Source 32) : (c.setSources x).sources = x := rfl
@[simp] theorem Chip.setSources_outages (c : Chip) (x : Vector Source 32) : (c.setSources x).outages = c.outages := rfl
@[simp] theorem Chip.setSources_clock (c : Chip) (x : Vector Source 32) : (c.setSources x).clock = c.clock := rfl
@[simp] theorem Chip.setSources_pass (c : Chip) (x : Vector Source 32) : (c.setSources x).pass = c.pass := rfl
@[simp] theorem Chip.setSources_orders (c : Chip) (x : Vector Source 32) : (c.setSources x).orders = c.orders := rfl
@[simp] theorem Chip.setSources_journal (c : Chip) (x : Vector Source 32) : (c.setSources x).journal = c.journal := rfl
@[simp] theorem Chip.setSources_drawn (c : Chip) (x : Vector Source 32) : (c.setSources x).drawn = c.drawn := rfl
@[simp] theorem Chip.setOutages_part (c : Chip) (x : OutageTable) : (c.setOutages x).part = c.part := rfl
@[simp] theorem Chip.setOutages_path (c : Chip) (x : OutageTable) : (c.setOutages x).path = c.path := rfl
@[simp] theorem Chip.setOutages_engine (c : Chip) (x : OutageTable) : (c.setOutages x).engine = c.engine := rfl
@[simp] theorem Chip.setOutages_lineUp (c : Chip) (x : OutageTable) : (c.setOutages x).lineUp = c.lineUp := rfl
@[simp] theorem Chip.setOutages_subs (c : Chip) (x : OutageTable) : (c.setOutages x).subs = c.subs := rfl
@[simp] theorem Chip.setOutages_store (c : Chip) (x : OutageTable) : (c.setOutages x).store = c.store := rfl
@[simp] theorem Chip.setOutages_ports (c : Chip) (x : OutageTable) : (c.setOutages x).ports = c.ports := rfl
@[simp] theorem Chip.setOutages_sweep (c : Chip) (x : OutageTable) : (c.setOutages x).sweep = c.sweep := rfl
@[simp] theorem Chip.setOutages_branches (c : Chip) (x : OutageTable) : (c.setOutages x).branches = c.branches := rfl
@[simp] theorem Chip.setOutages_elements (c : Chip) (x : OutageTable) : (c.setOutages x).elements = c.elements := rfl
@[simp] theorem Chip.setOutages_plant (c : Chip) (x : OutageTable) : (c.setOutages x).plant = c.plant := rfl
@[simp] theorem Chip.setOutages_rack (c : Chip) (x : OutageTable) : (c.setOutages x).rack = c.rack := rfl
@[simp] theorem Chip.setOutages_sources (c : Chip) (x : OutageTable) : (c.setOutages x).sources = c.sources := rfl
@[simp] theorem Chip.setOutages_outages (c : Chip) (x : OutageTable) : (c.setOutages x).outages = x := rfl
@[simp] theorem Chip.setOutages_clock (c : Chip) (x : OutageTable) : (c.setOutages x).clock = c.clock := rfl
@[simp] theorem Chip.setOutages_pass (c : Chip) (x : OutageTable) : (c.setOutages x).pass = c.pass := rfl
@[simp] theorem Chip.setOutages_orders (c : Chip) (x : OutageTable) : (c.setOutages x).orders = c.orders := rfl
@[simp] theorem Chip.setOutages_journal (c : Chip) (x : OutageTable) : (c.setOutages x).journal = c.journal := rfl
@[simp] theorem Chip.setOutages_drawn (c : Chip) (x : OutageTable) : (c.setOutages x).drawn = c.drawn := rfl
@[simp] theorem Chip.setClock_part (c : Chip) (x : Clock) : (c.setClock x).part = c.part := rfl
@[simp] theorem Chip.setClock_path (c : Chip) (x : Clock) : (c.setClock x).path = c.path := rfl
@[simp] theorem Chip.setClock_engine (c : Chip) (x : Clock) : (c.setClock x).engine = c.engine := rfl
@[simp] theorem Chip.setClock_lineUp (c : Chip) (x : Clock) : (c.setClock x).lineUp = c.lineUp := rfl
@[simp] theorem Chip.setClock_subs (c : Chip) (x : Clock) : (c.setClock x).subs = c.subs := rfl
@[simp] theorem Chip.setClock_store (c : Chip) (x : Clock) : (c.setClock x).store = c.store := rfl
@[simp] theorem Chip.setClock_ports (c : Chip) (x : Clock) : (c.setClock x).ports = c.ports := rfl
@[simp] theorem Chip.setClock_sweep (c : Chip) (x : Clock) : (c.setClock x).sweep = c.sweep := rfl
@[simp] theorem Chip.setClock_branches (c : Chip) (x : Clock) : (c.setClock x).branches = c.branches := rfl
@[simp] theorem Chip.setClock_elements (c : Chip) (x : Clock) : (c.setClock x).elements = c.elements := rfl
@[simp] theorem Chip.setClock_plant (c : Chip) (x : Clock) : (c.setClock x).plant = c.plant := rfl
@[simp] theorem Chip.setClock_rack (c : Chip) (x : Clock) : (c.setClock x).rack = c.rack := rfl
@[simp] theorem Chip.setClock_sources (c : Chip) (x : Clock) : (c.setClock x).sources = c.sources := rfl
@[simp] theorem Chip.setClock_outages (c : Chip) (x : Clock) : (c.setClock x).outages = c.outages := rfl
@[simp] theorem Chip.setClock_clock (c : Chip) (x : Clock) : (c.setClock x).clock = x := rfl
@[simp] theorem Chip.setClock_pass (c : Chip) (x : Clock) : (c.setClock x).pass = c.pass := rfl
@[simp] theorem Chip.setClock_orders (c : Chip) (x : Clock) : (c.setClock x).orders = c.orders := rfl
@[simp] theorem Chip.setClock_journal (c : Chip) (x : Clock) : (c.setClock x).journal = c.journal := rfl
@[simp] theorem Chip.setClock_drawn (c : Chip) (x : Clock) : (c.setClock x).drawn = c.drawn := rfl
@[simp] theorem Chip.setPass_part (c : Chip) (x : Pass) : (c.setPass x).part = c.part := rfl
@[simp] theorem Chip.setPass_path (c : Chip) (x : Pass) : (c.setPass x).path = c.path := rfl
@[simp] theorem Chip.setPass_engine (c : Chip) (x : Pass) : (c.setPass x).engine = c.engine := rfl
@[simp] theorem Chip.setPass_lineUp (c : Chip) (x : Pass) : (c.setPass x).lineUp = c.lineUp := rfl
@[simp] theorem Chip.setPass_subs (c : Chip) (x : Pass) : (c.setPass x).subs = c.subs := rfl
@[simp] theorem Chip.setPass_store (c : Chip) (x : Pass) : (c.setPass x).store = c.store := rfl
@[simp] theorem Chip.setPass_ports (c : Chip) (x : Pass) : (c.setPass x).ports = c.ports := rfl
@[simp] theorem Chip.setPass_sweep (c : Chip) (x : Pass) : (c.setPass x).sweep = c.sweep := rfl
@[simp] theorem Chip.setPass_branches (c : Chip) (x : Pass) : (c.setPass x).branches = c.branches := rfl
@[simp] theorem Chip.setPass_elements (c : Chip) (x : Pass) : (c.setPass x).elements = c.elements := rfl
@[simp] theorem Chip.setPass_plant (c : Chip) (x : Pass) : (c.setPass x).plant = c.plant := rfl
@[simp] theorem Chip.setPass_rack (c : Chip) (x : Pass) : (c.setPass x).rack = c.rack := rfl
@[simp] theorem Chip.setPass_sources (c : Chip) (x : Pass) : (c.setPass x).sources = c.sources := rfl
@[simp] theorem Chip.setPass_outages (c : Chip) (x : Pass) : (c.setPass x).outages = c.outages := rfl
@[simp] theorem Chip.setPass_clock (c : Chip) (x : Pass) : (c.setPass x).clock = c.clock := rfl
@[simp] theorem Chip.setPass_pass (c : Chip) (x : Pass) : (c.setPass x).pass = x := rfl
@[simp] theorem Chip.setPass_orders (c : Chip) (x : Pass) : (c.setPass x).orders = c.orders := rfl
@[simp] theorem Chip.setPass_journal (c : Chip) (x : Pass) : (c.setPass x).journal = c.journal := rfl
@[simp] theorem Chip.setPass_drawn (c : Chip) (x : Pass) : (c.setPass x).drawn = c.drawn := rfl
@[simp] theorem Chip.setOrders_part (c : Chip) (x : OrderTaker) : (c.setOrders x).part = c.part := rfl
@[simp] theorem Chip.setOrders_path (c : Chip) (x : OrderTaker) : (c.setOrders x).path = c.path := rfl
@[simp] theorem Chip.setOrders_engine (c : Chip) (x : OrderTaker) : (c.setOrders x).engine = c.engine := rfl
@[simp] theorem Chip.setOrders_lineUp (c : Chip) (x : OrderTaker) : (c.setOrders x).lineUp = c.lineUp := rfl
@[simp] theorem Chip.setOrders_subs (c : Chip) (x : OrderTaker) : (c.setOrders x).subs = c.subs := rfl
@[simp] theorem Chip.setOrders_store (c : Chip) (x : OrderTaker) : (c.setOrders x).store = c.store := rfl
@[simp] theorem Chip.setOrders_ports (c : Chip) (x : OrderTaker) : (c.setOrders x).ports = c.ports := rfl
@[simp] theorem Chip.setOrders_sweep (c : Chip) (x : OrderTaker) : (c.setOrders x).sweep = c.sweep := rfl
@[simp] theorem Chip.setOrders_branches (c : Chip) (x : OrderTaker) : (c.setOrders x).branches = c.branches := rfl
@[simp] theorem Chip.setOrders_elements (c : Chip) (x : OrderTaker) : (c.setOrders x).elements = c.elements := rfl
@[simp] theorem Chip.setOrders_plant (c : Chip) (x : OrderTaker) : (c.setOrders x).plant = c.plant := rfl
@[simp] theorem Chip.setOrders_rack (c : Chip) (x : OrderTaker) : (c.setOrders x).rack = c.rack := rfl
@[simp] theorem Chip.setOrders_sources (c : Chip) (x : OrderTaker) : (c.setOrders x).sources = c.sources := rfl
@[simp] theorem Chip.setOrders_outages (c : Chip) (x : OrderTaker) : (c.setOrders x).outages = c.outages := rfl
@[simp] theorem Chip.setOrders_clock (c : Chip) (x : OrderTaker) : (c.setOrders x).clock = c.clock := rfl
@[simp] theorem Chip.setOrders_pass (c : Chip) (x : OrderTaker) : (c.setOrders x).pass = c.pass := rfl
@[simp] theorem Chip.setOrders_orders (c : Chip) (x : OrderTaker) : (c.setOrders x).orders = x := rfl
@[simp] theorem Chip.setOrders_journal (c : Chip) (x : OrderTaker) : (c.setOrders x).journal = c.journal := rfl
@[simp] theorem Chip.setOrders_drawn (c : Chip) (x : OrderTaker) : (c.setOrders x).drawn = c.drawn := rfl
@[simp] theorem Chip.setJournal_part (c : Chip) (x : Journal) : (c.setJournal x).part = c.part := rfl
@[simp] theorem Chip.setJournal_path (c : Chip) (x : Journal) : (c.setJournal x).path = c.path := rfl
@[simp] theorem Chip.setJournal_engine (c : Chip) (x : Journal) : (c.setJournal x).engine = c.engine := rfl
@[simp] theorem Chip.setJournal_lineUp (c : Chip) (x : Journal) : (c.setJournal x).lineUp = c.lineUp := rfl
@[simp] theorem Chip.setJournal_subs (c : Chip) (x : Journal) : (c.setJournal x).subs = c.subs := rfl
@[simp] theorem Chip.setJournal_store (c : Chip) (x : Journal) : (c.setJournal x).store = c.store := rfl
@[simp] theorem Chip.setJournal_ports (c : Chip) (x : Journal) : (c.setJournal x).ports = c.ports := rfl
@[simp] theorem Chip.setJournal_sweep (c : Chip) (x : Journal) : (c.setJournal x).sweep = c.sweep := rfl
@[simp] theorem Chip.setJournal_branches (c : Chip) (x : Journal) : (c.setJournal x).branches = c.branches := rfl
@[simp] theorem Chip.setJournal_elements (c : Chip) (x : Journal) : (c.setJournal x).elements = c.elements := rfl
@[simp] theorem Chip.setJournal_plant (c : Chip) (x : Journal) : (c.setJournal x).plant = c.plant := rfl
@[simp] theorem Chip.setJournal_rack (c : Chip) (x : Journal) : (c.setJournal x).rack = c.rack := rfl
@[simp] theorem Chip.setJournal_sources (c : Chip) (x : Journal) : (c.setJournal x).sources = c.sources := rfl
@[simp] theorem Chip.setJournal_outages (c : Chip) (x : Journal) : (c.setJournal x).outages = c.outages := rfl
@[simp] theorem Chip.setJournal_clock (c : Chip) (x : Journal) : (c.setJournal x).clock = c.clock := rfl
@[simp] theorem Chip.setJournal_pass (c : Chip) (x : Journal) : (c.setJournal x).pass = c.pass := rfl
@[simp] theorem Chip.setJournal_orders (c : Chip) (x : Journal) : (c.setJournal x).orders = c.orders := rfl
@[simp] theorem Chip.setJournal_journal (c : Chip) (x : Journal) : (c.setJournal x).journal = x := rfl
@[simp] theorem Chip.setJournal_drawn (c : Chip) (x : Journal) : (c.setJournal x).drawn = c.drawn := rfl
@[simp] theorem Chip.setDrawn_part (c : Chip) (x : Nat) : (c.setDrawn x).part = c.part := rfl
@[simp] theorem Chip.setDrawn_path (c : Chip) (x : Nat) : (c.setDrawn x).path = c.path := rfl
@[simp] theorem Chip.setDrawn_engine (c : Chip) (x : Nat) : (c.setDrawn x).engine = c.engine := rfl
@[simp] theorem Chip.setDrawn_lineUp (c : Chip) (x : Nat) : (c.setDrawn x).lineUp = c.lineUp := rfl
@[simp] theorem Chip.setDrawn_subs (c : Chip) (x : Nat) : (c.setDrawn x).subs = c.subs := rfl
@[simp] theorem Chip.setDrawn_store (c : Chip) (x : Nat) : (c.setDrawn x).store = c.store := rfl
@[simp] theorem Chip.setDrawn_ports (c : Chip) (x : Nat) : (c.setDrawn x).ports = c.ports := rfl
@[simp] theorem Chip.setDrawn_sweep (c : Chip) (x : Nat) : (c.setDrawn x).sweep = c.sweep := rfl
@[simp] theorem Chip.setDrawn_branches (c : Chip) (x : Nat) : (c.setDrawn x).branches = c.branches := rfl
@[simp] theorem Chip.setDrawn_elements (c : Chip) (x : Nat) : (c.setDrawn x).elements = c.elements := rfl
@[simp] theorem Chip.setDrawn_plant (c : Chip) (x : Nat) : (c.setDrawn x).plant = c.plant := rfl
@[simp] theorem Chip.setDrawn_rack (c : Chip) (x : Nat) : (c.setDrawn x).rack = c.rack := rfl
@[simp] theorem Chip.setDrawn_sources (c : Chip) (x : Nat) : (c.setDrawn x).sources = c.sources := rfl
@[simp] theorem Chip.setDrawn_outages (c : Chip) (x : Nat) : (c.setDrawn x).outages = c.outages := rfl
@[simp] theorem Chip.setDrawn_clock (c : Chip) (x : Nat) : (c.setDrawn x).clock = c.clock := rfl
@[simp] theorem Chip.setDrawn_pass (c : Chip) (x : Nat) : (c.setDrawn x).pass = c.pass := rfl
@[simp] theorem Chip.setDrawn_orders (c : Chip) (x : Nat) : (c.setDrawn x).orders = c.orders := rfl
@[simp] theorem Chip.setDrawn_journal (c : Chip) (x : Nat) : (c.setDrawn x).journal = c.journal := rfl
@[simp] theorem Chip.setDrawn_drawn (c : Chip) (x : Nat) : (c.setDrawn x).drawn = x := rfl
@[simp] theorem State.setChip_chip (s : State) (x : Chip) : (s.setChip x).chip = x := rfl
@[simp] theorem State.setChip_array (s : State) (x : Chip) : (s.setChip x).array = s.array := rfl
@[simp] theorem State.setChip_lines (s : State) (x : Chip) : (s.setChip x).lines = s.lines := rfl
@[simp] theorem State.setChip_pending (s : State) (x : Chip) : (s.setChip x).pending = s.pending := rfl
@[simp] theorem State.setArray_chip (s : State) (x : Memory) : (s.setArray x).chip = s.chip := rfl
@[simp] theorem State.setArray_array (s : State) (x : Memory) : (s.setArray x).array = x := rfl
@[simp] theorem State.setArray_lines (s : State) (x : Memory) : (s.setArray x).lines = s.lines := rfl
@[simp] theorem State.setArray_pending (s : State) (x : Memory) : (s.setArray x).pending = s.pending := rfl
@[simp] theorem State.setLines_chip (s : State) (x : Lines) : (s.setLines x).chip = s.chip := rfl
@[simp] theorem State.setLines_array (s : State) (x : Lines) : (s.setLines x).array = s.array := rfl
@[simp] theorem State.setLines_lines (s : State) (x : Lines) : (s.setLines x).lines = x := rfl
@[simp] theorem State.setLines_pending (s : State) (x : Lines) : (s.setLines x).pending = s.pending := rfl
@[simp] theorem State.onChip_chip (s : State) (f : Chip → Chip) : (s.onChip f).chip = f s.chip := rfl
@[simp] theorem State.onChip_array (s : State) (f : Chip → Chip) : (s.onChip f).array = s.array := rfl
@[simp] theorem State.onChip_lines (s : State) (f : Chip → Chip) : (s.onChip f).lines = s.lines := rfl
@[simp] theorem State.onChip_pending (s : State) (f : Chip → Chip) : (s.onChip f).pending = s.pending := rfl

end Sys2Proof.Machine
end

