-- ==== Sys2Proof/Laws/Tables.lean ====
section
/-! SUPPORT. The laws of tables of records, of their updates, and of loops over indices. -/

namespace Sys2Proof.Machine

@[simp] theorem vget_vupd_same {α : Type} {n : Nat} [Inhabited α] (v : Vector α n) (i : Nat) (f : α → α) (h : i < n) :
    vget (vupd v i f) i = f (vget v i) := by
  simp [vget, vupd, h]

@[simp] theorem vget_vupd_other {α : Type} {n : Nat} [Inhabited α] (v : Vector α n) (i j : Nat) (f : α → α)
    (h : j ≠ i) : vget (vupd v i f) j = vget v j := by
  unfold vget vupd
  split
  · next hi => simp [Ne.symm h]
  · rfl

/-- A record of an updated table. -/
theorem vget_vupd {α : Type} {n : Nat} [Inhabited α] (v : Vector α n) (i j : Nat) (f : α → α) (h : i < n) :
    vget (vupd v i f) j = if j = i then f (vget v j) else vget v j := by
  split
  · next e => subst e; exact vget_vupd_same v j f h
  · next e => exact vget_vupd_other v i j f e

@[simp] theorem vget_replicate {α : Type} {n : Nat} [Inhabited α] (x : α) (i : Nat) (h : i < n) :
    vget (Vector.replicate n x) i = x := by
  simp [vget, Vector.getElem?_eq_getElem h]

/-- Two tables that agree at every index are equal. -/
theorem vget_ext {α : Type} {n : Nat} [Inhabited α] {v w : Vector α n} (h : ∀ i, i < n → vget v i = vget w i) :
    v = w := by
  apply Vector.ext
  intro i hi
  have := h i hi
  simpa [vget, Vector.getElem?_eq_getElem hi] using this

/-- An update that changes nothing. -/
theorem vupd_id {α : Type} {n : Nat} [Inhabited α] (v : Vector α n) (i : Nat) (f : α → α) (h : f (vget v i) = vget v i) :
    vupd v i f = v := by
  by_cases hi : i < n
  · apply vget_ext
    intro j _
    rw [vget_vupd v i j f hi]
    split
    · next e => subst e; exact h
    · rfl
  · simp [vupd, hi]

@[simp] theorem forIndices_zero {α : Type} (f : α → Nat → α) (x : α) : forIndices 0 f x = x := rfl

theorem forIndices_succ {α : Type} (n : Nat) (f : α → Nat → α) (x : α) :
    forIndices (n + 1) f x = f (forIndices n f x) n := by
  simp [forIndices, List.range_succ]

/-- A projection that every step of a loop keeps is kept by the loop. -/
theorem forIndices_frame {α β : Type} (p : α → β) {f : α → Nat → α} (hf : ∀ y k, p (f y k) = p y) (n : Nat) (x : α) :
    p (forIndices n f x) = p x := by
  induction n with
  | zero => rfl
  | succ n ih => rw [forIndices_succ, hf, ih]

/-- A loop whose steps commute with a map commutes with it. -/
theorem forIndices_comm {α : Type} (g : α → α) {f : α → Nat → α} (hf : ∀ y k, f (g y) k = g (f y k)) (n : Nat) (x : α) :
    forIndices n f (g x) = g (forIndices n f x) := by
  induction n with
  | zero => rfl
  | succ n ih => rw [forIndices_succ, forIndices_succ, ih, hf]

/-! ### Records of the part -/

@[simp] theorem Chip.updLive_ports (c : Chip) (i : Nat) (f : Live → Live) : (c.updLive i f).ports = c.ports := rfl
@[simp] theorem Chip.updLive_store (c : Chip) (i : Nat) (f : Live → Live) : (c.updLive i f).store = c.store := rfl
@[simp] theorem Chip.updLive_clock (c : Chip) (i : Nat) (f : Live → Live) : (c.updLive i f).clock = c.clock := rfl
@[simp] theorem Chip.updLive_journal (c : Chip) (i : Nat) (f : Live → Live) : (c.updLive i f).journal = c.journal := rfl

/-- Everything a change of a live block does: the block, and the dirty mark when a field changes (R36). -/
theorem Chip.sub_updLive (c : Chip) (i : Nat) (f : Live → Live) (h : i < 2048) :
    (c.updLive i f).sub i =
      if f (c.sub i).live = (c.sub i).live then c.sub i
      else { c.sub i with live := f (c.sub i).live, dirty := true } :=
  vget_vupd_same _ _ _ h

/-- The other records stay. -/
theorem Chip.sub_updLive_other (c : Chip) (i j : Nat) (f : Live → Live) (h : j ≠ i) :
    (c.updLive i f).sub j = c.sub j := by
  simp only [Chip.updLive, Chip.updSub, Chip.sub, Chip.setSubs_subs, vget_vupd_other _ _ _ _ h]

end Sys2Proof.Machine
end

