-- ==== Sys2Proof/Laws/Settle.lean ====
section
/-! SUPPORT. What the selections at the end of an operation can do: they reach the ports, the branch and rack links,
the Order Taker and the request state, and nothing else. -/

namespace Sys2Proof.Machine

/-- The blocks that the selections never reach. -/
structure Fixed where
  part : Part
  path : MemPath
  lineUp : LineUpEngine
  subs : Vector Subscriber 2048
  store : Store
  sweep : Option Nat
  elements : Vector Element 640
  plant : Plant
  sources : Vector Source 32
  outages : OutageTable
  clock : Clock
  pass : Pass
  journal : Journal
  drawn : Nat

/-- The blocks of a part that the selections never reach. -/
def Chip.fixed (c : Chip) : Fixed :=
  { part := c.part, path := c.path, lineUp := c.lineUp, subs := c.subs, store := c.store, sweep := c.sweep
    elements := c.elements, plant := c.plant, sources := c.sources, outages := c.outages, clock := c.clock
    pass := c.pass, journal := c.journal, drawn := c.drawn }

theorem Chip.updBranch_fixed (c : Chip) (b : Nat) (f : Branch → Branch) : (c.updBranch b f).fixed = c.fixed := rfl
theorem Chip.updPort_fixed (c : Chip) (p : Nat) (f : Port → Port) : (c.updPort p f).fixed = c.fixed := rfl
theorem Chip.setRack_fixed (c : Chip) (x : Rack) : (c.setRack x).fixed = c.fixed := rfl
theorem Chip.setOrders_fixed (c : Chip) (x : OrderTaker) : (c.setOrders x).fixed = c.fixed := rfl
theorem Chip.setEngine_fixed (c : Chip) (x : Engine) : (c.setEngine x).fixed = c.fixed := rfl

theorem Chip.startLoad_fixed (c : Chip) (b p : Nat) : (c.startLoad b p).fixed = c.fixed := rfl
theorem Chip.startPoll_fixed (c : Chip) (b e : Nat) : (c.startPoll b e).fixed = c.fixed := rfl

theorem Chip.select_fixed (c : Chip) (b : Nat) : (c.select b).fixed = c.fixed := by
  unfold Chip.select
  dsimp only
  repeat' split
  all_goals rfl

theorem Chip.armBranch_fixed (c : Chip) (b : Nat) : (c.armBranch b).fixed = c.fixed := by
  unfold Chip.armBranch
  split
  · rfl
  · split
    · exact c.select_fixed b
    · split <;> rfl

theorem Chip.armBranches_fixed (c : Chip) : c.armBranches.fixed = c.fixed :=
  forIndices_frame Chip.fixed Chip.armBranch_fixed 4 c

theorem Chip.selectRack_fixed (c : Chip) : c.selectRack.fixed = c.fixed := by
  unfold Chip.selectRack
  dsimp only
  repeat' split
  all_goals rfl

theorem Chip.armRack_fixed (c : Chip) : c.armRack.fixed = c.fixed := by
  unfold Chip.armRack
  split
  · rfl
  · split
    · exact c.selectRack_fixed
    · split <;> rfl

theorem Chip.armOrders_fixed (c : Chip) : c.armOrders.fixed = c.fixed := by
  unfold Chip.armOrders
  split <;> rfl

theorem Chip.requestBus_fixed (c : Chip) : c.requestBus.fixed = c.fixed := by
  unfold Chip.requestBus
  split <;> rfl

/-- The selections keep every block but the ports, the links, the Order Taker and the engine. -/
theorem Chip.settle_fixed (c : Chip) : c.settle.fixed = c.fixed := by
  unfold Chip.settle
  rw [Chip.requestBus_fixed, Chip.armOrders_fixed, Chip.armRack_fixed, Chip.armBranches_fixed]

theorem Chip.fixed_part {c d : Chip} (h : d.fixed = c.fixed) : d.part = c.part := congrArg Fixed.part h
theorem Chip.fixed_path {c d : Chip} (h : d.fixed = c.fixed) : d.path = c.path := congrArg Fixed.path h
theorem Chip.fixed_lineUp {c d : Chip} (h : d.fixed = c.fixed) : d.lineUp = c.lineUp := congrArg Fixed.lineUp h
theorem Chip.fixed_subs {c d : Chip} (h : d.fixed = c.fixed) : d.subs = c.subs := congrArg Fixed.subs h
theorem Chip.fixed_store {c d : Chip} (h : d.fixed = c.fixed) : d.store = c.store := congrArg Fixed.store h
theorem Chip.fixed_sweep {c d : Chip} (h : d.fixed = c.fixed) : d.sweep = c.sweep := congrArg Fixed.sweep h
theorem Chip.fixed_elements {c d : Chip} (h : d.fixed = c.fixed) : d.elements = c.elements := congrArg Fixed.elements h
theorem Chip.fixed_plant {c d : Chip} (h : d.fixed = c.fixed) : d.plant = c.plant := congrArg Fixed.plant h
theorem Chip.fixed_sources {c d : Chip} (h : d.fixed = c.fixed) : d.sources = c.sources := congrArg Fixed.sources h
theorem Chip.fixed_outages {c d : Chip} (h : d.fixed = c.fixed) : d.outages = c.outages := congrArg Fixed.outages h
theorem Chip.fixed_clock {c d : Chip} (h : d.fixed = c.fixed) : d.clock = c.clock := congrArg Fixed.clock h
theorem Chip.fixed_pass {c d : Chip} (h : d.fixed = c.fixed) : d.pass = c.pass := congrArg Fixed.pass h
theorem Chip.fixed_journal {c d : Chip} (h : d.fixed = c.fixed) : d.journal = c.journal := congrArg Fixed.journal h
theorem Chip.fixed_drawn {c d : Chip} (h : d.fixed = c.fixed) : d.drawn = c.drawn := congrArg Fixed.drawn h

@[simp] theorem Chip.settle_part (c : Chip) : c.settle.part = c.part := Chip.fixed_part c.settle_fixed
@[simp] theorem Chip.settle_path (c : Chip) : c.settle.path = c.path := Chip.fixed_path c.settle_fixed
@[simp] theorem Chip.settle_lineUp (c : Chip) : c.settle.lineUp = c.lineUp := Chip.fixed_lineUp c.settle_fixed
@[simp] theorem Chip.settle_subs (c : Chip) : c.settle.subs = c.subs := Chip.fixed_subs c.settle_fixed
@[simp] theorem Chip.settle_store (c : Chip) : c.settle.store = c.store := Chip.fixed_store c.settle_fixed
@[simp] theorem Chip.settle_sweep (c : Chip) : c.settle.sweep = c.sweep := Chip.fixed_sweep c.settle_fixed
@[simp] theorem Chip.settle_elements (c : Chip) : c.settle.elements = c.elements :=
  Chip.fixed_elements c.settle_fixed
@[simp] theorem Chip.settle_plant (c : Chip) : c.settle.plant = c.plant := Chip.fixed_plant c.settle_fixed
@[simp] theorem Chip.settle_sources (c : Chip) : c.settle.sources = c.sources := Chip.fixed_sources c.settle_fixed
@[simp] theorem Chip.settle_outages (c : Chip) : c.settle.outages = c.outages := Chip.fixed_outages c.settle_fixed
@[simp] theorem Chip.settle_clock (c : Chip) : c.settle.clock = c.clock := Chip.fixed_clock c.settle_fixed
@[simp] theorem Chip.settle_pass (c : Chip) : c.settle.pass = c.pass := Chip.fixed_pass c.settle_fixed
@[simp] theorem Chip.settle_journal (c : Chip) : c.settle.journal = c.journal := Chip.fixed_journal c.settle_fixed
@[simp] theorem Chip.settle_drawn (c : Chip) : c.settle.drawn = c.drawn := Chip.fixed_drawn c.settle_fixed

/-! ### The parts of a settled part -/

theorem Chip.requestBus_rack (c : Chip) : c.requestBus.rack = c.rack := by unfold Chip.requestBus; split <;> rfl
theorem Chip.armOrders_rack (c : Chip) : c.armOrders.rack = c.rack := by unfold Chip.armOrders; split <;> rfl

theorem Chip.settle_rack (c : Chip) : c.settle.rack = c.armBranches.armRack.rack := by
  unfold Chip.settle
  rw [Chip.requestBus_rack, Chip.armOrders_rack]

theorem Chip.requestBus_orders (c : Chip) : c.requestBus.orders = c.orders := by unfold Chip.requestBus; split <;> rfl

theorem Chip.settle_orders (c : Chip) : c.settle.orders = c.armBranches.armRack.armOrders.orders :=
  Chip.requestBus_orders _

theorem Chip.armOrders_head (c : Chip) : c.armOrders.orders.head = c.orders.head := by
  unfold Chip.armOrders; split <;> rfl
theorem Chip.armOrders_tail (c : Chip) : c.armOrders.orders.tail = c.orders.tail := by
  unfold Chip.armOrders; split <;> rfl
theorem Chip.armOrders_outcomes (c : Chip) : c.armOrders.orders.outcomes = c.orders.outcomes := by
  unfold Chip.armOrders; split <;> rfl
theorem Chip.armOrders_done (c : Chip) : c.armOrders.orders.done = c.orders.done := by
  unfold Chip.armOrders; split <;> rfl
theorem Chip.armOrders_refused (c : Chip) : c.armOrders.orders.refused = c.orders.refused := by
  unfold Chip.armOrders; split <;> rfl
theorem Chip.armOrders_mirror (c : Chip) : c.armOrders.orders.mirror = c.orders.mirror := by
  unfold Chip.armOrders; split <;> rfl

theorem Chip.select_orders (c : Chip) (b : Nat) : (c.select b).orders = c.orders := by
  unfold Chip.select
  dsimp only
  repeat' split
  all_goals rfl

theorem Chip.armBranch_orders (c : Chip) (b : Nat) : (c.armBranch b).orders = c.orders := by
  unfold Chip.armBranch
  split
  · rfl
  · split
    · exact c.select_orders b
    · split <;> rfl

theorem Chip.armBranches_orders (c : Chip) : c.armBranches.orders = c.orders :=
  forIndices_frame Chip.orders Chip.armBranch_orders 4 c

theorem Chip.armRack_orders (c : Chip) : c.armRack.orders = c.orders := by
  unfold Chip.armRack Chip.selectRack
  dsimp only
  repeat' split
  all_goals rfl

@[simp] theorem Chip.settle_orders_head (c : Chip) : c.settle.orders.head = c.orders.head := by
  rw [Chip.settle_orders, Chip.armOrders_head, Chip.armRack_orders, Chip.armBranches_orders]
@[simp] theorem Chip.settle_orders_tail (c : Chip) : c.settle.orders.tail = c.orders.tail := by
  rw [Chip.settle_orders, Chip.armOrders_tail, Chip.armRack_orders, Chip.armBranches_orders]
@[simp] theorem Chip.settle_orders_outcomes (c : Chip) : c.settle.orders.outcomes = c.orders.outcomes := by
  rw [Chip.settle_orders, Chip.armOrders_outcomes, Chip.armRack_orders, Chip.armBranches_orders]
@[simp] theorem Chip.settle_orders_done (c : Chip) : c.settle.orders.done = c.orders.done := by
  rw [Chip.settle_orders, Chip.armOrders_done, Chip.armRack_orders, Chip.armBranches_orders]
@[simp] theorem Chip.settle_orders_refused (c : Chip) : c.settle.orders.refused = c.orders.refused := by
  rw [Chip.settle_orders, Chip.armOrders_refused, Chip.armRack_orders, Chip.armBranches_orders]
@[simp] theorem Chip.settle_orders_mirror (c : Chip) : c.settle.orders.mirror = c.orders.mirror := by
  rw [Chip.settle_orders, Chip.armOrders_mirror, Chip.armRack_orders, Chip.armBranches_orders]

/-- A branch link with an exchange in its holding stage selects nothing. -/
theorem Chip.armBranch_held (c : Chip) (b : Nat) (h : (c.branch b).hold.isSome = true) : c.armBranch b = c := by
  simp [Chip.armBranch, h]

/-- A rack link with an exchange in its holding stage selects nothing. -/
theorem Chip.armRack_held (c : Chip) (h : c.rack.hold.isSome = true) : c.armRack = c := by simp [Chip.armRack, h]

/-- An operation ends with the selections. -/
theorem State.act_chip (s : State) (f : Chip → Chip) : (s.act f).chip = (f s.chip).settle := by
  simp only [State.act, State.onChip_chip]

/-- Where the part does not stand ready for it, an operation changes nothing (log 2). -/
theorem State.actIf_idle {s : State} {ready : Chip → Bool} (h : ready s.chip = false) (f : Chip → Chip) :
    s.actIf ready f = s := by simp [State.actIf, h]

/-- Where the part stands ready for it, an operation is made. -/
theorem State.actIf_ready {s : State} {ready : Chip → Bool} (h : ready s.chip = true) (f : Chip → Chip) :
    s.actIf ready f = s.act f := by simp [State.actIf, h]

@[simp] theorem State.actIf_array (s : State) (r : Chip → Bool) (f : Chip → Chip) : (s.actIf r f).array = s.array := by
  unfold State.actIf State.act; split <;> simp
@[simp] theorem State.actIf_lines (s : State) (r : Chip → Bool) (f : Chip → Chip) : (s.actIf r f).lines = s.lines := by
  unfold State.actIf State.act; split <;> simp
@[simp] theorem State.actIf_pending (s : State) (r : Chip → Bool) (f : Chip → Chip) :
    (s.actIf r f).pending = s.pending := by unfold State.actIf State.act; split <;> simp

/-! ### A part with nothing to select -/

theorem Chip.armBranch_quiet (c : Chip) (b : Nat) (h : c.quietBranch b = true) : c.armBranch b = c := by
  unfold Chip.quietBranch at h
  unfold Chip.armBranch
  cases h1 : (c.branch b).hold.isSome
  · simp only [h1, Bool.false_or, Bool.or_eq_true, Bool.and_eq_true, Bool.not_eq_true', beq_iff_eq,
      List.isEmpty_iff] at h
    obtain ⟨h2, h3⟩ | ⟨⟨⟨h2, h3⟩, h4⟩, h5⟩ := h
    · simp [h2, h3]
    · have e : c.updBranch b (fun r => { r with link := .idle }) = c := by
        unfold Chip.updBranch
        rw [vupd_id _ _ _ (by rw [← h3]; rfl)]
        rfl
      simp [h2, Chip.select, h4, h5, e]
  · simp

/-- A part with nothing to select is as the selections leave it. -/
theorem Chip.settle_quiet (c : Chip) (h : c.quiet = true) : c.settle = c := by
  unfold Chip.quiet at h
  simp only [Bool.and_eq_true, List.all_eq_true, List.mem_range] at h
  obtain ⟨⟨⟨hb, hr⟩, ho⟩, hq⟩ := h
  unfold Chip.quietRack at hr
  unfold Chip.quietOrders at ho
  unfold Chip.quietEngine at hq
  have h1 : c.armBranches = c := by
    unfold Chip.armBranches
    simp only [forIndices_succ, forIndices_zero, Chip.armBranch_quiet c _ (hb _ (by omega : 0 < 4)),
      Chip.armBranch_quiet c _ (hb _ (by omega : 1 < 4)), Chip.armBranch_quiet c _ (hb _ (by omega : 2 < 4)),
      Chip.armBranch_quiet c _ (hb _ (by omega : 3 < 4))]
  have h2 : c.armRack = c := by
    unfold Chip.armRack
    cases h : c.rack.hold.isSome
    · simp only [h, Bool.false_or, Bool.and_eq_true, Bool.not_eq_true', beq_iff_eq] at hr
      simp [hr.1, hr.2]
    · simp
  have h3 : c.armOrders = c := by
    unfold Chip.armOrders
    have : (c.running && c.orders.work.isNone && c.orders.head != c.orders.tail) = false := by
      cases hw : c.orders.work <;> cases hc : c.running <;>
        simp_all
    simp [this]
  have h4 : c.requestBus = c := by
    unfold Chip.requestBus
    refine if_neg ?_
    rintro ⟨a, b, d, e⟩
    simp [a, b, d, e] at hq
  unfold Chip.settle
  rw [h1, h2, h3, h4]

end Sys2Proof.Machine
end

