-- ==== Sys2Proof/Laws/Reach.lean ====
section
/-! SUPPORT. Which blocks each shared operation reaches: one lemma an operation, naming the blocks it may change; every
other block is as before it. -/

namespace Sys2Proof.Machine

/-- The blocks of the part, one for each field of its state. -/
inductive Block where
  | part | path | engine | lineUp | subs | store | ports | sweep | branches | elements | plant | rack | sources
  | outages | clock | pass | orders | journal | drawn
  deriving DecidableEq, Repr

/-- A block is the same in two parts. -/
def SameAt (c d : Chip) : Block → Prop
  | .part => d.part = c.part
  | .path => d.path = c.path
  | .engine => d.engine = c.engine
  | .lineUp => d.lineUp = c.lineUp
  | .subs => d.subs = c.subs
  | .store => d.store = c.store
  | .ports => d.ports = c.ports
  | .sweep => d.sweep = c.sweep
  | .branches => d.branches = c.branches
  | .elements => d.elements = c.elements
  | .plant => d.plant = c.plant
  | .rack => d.rack = c.rack
  | .sources => d.sources = c.sources
  | .outages => d.outages = c.outages
  | .clock => d.clock = c.clock
  | .pass => d.pass = c.pass
  | .orders => d.orders = c.orders
  | .journal => d.journal = c.journal
  | .drawn => d.drawn = c.drawn

/-- Only the blocks of a list differ between two parts. To use it for a block: `h .journal (by decide)`. -/
def Reaches (bs : List Block) (c d : Chip) : Prop := ∀ b, b ∉ bs → SameAt c d b

/-- Does every block of one list stand in another? -/
def within (as bs : List Block) : Bool := as.all fun b => bs.contains b

theorem within_mem {as bs : List Block} (h : within as bs = true) {b : Block} (hb : b ∈ as) : b ∈ bs := by
  simp only [within, List.all_eq_true, List.contains_iff_mem] at h
  exact h b hb

theorem Reaches.same (bs : List Block) (c : Chip) : Reaches bs c c := by
  intro b _
  cases b <;> rfl

theorem SameAt.trans {c d e : Chip} {b : Block} (h : SameAt c d b) (h' : SameAt d e b) : SameAt c e b := by
  cases b <;> exact Eq.trans h' h

/-- One operation after another. -/
theorem Reaches.then {as as' bs : List Block} {c d e : Chip} (w : within (as ++ as') bs = true) (h : Reaches as c d)
    (h' : Reaches as' d e) : Reaches bs c e :=
  fun b hb => (h b fun m => hb (within_mem w (List.mem_append_left _ m))).trans
    (h' b fun m => hb (within_mem w (List.mem_append_right _ m)))

/-- The same reach with more blocks allowed. -/
theorem Reaches.wider {as bs : List Block} {c d : Chip} (w : within as bs = true) (h : Reaches as c d) :
    Reaches bs c d := fun b hb => h b fun m => hb (within_mem w m)

theorem within_right {as as' bs : List Block} (w : within (as ++ as') bs = true) : within as' bs = true :=
  (Bool.and_eq_true_iff.mp (List.all_append.symm.trans w)).2

/-- A loop reaches what its step reaches. -/
theorem forIndices_reaches {bs : List Block} {f : Chip → Nat → Chip} (hf : ∀ c k, Reaches bs c (f c k)) (n : Nat)
    (c : Chip) : Reaches bs c (forIndices n f c) := by
  induction n with
  | zero => exact .same bs c
  | succ n ih =>
    rw [forIndices_succ]
    exact fun b hb => (ih b hb).trans (hf _ n b hb)

/-- A choice reaches what its branches reach. -/
theorem Reaches.ite {bs : List Block} {c d e : Chip} {p : Prop} [Decidable p] (h : Reaches bs c d)
    (h' : Reaches bs c e) : Reaches bs c (if p then d else e) := by split <;> assumption

/-! ### The updates -/

theorem Chip.setPart_reaches (c : Chip) (x : Part) : Reaches [.part] c (c.setPart x) := by
  intro b hb; cases b <;> first | rfl | exact absurd List.mem_cons_self hb
theorem Chip.setPath_reaches (c : Chip) (x : MemPath) : Reaches [.path] c (c.setPath x) := by
  intro b hb; cases b <;> first | rfl | exact absurd List.mem_cons_self hb
theorem Chip.setEngine_reaches (c : Chip) (x : Engine) : Reaches [.engine] c (c.setEngine x) := by
  intro b hb; cases b <;> first | rfl | exact absurd List.mem_cons_self hb
theorem Chip.setLineUp_reaches (c : Chip) (x : LineUpEngine) : Reaches [.lineUp] c (c.setLineUp x) := by
  intro b hb; cases b <;> first | rfl | exact absurd List.mem_cons_self hb
theorem Chip.setSubs_reaches (c : Chip) (x : Vector Subscriber 2048) : Reaches [.subs] c (c.setSubs x) := by
  intro b hb; cases b <;> first | rfl | exact absurd List.mem_cons_self hb
theorem Chip.setStore_reaches (c : Chip) (x : Store) : Reaches [.store] c (c.setStore x) := by
  intro b hb; cases b <;> first | rfl | exact absurd List.mem_cons_self hb
theorem Chip.setPorts_reaches (c : Chip) (x : Vector Port 2560) : Reaches [.ports] c (c.setPorts x) := by
  intro b hb; cases b <;> first | rfl | exact absurd List.mem_cons_self hb
theorem Chip.setSweep_reaches (c : Chip) (x : Option Nat) : Reaches [.sweep] c (c.setSweep x) := by
  intro b hb; cases b <;> first | rfl | exact absurd List.mem_cons_self hb
theorem Chip.setBranches_reaches (c : Chip) (x : Vector Branch 4) : Reaches [.branches] c (c.setBranches x) := by
  intro b hb; cases b <;> first | rfl | exact absurd List.mem_cons_self hb
theorem Chip.setElements_reaches (c : Chip) (x : Vector Element 640) : Reaches [.elements] c (c.setElements x) := by
  intro b hb; cases b <;> first | rfl | exact absurd List.mem_cons_self hb
theorem Chip.setPlant_reaches (c : Chip) (x : Plant) : Reaches [.plant] c (c.setPlant x) := by
  intro b hb; cases b <;> first | rfl | exact absurd List.mem_cons_self hb
theorem Chip.setRack_reaches (c : Chip) (x : Rack) : Reaches [.rack] c (c.setRack x) := by
  intro b hb; cases b <;> first | rfl | exact absurd List.mem_cons_self hb
theorem Chip.setSources_reaches (c : Chip) (x : Vector Source 32) : Reaches [.sources] c (c.setSources x) := by
  intro b hb; cases b <;> first | rfl | exact absurd List.mem_cons_self hb
theorem Chip.setOutages_reaches (c : Chip) (x : OutageTable) : Reaches [.outages] c (c.setOutages x) := by
  intro b hb; cases b <;> first | rfl | exact absurd List.mem_cons_self hb
theorem Chip.setClock_reaches (c : Chip) (x : Clock) : Reaches [.clock] c (c.setClock x) := by
  intro b hb; cases b <;> first | rfl | exact absurd List.mem_cons_self hb
theorem Chip.setPass_reaches (c : Chip) (x : Pass) : Reaches [.pass] c (c.setPass x) := by
  intro b hb; cases b <;> first | rfl | exact absurd List.mem_cons_self hb
theorem Chip.setOrders_reaches (c : Chip) (x : OrderTaker) : Reaches [.orders] c (c.setOrders x) := by
  intro b hb; cases b <;> first | rfl | exact absurd List.mem_cons_self hb
theorem Chip.setJournal_reaches (c : Chip) (x : Journal) : Reaches [.journal] c (c.setJournal x) := by
  intro b hb; cases b <;> first | rfl | exact absurd List.mem_cons_self hb

theorem Chip.updSub_reaches (c : Chip) (i : Nat) (f : Subscriber → Subscriber) : Reaches [.subs] c (c.updSub i f) :=
  c.setSubs_reaches _
theorem Chip.updLive_reaches (c : Chip) (i : Nat) (f : Live → Live) : Reaches [.subs] c (c.updLive i f) :=
  c.setSubs_reaches _
theorem Chip.markDirty_reaches (c : Chip) (i : Nat) : Reaches [.subs] c (c.markDirty i) := c.setSubs_reaches _
theorem Chip.updPort_reaches (c : Chip) (p : Nat) (f : Port → Port) : Reaches [.ports] c (c.updPort p f) :=
  c.setPorts_reaches _
theorem Chip.updBranch_reaches (c : Chip) (b : Nat) (f : Branch → Branch) : Reaches [.branches] c (c.updBranch b f) :=
  c.setBranches_reaches _
theorem Chip.updElement_reaches (c : Chip) (e : Nat) (f : Element → Element) :
    Reaches [.elements] c (c.updElement e f) := c.setElements_reaches _
theorem Chip.updSup_reaches (c : Chip) (e : Nat) (f : SupRecord → SupRecord) : Reaches [.elements] c (c.updSup e f) :=
  c.setElements_reaches _
theorem Chip.updSource_reaches (c : Chip) (s : Nat) (f : Source → Source) : Reaches [.sources] c (c.updSource s f) :=
  c.setSources_reaches _
theorem Chip.updPoint_reaches (c : Chip) (q : Nat) (f : Crosspoint → Crosspoint) : Reaches [.rack] c (c.updPoint q f) :=
  c.setRack_reaches _

/-! ### The Journal Queue -/

theorem Chip.join_reaches (c : Chip) (e : Entry) : Reaches [.journal] c (c.join e) := c.setJournal_reaches _
theorem Chip.money_reaches (c : Chip) (e : Entry) : Reaches [.journal] c (c.money e) := by
  unfold Chip.money; exact .ite (c.join_reaches e) (.same _ c)
theorem Chip.notice_reaches (c : Chip) (e : Entry) : Reaches [.journal] c (c.notice e) := by
  unfold Chip.notice; exact .ite (c.join_reaches e) (c.setJournal_reaches _)
theorem Chip.noticeOf_reaches (c : Chip) (index : Nat) (body : EntryBody) : Reaches [.journal] c
    (c.noticeOf index body) :=
  c.notice_reaches _

/-- A money entry joins the tail when there is room for it, and nothing happens when there is none. -/
theorem Chip.money_queue (c : Chip) (e : Entry) :
    (c.money e).journal =
      if c.moneyRoom then
        { c.journal with queue := c.journal.queue ++ [{ entry := e, ring := 0, writing := false }] }
      else c.journal := by
  unfold Chip.money; split <;> rfl

/-- A notice joins the tail when there is room for it, and is counted dropped when there is none. -/
theorem Chip.notice_queue (c : Chip) (e : Entry) :
    (c.notice e).journal =
      if c.noticeRoom then
        { c.journal with queue := c.journal.queue ++ [{ entry := e, ring := 0, writing := false }] }
      else { c.journal with dropped := c.journal.dropped + 1 } := by
  unfold Chip.notice; split <;> rfl

/-- A money entry keeps the queue within its capacity. -/
theorem Chip.money_bounded (c : Chip) (e : Entry) (h : c.journal.queue.length ≤ Config.queueCapacity) :
    (c.money e).journal.queue.length ≤ Config.queueCapacity := by
  rw [c.money_queue e]
  split
  · next r =>
    have r1 : c.journal.queue.length < Config.queueCapacity := of_decide_eq_true r
    rw [List.length_append, List.length_singleton]
    omega
  · exact h

/-- A notice keeps the queue within its capacity. -/
theorem Chip.notice_bounded (c : Chip) (e : Entry) (h : c.journal.queue.length ≤ Config.queueCapacity) :
    (c.notice e).journal.queue.length ≤ Config.queueCapacity := by
  rw [c.notice_queue e]
  split
  · next r =>
    have r1 : c.journal.queue.length < Config.noticeLimit := of_decide_eq_true r
    have r3 : Config.noticeLimit ≤ Config.queueCapacity := by decide
    rw [List.length_append, List.length_singleton]
    omega
  · exact h

/-! ### The Billing Unit -/

/-- What the arithmetic of the bill reaches. -/
abbrev billBlocks : List Block := [.subs, .journal]

theorem Chip.saturate_reaches (c : Chip) (i : Nat) (w : Amount) (m : Option Nat) :
    Reaches billBlocks c (c.saturate i w m) := by
  unfold Chip.saturate
  exact .ite (.same _ c) ((c.updLive_reaches _ _).then (by rfl) (Chip.notice_reaches _ _))
theorem Chip.addTier_reaches (c : Chip) (i : Nat) (q : Int) (m : Option Nat) : Reaches billBlocks c (c.addTier i q m)
    := by
  unfold Chip.addTier
  exact .ite ((c.updLive_reaches _ _).wider (by rfl)) ((c.updLive_reaches _ _).then (by rfl)
      (Chip.saturate_reaches _ _ _ _))
theorem Chip.addEvent_reaches (c : Chip) (i : Nat) (x : Int) (m : Option Nat) :
    Reaches billBlocks c (c.addEvent i x m) := by
  unfold Chip.addEvent
  exact .ite ((c.updLive_reaches _ _).wider (by rfl)) ((c.updLive_reaches _ _).then (by rfl)
      (Chip.saturate_reaches _ _ _ _))
theorem Chip.accrue_reaches (c : Chip) (i : Nat) (n : Int) (m : Option Nat) : Reaches billBlocks c (c.accrue i n m) :=
  (c.updLive_reaches _ _).then (by rfl) (Chip.addTier_reaches _ _ _ _)
theorem Chip.billMinute_reaches (c : Chip) (i : Nat) (m : Option Nat) : Reaches billBlocks c (c.billMinute i m) :=
  (c.accrue_reaches _ _ _).then (by rfl) (Chip.markDirty_reaches _ _)
theorem Chip.holdMinute_reaches (c : Chip) (i m : Nat) : Reaches billBlocks c (c.holdMinute i m) := by
  unfold Chip.holdMinute
  exact .ite ((c.updLive_reaches _ _).wider (by rfl)) ((c.updLive_reaches _ _).then (by rfl)
      (Chip.saturate_reaches _ _ _ _))
theorem Chip.clearHeld_reaches (c : Chip) (i : Nat) : Reaches [.subs] c (c.clearHeld i) := c.updLive_reaches _ _
theorem Chip.credit_reaches (c : Chip) (i : Nat) (m : Option Nat) : Reaches billBlocks c (c.credit i m) :=
  (c.money_reaches _).then (by rfl) (Chip.clearHeld_reaches _ _)
theorem Chip.backCharge_reaches (c : Chip) (i : Nat) (m : Option Nat) : Reaches billBlocks c (c.backCharge i m) :=
  (c.accrue_reaches _ _ _).then (by rfl) (Chip.clearHeld_reaches _ _)
theorem Chip.resolveHeld_reaches (c : Chip) (i : Nat) (m : Option Nat) : Reaches billBlocks c (c.resolveHeld i m) := by
  unfold Chip.resolveHeld; exact .ite (c.credit_reaches _ _) (c.backCharge_reaches _ _)
theorem Chip.closeOnTouch_reaches (c : Chip) (i : Nat) (m : Option Nat) : Reaches billBlocks c (c.closeOnTouch i m) :=
  (c.money_reaches _).then (by rfl) (Chip.updLive_reaches _ _ _)
theorem Chip.closeIfStale_reaches (c : Chip) (i : Nat) (m : Option Nat) : Reaches billBlocks c (c.closeIfStale i m) := by
  unfold Chip.closeIfStale; exact .ite (c.closeOnTouch_reaches _ _) (.same _ c)
theorem Chip.resolveOff_reaches (c : Chip) (i : Nat) : Reaches billBlocks c (c.resolveOff i) := by
  unfold Chip.resolveOff
  refine .ite (.same _ c) (.ite ?_ (.same _ c))
  exact (c.closeIfStale_reaches i _).then (by rfl) (Chip.resolveHeld_reaches _ _ _)
theorem Chip.charge_reaches (c : Chip) (i : Nat) (p : Purchase) (m : Option Nat) :
    Reaches billBlocks c (c.charge i p m) := (c.addEvent_reaches _ _ _).then (by rfl) (Chip.money_reaches _ _)
theorem Chip.refund_reaches (c : Chip) (i : Nat) (p : Purchase) (m : Option Nat) :
    Reaches billBlocks c (c.refund i p m) := (c.addEvent_reaches _ _ _).then (by rfl) (Chip.money_reaches _ _)
theorem Chip.lapsed_reaches (c : Chip) (i : Nat) (p : Purchase) (m : Option Nat) :
    Reaches [.journal] c (c.lapsed i p m) := c.notice_reaches _

/-! ### The Port Table -/

/-- What a port's condition and its owner's summary reach. -/
abbrev portBlocks : List Block := [.subs, .ports, .branches]

theorem Chip.makeDirty_reaches (c : Chip) (p : Nat) : Reaches [.ports, .branches] c (c.makeDirty p) :=
  (c.updPort_reaches _ _).then (by rfl) (Chip.updBranch_reaches _ _ _)
theorem Chip.offDirty_reaches (c : Chip) (p : Nat) : Reaches [.branches] c (c.offDirty p) :=
  forIndices_reaches (fun c b => c.updBranch_reaches b _) 4 c
theorem Chip.setCondition_reaches (c : Chip) (p : Nat) (k : PortCondition) : Reaches [.ports] c (c.setCondition p k) :=
  c.updPort_reaches _ _
theorem Chip.testPort_reaches (c : Chip) (p : Nat) : Reaches [.ports, .branches] c (c.testPort p) := by
  unfold Chip.testPort
  split
  · exact .ite (c.makeDirty_reaches p) (.same _ c)
  · exact .ite (.same _ c) ((c.offDirty_reaches p).then (by rfl) (Chip.setCondition_reaches _ _ _))
  all_goals exact .same _ c
theorem Chip.copySummary_reaches (c : Chip) (p : Nat) : Reaches [.subs] c (c.copySummary p) := by
  unfold Chip.copySummary
  dsimp only
  split
  · exact .same _ c
  · exact c.updLive_reaches _ _
theorem Chip.dropSummary_reaches (c : Chip) (i : Nat) : Reaches [.subs] c (c.dropSummary i) := c.updLive_reaches _ _
theorem Chip.leaveStuck_reaches (c : Chip) (p : Nat) : Reaches portBlocks c (c.leaveStuck p) :=
  ((c.updPort_reaches _ _).then (by rfl) (Chip.testPort_reaches _ _) (bs := portBlocks)).then (by rfl)
      (Chip.copySummary_reaches _ _)
theorem Chip.recompute_reaches (c : Chip) (p : Nat) : Reaches portBlocks c (c.recompute p) := by
  unfold Chip.recompute
  refine .ite (.same _ c) (.ite ?_ ?_)
  · exact (c.updPort_reaches _ _).then (by rfl) (Chip.leaveStuck_reaches _ _)
  · exact (c.updPort_reaches _ _).then (by rfl) (Chip.testPort_reaches _ _)
theorem Chip.recomputeOwned_reaches (c : Chip) (i : Nat) : Reaches portBlocks c (c.recomputeOwned i) := by
  unfold Chip.recomputeOwned
  split
  · exact c.recompute_reaches _
  · exact .same _ c
theorem Chip.recomputeZones_reaches (c : Chip) (zs : ZoneSet) : Reaches portBlocks c (c.recomputeZones zs) := by
  unfold Chip.recomputeZones
  refine .ite (.same _ c) (forIndices_reaches (fun c p => ?_) _ c)
  split
  · exact .ite (c.recompute_reaches p) (.same _ c)
  · exact .same _ c
theorem Chip.unconfirm_reaches (c : Chip) (p : Nat) : Reaches portBlocks c (c.unconfirm p) :=
  (c.updPort_reaches _ _).then (by rfl) (Chip.copySummary_reaches _ _)
theorem Chip.doubtPort_reaches (c : Chip) (p : Nat) : Reaches portBlocks c (c.doubtPort p) := by
  unfold Chip.doubtPort
  split
  · exact (c.unconfirm_reaches p).then (by rfl) (Chip.makeDirty_reaches _ _)
  · exact (c.updPort_reaches _ _).then (by rfl) (Chip.leaveStuck_reaches _ _)
  all_goals exact c.unconfirm_reaches p
theorem Chip.eachPort_reaches {bs : List Block} {f : Chip → Nat → Chip} (hf : ∀ c p, Reaches bs c (f c p)) (c : Chip)
    (e : Nat) : Reaches bs c (c.eachPort e f) := forIndices_reaches (fun c k => hf c (e * 4 + k)) 4 c
theorem Chip.parkPort_reaches (c : Chip) (p : Nat) : Reaches portBlocks c (c.parkPort p) := by
  unfold Chip.parkPort
  split
  · exact (c.setCondition_reaches p _).wider (by rfl)
  · exact (c.offDirty_reaches p).then (by rfl) (Chip.setCondition_reaches _ _ _)
  · exact (c.setCondition_reaches p _).then (by rfl) (Chip.copySummary_reaches _ _)
  all_goals exact .same _ c
theorem Chip.parkElement_reaches (c : Chip) (e : Nat) : Reaches portBlocks c (c.parkElement e) :=
  Chip.eachPort_reaches Chip.parkPort_reaches c e
theorem Chip.unparkPort_reaches (c : Chip) (p : Nat) : Reaches portBlocks c (c.unparkPort p) := by
  have h := (c.updPort_reaches p fun r => { r with confirmed := false, mismatch := 0 }).then (by rfl)
    (Chip.copySummary_reaches _ p) (bs := portBlocks)
  unfold Chip.unparkPort
  dsimp only
  split
  · exact h
  · exact h.then (by rfl) (Chip.makeDirty_reaches _ _)
  · exact h.then (by rfl) (Chip.makeDirty_reaches _ _)
  · exact h.then (by rfl) (Chip.makeDirty_reaches _ _)
  · exact (h.then (by rfl) (Chip.makeDirty_reaches _ _) (bs := portBlocks)).then (by rfl) (Chip.copySummary_reaches _ _)
theorem Chip.unparkElement_reaches (c : Chip) (e : Nat) : Reaches portBlocks c (c.unparkElement e) := by
  unfold Chip.unparkElement
  exact .ite (Chip.eachPort_reaches Chip.unparkPort_reaches c e) (.same _ c)

/-- What a report of a tap reaches. -/
abbrev reportBlocks : List Block := [.subs, .ports, .branches, .journal]

theorem Chip.report_reaches (c : Chip) (p : Nat) (st : PortState) : Reaches reportBlocks c (c.report p st) := by
  unfold Chip.report
  split
  · exact .same _ c
  · next i _ =>
    dsimp only
    split
    · split
      · exact (c.copySummary_reaches p).wider (by rfl)
      · exact ((c.copySummary_reaches p).then (by rfl) (Chip.updLive_reaches _ _ _) (bs := portBlocks)).then (by rfl)
          (Chip.recomputeOwned_reaches _ _)
    · exact .ite ((c.copySummary_reaches p).then (by rfl) (Chip.resolveOff_reaches _ _))
          ((c.copySummary_reaches p).wider (by rfl))
theorem Chip.portStuck_reaches (c : Chip) (p : Nat) (st : PortState) : Reaches [.journal] c (c.portStuck p st) :=
  c.noticeOf_reaches _ _
theorem Chip.settleAnswered_reaches (c : Chip) (p : Nat) (st : PortState) :
    Reaches reportBlocks c (c.settleAnswered p st) := by
  unfold Chip.settleAnswered
  dsimp only
  have h := c.updPort_reaches p fun r =>
    { r with applied := st, confirmed := true, sent := none
             mismatch := mismatchAfter (c.port p).sent st (c.port p).mismatch }
  refine Reaches.then (as := reportBlocks) (by rfl) (.ite (.ite ?_ ?_) ?_) (Chip.report_reaches _ _ _)
  · exact (h.then (by rfl) (Chip.setCondition_reaches _ _ _) (bs := reportBlocks)).then (by rfl)
        (Chip.testPort_reaches _ _)
  · exact (h.then (by rfl) (Chip.setCondition_reaches _ _ _) (bs := reportBlocks)).then (by rfl)
        (Chip.portStuck_reaches _ _ _)
  · exact h.then (by rfl) (Chip.setCondition_reaches _ _ _)
theorem Chip.settleUnanswered_reaches (c : Chip) (p : Nat) : Reaches portBlocks c (c.settleUnanswered p) := by
  unfold Chip.settleUnanswered
  dsimp only
  have h := c.updPort_reaches p fun r => { r with confirmed := false, sent := none }
  refine Reaches.then (as := portBlocks) (by rfl) (.ite ?_ ?_) (Chip.copySummary_reaches _ _)
  · exact h.then (by rfl) (Chip.makeDirty_reaches _ _)
  · exact h.then (by rfl) (Chip.setCondition_reaches _ _ _)

/-! ### The Outage Table -/

/-- What a record's opening or closing reaches: the table, the marks and the journal. -/
abbrev outageBlocks : List Block := [.outages, .elements, .journal]

theorem Chip.setMark_reaches (c : Chip) (k : OutageKind) (o : Nat) (m : Option Mark) :
    Reaches [.outages, .elements] c (c.setMark k o m) := by
  unfold Chip.setMark
  split
  · exact (c.updElement_reaches _ _).wider (by rfl)
  · exact (c.setOutages_reaches _).wider (by rfl)
theorem Chip.appendRecord_reaches (c : Chip) (l : List Outage) (o : Opening) :
    Reaches outageBlocks c (c.appendRecord l o) := (c.setOutages_reaches _).then (by rfl) (Chip.noticeOf_reaches _ _ _)
theorem Chip.openNow_reaches (c : Chip) (o : Opening) : Reaches outageBlocks c (c.openNow o) := by
  unfold Chip.openNow
  refine .ite ?_ (.ite ?_ (.ite (.same _ c) ?_))
  · exact (c.setMark_reaches _ _ _).then (by rfl) (Chip.appendRecord_reaches _ _ _)
  · exact (c.setMark_reaches _ _ _).then (by rfl) (Chip.appendRecord_reaches _ _ _)
  · exact (c.setMark_reaches _ _ _).then (by rfl) (Chip.noticeOf_reaches _ _ _)
theorem Chip.openRequest_reaches (c : Chip) (o : Opening) : Reaches outageBlocks c (c.openRequest o) := by
  unfold Chip.openRequest
  exact .ite ((c.setOutages_reaches _).wider (by rfl)) (c.openNow_reaches o)
theorem Chip.serveMarked_reaches (c : Chip) : Reaches outageBlocks c c.serveMarked := by
  unfold Chip.serveMarked
  split
  · exact c.openNow_reaches _
  · exact .same _ c
theorem Chip.updRecord_reaches (c : Chip) (id : Byte) (f : Outage → Outage) : Reaches [.outages] c (c.updRecord id f) :=
  c.setOutages_reaches _
theorem Chip.freeRecord_reaches (c : Chip) (id : Byte) : Reaches [.outages] c (c.freeRecord id) :=
    c.setOutages_reaches _
theorem Chip.openWaiting_reaches (c : Chip) (k : OutageKind) (o : Nat) : Reaches outageBlocks c (c.openWaiting k o) :=
    by
  unfold Chip.openWaiting
  dsimp only
  split
  · exact .same _ c
  · exact .ite ((c.setOutages_reaches _).then (by rfl) (Chip.openNow_reaches _ _)) ((c.setOutages_reaches _).wider
        (by rfl))
theorem Chip.recordClosed_reaches (c : Chip) (r : Outage) : Reaches outageBlocks c (c.recordClosed r) := by
  unfold Chip.recordClosed
  have h : Reaches [.outages] c
      (if r.acknowledged then c.freeRecord r.id else c.updRecord r.id fun x => { x with state := .closed }) :=
    .ite (c.freeRecord_reaches _) (c.updRecord_reaches _ _)
  exact (h.then (by rfl) (Chip.serveMarked_reaches _) (bs := outageBlocks)).then (by rfl)
      (Chip.openWaiting_reaches _ _ _)
theorem Chip.closeRecord_reaches (c : Chip) (r : Outage) (k : CloseCause) :
    Reaches outageBlocks c (c.closeRecord r k) := by
  unfold Chip.closeRecord
  have h := (c.updRecord_reaches r.id fun x => { x with state := .closing, stop := c.now, cause := k }).then (by rfl)
    (Chip.noticeOf_reaches _ r.object (.outageClosed r.id r.kind r.start c.now k)) (bs := outageBlocks)
  exact .ite h (h.then (by rfl) (Chip.recordClosed_reaches _ _))
theorem Chip.noticeWritten_reaches (c : Chip) (e : Entry) : Reaches outageBlocks c (c.noticeWritten e) := by
  unfold Chip.noticeWritten
  split
  · split
    · exact c.recordClosed_reaches _
    · exact .same _ c
  · exact .same _ c
theorem Chip.closeOf_reaches (c : Chip) (k : OutageKind) (o : Nat) (p : OutageState → Bool) (w : CloseCause) :
    Reaches outageBlocks c (c.closeOf k o p w) := by
  unfold Chip.closeOf
  split
  · exact c.closeRecord_reaches _ _
  · exact .same _ c

/-! ### The links' selections -/

theorem Chip.startExchange_reaches (c : Chip) (b e : Nat) (p : Option Nat) (l : List Byte) :
    Reaches [.branches] c (c.startExchange b e p l) := c.updBranch_reaches _ _
theorem Chip.startLoad_reaches (c : Chip) (b p : Nat) : Reaches [.ports, .branches] c (c.startLoad b p) := by
  unfold Chip.startLoad
  exact ((c.updPort_reaches _ _).then (by rfl) (Chip.updBranch_reaches _ _ _) (bs := [.ports, .branches])).then (by rfl)
    (Chip.startExchange_reaches _ _ _ _ _)
theorem Chip.startPoll_reaches (c : Chip) (b e : Nat) : Reaches [.branches] c (c.startPoll b e) :=
  c.startExchange_reaches _ _ _ _
theorem Chip.select_reaches (c : Chip) (b : Nat) : Reaches [.ports, .branches] c (c.select b) := by
  have h0 := c.updBranch_reaches b fun r => { r with run := 0 }
  have hp : Reaches [.ports, .branches] c
      (match (c.branch b).repoll with
      | e :: rest =>
        ((c.updBranch b fun r => { r with run := 0 }).updBranch b fun r => { r with repoll := rest }).startPoll b e
      | [] =>
        match c.cursorNext b with
        | some e =>
          ((c.updBranch b fun r => { r with run := 0 }).updBranch b fun r => { r with cursor := some e }).startPoll b e
        | none => c.updBranch b fun r => { r with run := 0 }) := by
    split
    · exact (h0.then (by rfl) (Chip.updBranch_reaches _ _ _) (bs := [.branches])).then (by rfl)
          (Chip.startPoll_reaches _ _ _)
    · split
      · exact (h0.then (by rfl) (Chip.updBranch_reaches _ _ _) (bs := [.branches])).then (by rfl)
            (Chip.startPoll_reaches _ _ _)
      · exact h0.wider (by rfl)
  unfold Chip.select
  dsimp only
  split
  · exact .ite (c.startLoad_reaches b _) hp
  · exact .ite hp ((c.updBranch_reaches _ _).wider (by rfl))
theorem Chip.armBranch_reaches (c : Chip) (b : Nat) : Reaches [.ports, .branches] c (c.armBranch b) := by
  unfold Chip.armBranch
  exact .ite (.same _ c) (.ite (c.select_reaches b) (.ite (.same _ c) ((c.updBranch_reaches _ _).wider (by rfl))))
theorem Chip.armBranches_reaches (c : Chip) : Reaches [.ports, .branches] c c.armBranches :=
  forIndices_reaches Chip.armBranch_reaches 4 c
theorem Chip.repollAppend_reaches (c : Chip) (e : Nat) : Reaches [.branches] c (c.repollAppend e) :=
  c.updBranch_reaches _ _
theorem Chip.offRepoll_reaches (c : Chip) (e : Nat) : Reaches [.branches] c (c.offRepoll e) :=
  forIndices_reaches (fun c b => c.updBranch_reaches b _) 4 c
theorem Chip.selectRack_reaches (c : Chip) : Reaches [.rack] c c.selectRack := by
  have hs : ∀ (d : Chip) (j : RackJob), Reaches [.rack] d (d.startRack j) := fun d j => d.setRack_reaches _
  unfold Chip.selectRack
  dsimp only
  repeat' split
  all_goals exact (c.setRack_reaches _).then (by rfl) (hs _ _)
theorem Chip.armRack_reaches (c : Chip) : Reaches [.rack] c c.armRack := by
  unfold Chip.armRack
  exact .ite (.same _ c) (.ite c.selectRack_reaches (.ite (.same _ c) (c.setRack_reaches _)))
theorem Chip.armOrders_reaches (c : Chip) : Reaches [.orders] c c.armOrders := by
  unfold Chip.armOrders
  exact .ite (c.setOrders_reaches _) (.same _ c)
theorem Chip.requestBus_reaches (c : Chip) : Reaches [.engine] c c.requestBus := by
  unfold Chip.requestBus
  exact .ite (c.setEngine_reaches _) (.same _ c)

/-- What the selections at the end of an operation reach. -/
abbrev settleBlocks : List Block := [.ports, .branches, .rack, .orders, .engine]

theorem Chip.settle_reaches (c : Chip) : Reaches settleBlocks c c.settle :=
  ((c.armBranches_reaches.then (by rfl) (Chip.armRack_reaches _) (bs := settleBlocks)).then (by rfl)
      (Chip.armOrders_reaches _)
    (bs := settleBlocks)).then (by rfl) (Chip.requestBus_reaches _)

end Sys2Proof.Machine
end

