-- ==== Sys2Proof/Laws/ReachUnits.lean ====
section
/-! SUPPORT. Which blocks the operations of supervision, sources, line-up, clock, pass, takes and orders reach. -/

namespace Sys2Proof.Machine

/-! ### Supervision -/

/-- What a state change of an element reaches. -/
abbrev unitBlocks : List Block := [.subs, .ports, .branches, .elements, .outages, .journal]

theorem Chip.suppress_reaches (c : Chip) (x : Nat) : Reaches unitBlocks c (c.suppress x) := by
  have h : Reaches unitBlocks c
      (((c.updSup x fun r => { r with state := .suppressed, answered := 0, unanswered :=
          0 }).offRepoll x).parkElement x) :=
    ((c.updSup_reaches _ _).then (by rfl) (Chip.offRepoll_reaches _ _) (bs := unitBlocks)).then (by rfl)
        (Chip.parkElement_reaches _ _)
  unfold Chip.suppress
  dsimp only
  split
  · exact h.then (by rfl) (Chip.updRecord_reaches _ _ _)
  · exact h
theorem Chip.freshen_reaches (c : Chip) (x : Nat) : Reaches [.elements, .branches] c (c.freshen x) :=
  (c.updSup_reaches _ _).then (by rfl) (Chip.repollAppend_reaches _ _)
theorem Chip.recordFailure_reaches (c : Chip) (e : Nat) (m : Option Nat) :
    Reaches outageBlocks c (c.recordFailure e m) := by
  unfold Chip.recordFailure
  split
  · exact (c.updRecord_reaches _ _).wider (by rfl)
  · split <;> exact c.openRequest_reaches _
theorem Chip.suppressBelow_reaches (c : Chip) (e : Nat) : Reaches unitBlocks c (c.suppressBelow e) :=
  forIndices_reaches (fun c x => .ite (c.suppress_reaches x) (.same _ c)) 640 c
theorem Chip.failElement_reaches (c : Chip) (e : Nat) (m : Option Nat) : Reaches unitBlocks c (c.failElement e m) := by
  have h : Reaches unitBlocks c
      ((((c.updSup e fun r => { r with state := .failing, failure := m }).parkElement e).suppressBelow e).recordFailure
        e m) :=
    (((c.updSup_reaches _ _).then (by rfl) (Chip.parkElement_reaches _ _) (bs := unitBlocks)).then (by rfl)
      (Chip.suppressBelow_reaches _ _) (bs := unitBlocks)).then (by rfl) (Chip.recordFailure_reaches _ _ _)
  unfold Chip.failElement
  exact .ite (h.then (by rfl) (Chip.updBranch_reaches _ _ _)) h
theorem Chip.enterAnswering_reaches (c : Chip) (e : Nat) : Reaches [.elements, .outages] c (c.enterAnswering e) :=
  (c.updSup_reaches _ _).then (by rfl) (Chip.setMark_reaches _ _ _ _)
theorem Chip.verifyElement_reaches (c : Chip) (e : Nat) : Reaches unitBlocks c (c.verifyElement e) :=
  ((c.enterAnswering_reaches e).then (by rfl) (Chip.unparkElement_reaches _ _) (bs := unitBlocks)).then (by rfl)
    (Chip.closeOf_reaches _ _ _ _ _)
theorem Chip.releaseBelow_reaches (c : Chip) (e : Nat) : Reaches [.elements, .branches] c (c.releaseBelow e) :=
  forIndices_reaches (fun c x => .ite (c.freshen_reaches x) (.same _ c)) 640 c
theorem Chip.recoverElement_reaches (c : Chip) (e : Nat) : Reaches unitBlocks c (c.recoverElement e) :=
  (((c.enterAnswering_reaches e).then (by rfl) (Chip.closeOf_reaches _ _ _ _ _) (bs := unitBlocks)).then (by rfl)
    (Chip.releaseBelow_reaches _ _) (bs := unitBlocks)).then (by rfl) (Chip.unparkElement_reaches _ _)
theorem Chip.decideState_reaches (c : Chip) (e : Nat) (a j : Bool) : Reaches unitBlocks c (c.decideState e a j) := by
  unfold Chip.decideState
  dsimp only
  split
  · exact .same _ c
  · exact .ite (c.recoverElement_reaches e) (.same _ c)
  · exact .ite (c.failElement_reaches e _) (.ite (c.verifyElement_reaches e) (.same _ c))
  · exact .ite (c.failElement_reaches e _) (.ite (c.failElement_reaches e _) (.same _ c))
theorem Chip.superviseResult_reaches (c : Chip) (e : Nat) (a : Bool) (l : Option Nat) :
    Reaches unitBlocks c (c.superviseResult e a l) := by
  unfold Chip.superviseResult
  exact .ite ((c.updSup_reaches _ _).wider (by rfl)) ((c.updSup_reaches _ _).then (by rfl)
      (Chip.decideState_reaches _ _ _ _))
theorem Chip.handCarrier_reaches (c : Chip) (b : Nat) (k : Carrier) : Reaches unitBlocks c (c.handCarrier b k) := by
  unfold Chip.handCarrier
  split
  · exact c.verifyElement_reaches b
  · exact c.recoverElement_reaches b
  · exact c.failElement_reaches b _
  · exact c.failElement_reaches b _
  · exact .same _ c
theorem Chip.handCarriers_reaches (c : Chip) : Reaches unitBlocks c c.handCarriers :=
  forIndices_reaches (fun c b => .ite (c.handCarrier_reaches b _) (.same _ c)) 4 c
theorem Chip.heardUnit_reaches (c : Chip) (e : Nat) (n : Byte) : Reaches [.elements] c (c.heardUnit e n) :=
  c.updElement_reaches _ _
theorem Chip.unitReport_reaches (c : Chip) (e : Nat) (f n : Byte) : Reaches unitBlocks c (c.unitReport e f n) := by
  unfold Chip.unitReport
  have h : Reaches portBlocks c (if c.unitReports e f n then c.eachPort e Chip.doubtPort else c) :=
    .ite (Chip.eachPort_reaches Chip.doubtPort_reaches c e) (.same _ c)
  exact h.then (by rfl) (Chip.heardUnit_reaches _ _ _)
theorem Chip.settleLoad_reaches (c : Chip) (e p : Nat) (r : Option (List Byte)) :
    Reaches unitBlocks c (c.settleLoad e p r) := by
  unfold Chip.settleLoad
  split
  · exact (c.settleAnswered_reaches _ _).then (by rfl) (Chip.heardUnit_reaches _ _ _)
  · exact (c.settleUnanswered_reaches _).then (by rfl) (Chip.updElement_reaches _ _ _)
theorem Chip.settlePoll_reaches (c : Chip) (e : Nat) (r : Option (List Byte)) :
    Reaches unitBlocks c (c.settlePoll e r) := by
  have h : ∀ pl : List Byte, Reaches unitBlocks c
      (if c.isTap e then c.unitReport e (payloadByte pl 1) (payloadByte pl 2) else c) := fun pl =>
    .ite (c.unitReport_reaches _ _ _) (.same _ c)
  cases r with
  | none => exact .ite ((c.repollAppend_reaches _).wider (by rfl)) (.same _ c)
  | some pl => exact .ite ((h pl).then (by rfl) (Chip.repollAppend_reaches _ _)) (h pl)
theorem Chip.handResult_reaches (c : Chip) (x : Exchange) (r : Option (List Byte)) :
    Reaches unitBlocks c (c.handResult x r) := by
  unfold Chip.handResult
  split
  · exact (c.superviseResult_reaches _ _ _).then (by rfl) (Chip.settleLoad_reaches _ _ _ _)
  · exact (c.superviseResult_reaches _ _ _).then (by rfl) (Chip.settlePoll_reaches _ _ _)
theorem Chip.endExchange_reaches (c : Chip) (b : Nat) (r : Option (List Byte)) :
    Reaches unitBlocks c (c.endExchange b r) := by
  unfold Chip.endExchange
  split
  · exact .same _ c
  · next x _ =>
    have h := c.updBranch_reaches b fun k =>
      { k with exchanges := k.exchanges + 1, unanswered := if r.isSome then k.unanswered else k.unanswered + 1 }
    dsimp only
    refine Reaches.then (as := unitBlocks) (by rfl) ?_ (Chip.armBranch_reaches _ _)
    exact Reaches.then (as := unitBlocks) (by rfl) (.ite (h.wider (by rfl)) (h.then (by rfl)
        (Chip.handResult_reaches _ _ _)))
      (Chip.updBranch_reaches _ _ _)
theorem Chip.branchReceives_reaches (c : Chip) (b : Nat) (l : List Byte) :
    Reaches unitBlocks c (c.branchReceives b l) := by
  unfold Chip.branchReceives
  split
  · exact .same _ c
  · dsimp only
    refine .ite (.same _ c) ?_
    split
    · exact (c.updBranch_reaches _ _).then (by rfl) (Chip.endExchange_reaches _ _ _)
    · exact (c.updBranch_reaches _ _).wider (by rfl)
theorem Chip.windowCloses_reaches (c : Chip) (b : Nat) : Reaches unitBlocks c (c.windowCloses b) := by
  unfold Chip.windowCloses
  split
  · exact .same _ c
  · exact .ite ((c.updBranch_reaches _ _).wider (by rfl)) (c.endExchange_reaches _ _)
theorem Chip.carrierChanges_reaches (c : Chip) (b : Nat) (k : Carrier) (v : Bool) :
    Reaches unitBlocks c (c.carrierChanges b k v) := by
  unfold Chip.carrierChanges
  exact .ite ((c.updBranch_reaches _ _).then (by rfl) (Chip.handCarrier_reaches _ _ _))
      ((c.updBranch_reaches _ _).wider (by rfl))

/-! ### The rack link and the sources -/

theorem Chip.markPoint_reaches (c : Chip) (q : Nat) : Reaches [.rack] c (c.markPoint q) :=
  (c.updPoint_reaches _ _).then (by rfl) (Chip.setRack_reaches _ _)
theorem Chip.idlePoint_reaches (c : Chip) (q : Nat) : Reaches [.rack] c (c.idlePoint q) :=
  (c.updPoint_reaches _ _).then (by rfl) (Chip.setRack_reaches _ _)
theorem Chip.testPoint_reaches (c : Chip) (q : Nat) : Reaches [.rack] c (c.testPoint q) := by
  unfold Chip.testPoint; exact .ite (c.markPoint_reaches q) (c.idlePoint_reaches q)
theorem Chip.clearMismatch_reaches (c : Chip) (q : Nat) : Reaches [.rack] c (c.clearMismatch q) :=
  c.updPoint_reaches _ _
theorem Chip.offerPoint_reaches (c : Chip) (q : Nat) (v : Bool) : Reaches [.rack] c (c.offerPoint q v) := by
  unfold Chip.offerPoint
  split
  · exact c.testPoint_reaches q
  · exact .ite (.same _ c) (c.idlePoint_reaches q)
  · exact .same _ c
  · exact .ite ((c.clearMismatch_reaches q).then (by rfl) (Chip.testPoint_reaches _ _)) (.same _ c)
theorem Chip.withdrawPoint_reaches (c : Chip) (q : Nat) : Reaches [.rack] c (c.withdrawPoint q) := by
  unfold Chip.withdrawPoint
  split
  · exact .same _ c
  · exact c.idlePoint_reaches q
  · exact .same _ c
  · exact (c.clearMismatch_reaches q).then (by rfl) (Chip.idlePoint_reaches _ _)

/-- What a recompute of an effective source reaches. -/
abbrev substBlocks : List Block := [.lineUp, .rack, .journal]

theorem Chip.setEffective_reaches (c : Chip) (q : Nat) (e : Effective) : Reaches [.lineUp] c (c.setEffective q e) :=
  c.setLineUp_reaches _
theorem Chip.substitution_reaches (c : Chip) (q : Nat) (a b : Effective) (k : SubstCause) :
    Reaches [.journal] c (c.substitution q a b k) := by
  unfold Chip.substitution; exact .ite (c.noticeOf_reaches _ _) (.same _ c)
theorem Chip.recomputeEffective_reaches (c : Chip) (k : SubstCause) (q : Nat) :
    Reaches substBlocks c (c.recomputeEffective k q) := by
  unfold Chip.recomputeEffective
  dsimp only
  have h := c.setEffective_reaches q (c.effectiveOf q)
  refine .ite (.ite (h.then (by rfl) (Chip.offerPoint_reaches _ _ _)) (h.wider (by rfl))) (.ite ?_ ?_)
  · exact (h.then (by rfl) (Chip.substitution_reaches _ _ _ _ _) (bs := substBlocks)).then (by rfl)
        (Chip.offerPoint_reaches _ _ _)
  · exact (h.then (by rfl) (Chip.substitution_reaches _ _ _ _ _) (bs := substBlocks)).then (by rfl)
        (Chip.withdrawPoint_reaches _ _)
theorem Chip.recomputeUsing_reaches (c : Chip) (s : Nat) : Reaches substBlocks c (c.recomputeUsing s) :=
  forIndices_reaches (fun c q => .ite (c.recomputeEffective_reaches _ q) (.same _ c)) 64 c

/-- What a source's outage reaches. -/
abbrev sourceBlocks : List Block := [.lineUp, .rack, .sources, .outages, .elements, .journal]

theorem Chip.sourceOpens_reaches (c : Chip) (s : Nat) (m : Option Nat) : Reaches sourceBlocks c (c.sourceOpens s m) :=
  (c.openRequest_reaches _).then (by rfl) (Chip.recomputeUsing_reaches _ _)
theorem Chip.sourceCloses_reaches (c : Chip) (s : Nat) : Reaches sourceBlocks c (c.sourceCloses s) :=
  ((c.setMark_reaches _ _ _).then (by rfl) (Chip.closeOf_reaches _ _ _ _ _) (bs := sourceBlocks)).then (by rfl)
    (Chip.recomputeUsing_reaches _ _)
theorem Chip.sampleSource_reaches (c : Chip) (s : Nat) (v : Byte) (u : Bool) :
    Reaches sourceBlocks c (c.sampleSource s v u) := by
  unfold Chip.sampleSource
  dsimp only
  have h := c.updSource_reaches s fun _ => (c.source s).sample (vget c.lineUp.current.sources s) v u c.now
  exact .ite (h.then (by rfl) (Chip.sourceOpens_reaches _ _ _)) (.ite (h.then (by rfl)
      (Chip.sourceCloses_reaches _ _)) (h.wider (by rfl)))
theorem Chip.settlePoint_reaches (c : Chip) (q s : Nat) (r : Option Nat) :
    Reaches [.rack, .journal] c (c.settlePoint q s r) := by
  unfold Chip.settlePoint
  dsimp only
  have h := c.updPoint_reaches q fun k => { k with confirmed := confirmedOf r }
  refine .ite ?_ (.ite ?_ (.ite ?_ ?_))
  · exact (h.then (by rfl) (Chip.clearMismatch_reaches _ _) (bs := [.rack])).then (by rfl) (Chip.testPoint_reaches _ _)
  · exact (h.then (by rfl) (Chip.clearMismatch_reaches _ _) (bs := [.rack])).then (by rfl) (Chip.idlePoint_reaches _ _)
  · exact (h.then (by rfl) (Chip.updPoint_reaches _ _ _) (bs := [.rack])).then (by rfl) (Chip.testPoint_reaches _ _)
  · exact ((h.then (by rfl) (Chip.updPoint_reaches _ _ _) (bs := [.rack])).then (by rfl) (Chip.updPoint_reaches _ _ _)
      (bs := [.rack])).then (by rfl) (Chip.noticeOf_reaches _ _ _)
theorem Chip.loseSet_reaches (c : Chip) (q : Nat) : Reaches [.rack] c (c.loseSet q) := by
  unfold Chip.loseSet
  dsimp only
  have h := (c.updPoint_reaches q fun r => { r with confirmed := .unknown }).then (by rfl)
    (Chip.setRack_reaches _
      { (c.updPoint q fun r => { r with confirmed := .unknown }).rack with owed := true }) (bs := [.rack])
  exact .ite (h.then (by rfl) (Chip.markPoint_reaches _ _)) (h.then (by rfl) (Chip.idlePoint_reaches _ _))
theorem Chip.sampleGroup_reaches (c : Chip) (g : Nat) (r : Option (List Byte)) :
    Reaches sourceBlocks c (c.sampleGroup g r) := by
  unfold Chip.sampleGroup
  refine forIndices_reaches (fun c k => ?_) 4 c
  split <;> exact c.sampleSource_reaches _ _ _
theorem Chip.endRack_reaches (c : Chip) (r : Option (List Byte)) : Reaches sourceBlocks c (c.endRack r) := by
  unfold Chip.endRack
  split
  · exact .same _ c
  · next x _ =>
    have h := c.setRack_reaches
      { c.rack with
        exchanges := c.rack.exchanges + 1
        unanswered := if r.isSome then c.rack.unanswered else c.rack.unanswered + 1 }
    dsimp only
    refine Reaches.then (as := sourceBlocks) (by rfl) ?_ (Chip.armRack_reaches _)
    refine Reaches.then (as := sourceBlocks) (by rfl) ?_ (Chip.setRack_reaches _ _)
    split
    · split
      · exact h.then (by rfl) (Chip.settlePoint_reaches _ _ _ _)
      · exact h.then (by rfl) (Chip.loseSet_reaches _ _)
    · exact h.then (by rfl) (Chip.sampleGroup_reaches _ _ _)
theorem Chip.rackReceives_reaches (c : Chip) (l : List Byte) : Reaches sourceBlocks c (c.rackReceives l) := by
  unfold Chip.rackReceives
  split
  · exact .same _ c
  · dsimp only
    split
    · exact (c.setRack_reaches _).then (by rfl) (Chip.endRack_reaches _ _)
    · exact (c.setRack_reaches _).wider (by rfl)
theorem Chip.rackWindowCloses_reaches (c : Chip) : Reaches sourceBlocks c c.rackWindowCloses := by
  unfold Chip.rackWindowCloses
  split
  · exact .same _ c
  · exact .ite ((c.setRack_reaches _).wider (by rfl)) (c.endRack_reaches _)

/-! ### The line-up -/

theorem Chip.evaluateList_reaches (c : Chip) : Reaches [.lineUp] c c.evaluateList := c.setLineUp_reaches _
theorem Chip.evaluateBlackouts_reaches (c : Chip) :
    Reaches [.lineUp, .subs, .ports, .branches] c c.evaluateBlackouts :=
  c.evaluateList_reaches.then (by rfl) (Chip.recomputeZones_reaches _ _)
theorem Chip.takeSource_reaches (c : Chip) (old : Vector SourceSetting 32) (s : Nat) :
    Reaches sourceBlocks c (c.takeSource old s) := by
  unfold Chip.takeSource
  exact .ite (.same _ c) (.ite ((c.updSource_reaches _ _).then (by rfl) (Chip.sourceCloses_reaches _ _))
    ((c.updSource_reaches _ _).wider (by rfl)))

/-- What a line-up take reaches. -/
abbrev takeBlocks : List Block := [.lineUp, .rack, .sources, .outages, .elements, .journal, .sweep]

theorem Chip.takeLineUp_reaches (c : Chip) : Reaches takeBlocks c c.takeLineUp := by
  unfold Chip.takeLineUp
  dsimp only
  have h1 := c.setLineUp_reaches
    { c.lineUp with
      current := mirrorLineUp c.lineUp.mirror, gen := some (takeWord c.lineUp.mirror), outcome := .done }
  have h2 := h1.then (by rfl) (forIndices_reaches (fun d s => d.takeSource_reaches c.lineUp.current.sources s) 32 _)
    (bs := takeBlocks)
  have h3 := h2.then (by rfl) (forIndices_reaches (fun d q => d.recomputeEffective_reaches .take q) 64 _) (bs :=
      takeBlocks)
  have h4 := h3.then (by rfl) (Chip.evaluateList_reaches _) (bs := takeBlocks)
  exact .ite (h4.then (by rfl) (Chip.setSweep_reaches _ _)) h4
theorem Chip.tryLineUp_reaches (c : Chip) : Reaches takeBlocks c c.tryLineUp := by
  unfold Chip.tryLineUp
  split
  · exact (c.setLineUp_reaches _).wider (by rfl)
  · exact c.takeLineUp_reaches
theorem Chip.lineUpEvent_reaches (c : Chip) : Reaches takeBlocks c c.lineUpEvent := by
  unfold Chip.lineUpEvent
  exact .ite (.same _ c) (.ite ((c.setLineUp_reaches _).wider (by rfl)) c.tryLineUp_reaches)
theorem Chip.heldTake_reaches (c : Chip) : Reaches takeBlocks c c.heldTake := by
  unfold Chip.heldTake
  refine .ite ?_ (.same _ c)
  exact .ite ((c.setLineUp_reaches _).then (by rfl) (Chip.tryLineUp_reaches _))
    ((c.setLineUp_reaches _).then (by rfl) (Chip.setLineUp_reaches _ _))
theorem Chip.sweepStep_reaches (c : Chip) :
    Reaches [.subs, .ports, .branches, .lineUp, .rack, .sources, .outages, .elements, .journal, .sweep] c
      c.sweepStep := by
  unfold Chip.sweepStep
  split
  · exact .same _ c
  · refine .ite ((c.recompute_reaches _).then (by rfl) (Chip.setSweep_reaches _ _)) ?_
    exact ((c.recompute_reaches _).then (by rfl) (Chip.setSweep_reaches _ none)
      (bs := [.subs, .ports, .branches, .sweep])).then (by rfl) (Chip.heldTake_reaches _)

/-! ### The clock and the start of a pass -/

theorem Chip.queueCheckpoint_reaches (c : Chip) : Reaches [.engine] c c.queueCheckpoint := c.setEngine_reaches _

/-- What the start of a pass reaches. -/
abbrev startBlocks : List Block := [.clock, .pass, .store, .engine]

theorem Chip.startPass_reaches (c : Chip) : Reaches startBlocks c c.startPass := by
  unfold Chip.startPass
  dsimp only
  exact (((c.setClock_reaches _).then (by rfl) (Chip.setPass_reaches _ _) (bs := startBlocks)).then (by rfl)
      (Chip.setStore_reaches _ _)
    (bs := startBlocks)).then (by rfl) (Chip.queueCheckpoint_reaches _)
theorem Chip.passIfDue_reaches (c : Chip) : Reaches startBlocks c c.passIfDue := by
  unfold Chip.passIfDue; exact .ite c.startPass_reaches (.same _ c)
theorem Chip.takeMinute_reaches (c : Chip) : Reaches [.clock, .journal] c c.takeMinute := by
  unfold Chip.takeMinute
  exact .ite ((c.setClock_reaches _).wider (by rfl)) ((c.setClock_reaches _).then (by rfl)
      (Chip.noticeOf_reaches _ _ _))

/-- What a minute event reaches. -/
abbrev minuteBlocks : List Block := [.clock, .pass, .store, .engine, .lineUp, .subs, .ports, .branches, .journal]

theorem Chip.minuteEvent_reaches (c : Chip) : Reaches minuteBlocks c c.minuteEvent := by
  unfold Chip.minuteEvent Chip.raiseMinute
  have h1 := (c.setClock_reaches { c.clock with minute := c.clock.minute.map (· + 1) }).then (by rfl)
    (Chip.takeMinute_reaches _) (bs := minuteBlocks)
  have h2 := h1.then (by rfl) (Chip.evaluateBlackouts_reaches _) (bs := minuteBlocks)
  exact (h2.then (by rfl) (Chip.passIfDue_reaches _) (bs := minuteBlocks)).then (by rfl) (Chip.armBranches_reaches _)
theorem Chip.minuteEvents_reaches (c : Chip) (k : Nat) : Reaches minuteBlocks c (c.minuteEvents k) :=
  forIndices_reaches (fun c _ => c.minuteEvent_reaches) k c
theorem Chip.wrapSeconds_reaches (c : Chip) : Reaches minuteBlocks c c.wrapSeconds :=
  (c.setClock_reaches _).then (by rfl) (Chip.minuteEvent_reaches _)
theorem Chip.secondEdge_reaches (c : Chip) : Reaches minuteBlocks c c.secondEdge := by
  unfold Chip.secondEdge
  dsimp only
  refine .ite ((c.setClock_reaches _).then (by rfl) (Chip.setClock_reaches _ _)) (.ite ?_
      ((c.setClock_reaches _).wider (by rfl)))
  exact (c.setClock_reaches _).then (by rfl) (Chip.wrapSeconds_reaches _)
theorem Chip.loseSeconds_reaches (c : Chip) : Reaches [.clock, .journal] c c.loseSeconds :=
  (c.setClock_reaches _).then (by rfl) (Chip.noticeOf_reaches _ _ _)
theorem Chip.setFromUnset_reaches (c : Chip) (m s : Nat) : Reaches minuteBlocks c (c.setFromUnset m s) := by
  unfold Chip.setFromUnset
  exact ((c.setClock_reaches _).then (by rfl) (Chip.evaluateBlackouts_reaches _) (bs := minuteBlocks)).then (by rfl)
    (Chip.queueCheckpoint_reaches _)
theorem Chip.stepClock_reaches (c : Chip) (k s : Nat) : Reaches minuteBlocks c (c.stepClock k s) :=
  (c.setClock_reaches _).then (by rfl) (Chip.minuteEvents_reaches _ _)

/-! ### The visit of a record -/

theorem Chip.setPurchase_reaches (c : Chip) (i k : Nat) (f : Purchase → Purchase) :
    Reaches portBlocks c (c.setPurchase i k f) := (c.updLive_reaches _ _).then (by rfl)
        (Chip.recomputeOwned_reaches _ _)
theorem Chip.dropPurchase_reaches (c : Chip) (i k : Nat) : Reaches portBlocks c (c.dropPurchase i k) :=
  (c.updLive_reaches _ _).then (by rfl) (Chip.recomputeOwned_reaches _ _)
theorem Chip.chargeAt_reaches (c : Chip) (i k : Nat) (p : Purchase) (m : Nat) :
    Reaches reportBlocks c (c.chargeAt i k p m) := (c.charge_reaches _ _ _).then (by rfl)
        (Chip.setPurchase_reaches _ _ _ _)
theorem Chip.refundAt_reaches (c : Chip) (i k : Nat) (p : Purchase) (m : Nat) :
    Reaches reportBlocks c (c.refundAt i k p m) := (c.refund_reaches _ _ _).then (by rfl)
        (Chip.dropPurchase_reaches _ _ _)
theorem Chip.openWindow_reaches (c : Chip) (i k m : Nat) (p : Purchase) :
    Reaches portBlocks c (c.openWindow i k m p) := by
  unfold Chip.openWindow; exact .ite (c.setPurchase_reaches _ _ _) (.same _ c)

/-- A visit's work so far reaches only the blocks of a list. -/
abbrev Work.Reaches (bs : List Block) (c : Chip) (w : Work) : Prop := Machine.Reaches bs c w.chip

theorem Work.reaches_andThen {bs : List Block} {c : Chip} {w : Work} {f : Chip → Work} (h : Work.Reaches bs c w)
    (hf : ∀ d, Work.Reaches bs d (f d)) : Work.Reaches bs c (w.andThen f) := by
  unfold Work.andThen
  split
  · exact h
  · exact fun b hb => (h b hb).trans (hf _ b hb)
theorem Work.reaches_plain {bs : List Block} {c : Chip} {w : Work} {f : Chip → Chip} (h : Work.Reaches bs c w)
    (hf : ∀ d, Machine.Reaches bs d (f d)) : Work.Reaches bs c (w.plain f) := Work.reaches_andThen h hf

theorem Chip.stageClose_reaches (c : Chip) (i m : Nat) : Work.Reaches reportBlocks c (c.stageClose i m) := by
  unfold Chip.stageClose
  split
  · split
    · exact (c.closeOnTouch_reaches _ _).wider (by rfl)
    · exact .same _ c
  · exact .same _ c
theorem Chip.stageOwed_reaches (i m fuel k : Nat) (c : Chip) :
    Work.Reaches reportBlocks c (Chip.stageOwed i m fuel k c) := by
  induction fuel generalizing k c with
  | zero => exact .same _ c
  | succ fuel ih =>
    unfold Chip.stageOwed
    split
    · exact .same _ c
    · split
      · exact ih _ _
      · split
        · exact (c.chargeAt_reaches _ _ _ _).then (by rfl) (ih _ _)
        · exact .same _ c
theorem Chip.settleCharged_reaches (c : Chip) (i k m : Nat) (p : Purchase) :
    Work.Reaches reportBlocks c (c.settleCharged i k m p) := by
  unfold Chip.settleCharged
  split
  · split
    · exact c.refundAt_reaches _ _ _ _
    · exact .same _ c
  · exact (c.dropPurchase_reaches _ _).wider (by rfl)
theorem Chip.settlePurchase_reaches (c : Chip) (i k m : Nat) (p : Purchase) :
    Work.Reaches reportBlocks c (c.settlePurchase i k m p) := by
  unfold Chip.settlePurchase
  split
  · exact (c.dropPurchase_reaches _ _).wider (by rfl)
  · exact (c.lapsed_reaches _ _ _).then (by rfl) (Chip.dropPurchase_reaches _ _ _)
  · split
    · exact (c.chargeAt_reaches _ _ _ _).then (by rfl) (Chip.settleCharged_reaches _ _ _ _ _)
    · exact .same _ c
  · exact c.settleCharged_reaches _ _ _ _
theorem Chip.stageWindows_reaches (i m fuel k : Nat) (c : Chip) :
    Work.Reaches reportBlocks c (Chip.stageWindows i m fuel k c) := by
  induction fuel generalizing k c with
  | zero => exact .same _ c
  | succ fuel ih =>
    unfold Chip.stageWindows
    split
    · exact .same _ c
    · dsimp only
      split
      · exact Work.reaches_andThen ((c.openWindow_reaches _ _ _ _).then (by rfl)
            (Chip.settlePurchase_reaches _ _ _ _ _))
          fun d => ih _ d
      · exact (c.openWindow_reaches _ _ _ _).then (by rfl) (ih _ _)
theorem Chip.stageMinute_reaches (c : Chip) (i m : Nat) : Reaches reportBlocks c (c.stageMinute i m) := by
  unfold Chip.stageMinute
  exact .ite (.ite ((c.holdMinute_reaches _ _).wider (by rfl)) ((c.billMinute_reaches _ _).wider (by rfl))) (.same _ c)
theorem Chip.stageRun_reaches (c : Chip) (i m : Nat) : Work.Reaches reportBlocks c (c.stageRun i m) := by
  unfold Chip.stageRun
  split
  · exact .same _ c
  · split
    · split
      · exact (c.credit_reaches _ _).wider (by rfl)
      · exact .same _ c
    · exact (c.backCharge_reaches _ _).wider (by rfl)
theorem Chip.stageDark_reaches (c : Chip) (i m : Nat) : Reaches reportBlocks c (c.stageDark i m) :=
  ((c.updLive_reaches _ _).wider (by rfl))

/-- A visit reaches the subscribers, the ports with their dirty lists, and the journal. -/
theorem Chip.stagesFrom_reaches (c : Chip) (i m : Nat) (pt : PausePoint) :
    Work.Reaches reportBlocks c (c.stagesFrom i m pt) := by
  unfold Chip.stagesFrom
  dsimp only
  have h1 : Work.Reaches reportBlocks c (if pt.stage ≤ 1 then c.stageClose i m else { chip := c, stop := none }) := by
    split
    · exact c.stageClose_reaches _ _
    · exact .same _ c
  generalize (if pt.stage ≤ 1 then c.stageClose i m else { chip := c, stop := none }) = w1 at h1 ⊢
  have step : ∀ (n : Nat) (w : Work) (f : Chip → Work), Work.Reaches reportBlocks c w →
      (∀ d, Work.Reaches reportBlocks d (f d)) →
      Work.Reaches reportBlocks c (if pt.stage ≤ n then w.andThen f else w) := by
    intro n w f h hf
    split
    · exact Work.reaches_andThen h hf
    · exact h
  have h2 := step 2 w1 (Chip.stageOwed i m 5 (if pt.stage = 2 then pt.place else 0)) h1 fun d =>
    Chip.stageOwed_reaches _ _ _ _ d
  have h3 := step 3 _ (Chip.stageWindows i m 5 (if pt.stage = 3 then pt.place else 0)) h2 fun d =>
    Chip.stageWindows_reaches _ _ _ _ d
  have h4 := step 4 _ (fun c => { chip := c.stageMinute i m, stop := none }) h3 fun d => d.stageMinute_reaches i m
  exact Work.reaches_plain (Work.reaches_andThen h4 fun d => d.stageRun_reaches _ _) fun d => d.stageDark_reaches _ _

/-- What a pass visit reaches, the start of the next pass at its end among it. -/
abbrev visitBlocks : List Block := [.subs, .ports, .branches, .journal, .clock, .pass, .store, .engine]

theorem Chip.setAnswered_reaches (c : Chip) (b : Bool) : Reaches [.store] c (c.setAnswered b) := c.setStore_reaches _
theorem Chip.pausePass_reaches (c : Chip) (pt : PausePoint) : Reaches [.pass, .store] c (c.pausePass pt) :=
  (c.setPass_reaches _).then (by rfl) (Chip.setAnswered_reaches _ _)
theorem Chip.advancePass_reaches (c : Chip) : Reaches startBlocks c c.advancePass := by
  unfold Chip.advancePass
  dsimp only
  have h := fun x : Pass => (c.setStore_reaches { c.store with turn := .fresh }).then (by rfl)
      (Chip.setPass_reaches _ x)
    (bs := startBlocks)
  exact .ite (h _) ((h _).then (by rfl) (Chip.passIfDue_reaches _))
theorem Chip.runVisit_reaches (c : Chip) (pt : PausePoint) : Reaches visitBlocks c (c.runVisit pt) := by
  unfold Chip.runVisit
  have h := (c.setPass_reaches { c.pass with state := .visiting, point := none }).then (by rfl)
    (Chip.stagesFrom_reaches _ c.pass.cursor (c.pass.minute.getD 0) pt) (bs := visitBlocks)
  dsimp only
  split
  · exact h.then (by rfl) (Chip.pausePass_reaches _ _)
  · exact h.then (by rfl) (Chip.advancePass_reaches _)
theorem Chip.visitRecord_reaches (c : Chip) : Reaches visitBlocks c c.visitRecord := by
  unfold Chip.visitRecord
  exact .ite (c.advancePass_reaches.wider (by rfl)) (c.runVisit_reaches _)
theorem Chip.resumePass_reaches (c : Chip) : Reaches visitBlocks c c.resumePass := by
  unfold Chip.resumePass
  split
  · exact (c.setAnswered_reaches _).then (by rfl) (Chip.runVisit_reaches _ _)
  · exact .same _ c

/-! ### Subscriber takes -/

/-- What a subscriber take reaches. -/
abbrev storeBlocks : List Block := [.subs, .ports, .branches, .journal, .store]

theorem Chip.takeOutcome_reaches (c : Chip) (i : Nat) (o : OutcomeCode) : Reaches [.subs] c (c.takeOutcome i o) :=
  c.updLive_reaches _ _
theorem Chip.queueTake_reaches (c : Chip) (i : Nat) : Reaches [.store, .subs] c (c.queueTake i) := by
  unfold Chip.queueTake
  exact .ite (.same _ c) ((c.setStore_reaches _).then (by rfl) (Chip.takeOutcome_reaches _ _ _))
theorem Chip.revisionEvent_reaches (c : Chip) (i : Nat) : Reaches [.store, .subs] c (c.revisionEvent i) := by
  unfold Chip.revisionEvent
  exact .ite (.same _ c) (c.queueTake_reaches i)
theorem Chip.copyIntent_reaches (c : Chip) (i : Nat) (t : Intent) : Reaches [.subs] c (c.copyIntent i t) :=
  (c.updSub_reaches _ _).then (by rfl) (Chip.updLive_reaches _ _ _)
theorem Chip.setOwner_reaches (c : Chip) (p : Nat) (o : Option Nat) : Reaches [.ports] c (c.setOwner p o) :=
  c.updPort_reaches _ _
theorem Chip.settleOwner_reaches (c : Chip) (i : Nat) (t : Intent) : Reaches portBlocks c (c.settleOwner i t) := by
  unfold Chip.settleOwner
  dsimp only
  have h := c.updLive_reaches i fun l => { l with owned := some t.owned }
  refine .ite (h.wider (by rfl)) ?_
  split
  · exact ((h.then (by rfl) (Chip.setOwner_reaches _ _ _) (bs := portBlocks)).then (by rfl)
        (Chip.setOwner_reaches _ _ _)
      (bs := portBlocks)).then (by rfl) (Chip.copySummary_reaches _ _)
  · exact (h.then (by rfl) (Chip.setOwner_reaches _ _ _) (bs := portBlocks)).then (by rfl)
        (Chip.copySummary_reaches _ _)
theorem Chip.recomputeMoved_reaches (c : Chip) (o : Option Nat) (p : Nat) :
    Reaches portBlocks c (c.recomputeMoved o p) := by
  unfold Chip.recomputeMoved
  split
  · exact .ite (c.recompute_reaches p) ((c.recompute_reaches _).then (by rfl) (Chip.recompute_reaches _ _))
  · exact c.recompute_reaches p
theorem Chip.takeService_reaches (c : Chip) (i : Nat) (t : Intent) (st : RecordState) :
    Reaches storeBlocks c (c.takeService i t st) := by
  unfold Chip.takeService
  dsimp only
  refine Reaches.then (as := storeBlocks) (by rfl) ?_ (Chip.takeOutcome_reaches _ _ _)
  have h := (((c.copyIntent_reaches i t).then (by rfl) (Chip.updLive_reaches _ i fun l =>
      { l with cycle := if l.state = .free then c.clock.cal.cycle else l.cycle, state := st }) (bs := [.subs])).then
          (by rfl)
    (Chip.settleOwner_reaches _ i t) (bs := storeBlocks)).then (by rfl)
    (Chip.recomputeMoved_reaches _ (c.ownedPort i) t.owned.number) (bs := storeBlocks)
  exact .ite (h.then (by rfl) (Chip.resolveOff_reaches _ _)) h
theorem Chip.holdTake_reaches (c : Chip) (i : Nat) (s : TakeStep) : Reaches [.store] c (c.holdTake i s) :=
  c.setStore_reaches _
theorem Chip.dropFirst_reaches (c : Chip) (i : Nat) : Reaches portBlocks c (c.dropFirst i) := c.dropPurchase_reaches _ _
theorem Chip.unhold_reaches (c : Chip) : Reaches [.store] c c.unhold := c.setStore_reaches _
theorem Chip.chargeFirst_reaches (c : Chip) (i : Nat) (p : Purchase) : Reaches reportBlocks c (c.chargeFirst i p) :=
  (c.charge_reaches _ _ _).then (by rfl) (Chip.dropPurchase_reaches _ _ _)
theorem Chip.vacantPurchases_reaches (i fuel : Nat) (c : Chip) :
    Reaches storeBlocks c (Chip.vacantPurchases i fuel c) := by
  induction fuel generalizing c with
  | zero => exact (c.takeOutcome_reaches _ _).wider (by rfl)
  | succ fuel ih =>
    unfold Chip.vacantPurchases
    split
    · exact (c.takeOutcome_reaches _ _).wider (by rfl)
    · split
      · exact (c.dropFirst_reaches _).then (by rfl) (ih _)
      · exact ((c.lapsed_reaches _ _ _).then (by rfl) (Chip.dropFirst_reaches _ _) (bs := storeBlocks)).then (by rfl)
            (ih _)
      · split
        · exact (c.chargeFirst_reaches _ _).then (by rfl) (ih _)
        · exact (c.holdTake_reaches _ _).wider (by rfl)
      · exact (c.dropFirst_reaches _).then (by rfl) (ih _)
theorem Chip.vacantRun_reaches (c : Chip) (i : Nat) : Reaches storeBlocks c (c.vacantRun i) := by
  unfold Chip.vacantRun
  refine .ite (Chip.vacantPurchases_reaches _ _ c) (.ite ((c.holdTake_reaches _ _).wider (by rfl)) ?_)
  exact (c.resolveHeld_reaches _ _).then (by rfl) (Chip.vacantPurchases_reaches _ _ _)
theorem Chip.vacantFinal_reaches (c : Chip) (i : Nat) : Reaches storeBlocks c (c.vacantFinal i) :=
  (c.updLive_reaches _ _).then (by rfl) (Chip.vacantRun_reaches _ _)
theorem Chip.vacantClose_reaches (c : Chip) (i : Nat) : Reaches storeBlocks c (c.vacantClose i) := by
  unfold Chip.vacantClose
  exact .ite ((c.holdTake_reaches _ _).wider (by rfl))
    ((c.closeIfStale_reaches _ _).then (by rfl) (Chip.vacantFinal_reaches _ _))
theorem Chip.releasePort_reaches (c : Chip) (i : Nat) : Reaches portBlocks c (c.releasePort i) := by
  unfold Chip.releasePort
  dsimp only
  have h := (c.updLive_reaches i fun l => { l with owned := none }).then (by rfl) (Chip.dropSummary_reaches _ i)
      (bs := [.subs])
  split
  · exact (h.then (by rfl) (Chip.setOwner_reaches _ _ _) (bs := portBlocks)).then (by rfl) (Chip.recompute_reaches _ _)
  · exact h.wider (by rfl)
theorem Chip.takeVacant_reaches (c : Chip) (i : Nat) (t : Intent) : Reaches storeBlocks c (c.takeVacant i t) := by
  unfold Chip.takeVacant
  refine .ite ?_ ((c.copyIntent_reaches _ _).then (by rfl) (Chip.takeOutcome_reaches _ _ _))
  exact ((c.copyIntent_reaches _ _).then (by rfl) (Chip.releasePort_reaches _ _) (bs := storeBlocks)).then (by rfl)
    (Chip.vacantClose_reaches _ _)
theorem Chip.serveTake_reaches (c : Chip) (i : Nat) : Reaches storeBlocks c (c.serveTake i) := by
  unfold Chip.serveTake
  refine .ite ((c.takeOutcome_reaches _ _).wider (by rfl)) (.ite (c.takeVacant_reaches _ _) (.ite ?_ ?_))
  · split
    · exact (c.takeOutcome_reaches _ _).wider (by rfl)
    · exact c.takeService_reaches _ _ _
  · exact (c.takeOutcome_reaches _ _).wider (by rfl)
theorem Chip.takeNext_reaches (c : Chip) : Reaches storeBlocks c c.takeNext := by
  unfold Chip.takeNext
  split
  · exact .same _ c
  · exact (c.setStore_reaches _).then (by rfl) (Chip.serveTake_reaches _ _)
theorem Chip.resumeTake_reaches (c : Chip) (i : Nat) (s : TakeStep) : Reaches storeBlocks c (c.resumeTake i s) := by
  unfold Chip.resumeTake
  split
  · exact c.unhold_reaches.then (by rfl) (Chip.vacantFinal_reaches _ _)
  · exact c.unhold_reaches.then (by rfl) (Chip.vacantRun_reaches _ _)
  · exact c.unhold_reaches.then (by rfl) (Chip.vacantPurchases_reaches _ _ _)
theorem Chip.writeBackStep_reaches (c : Chip) : Reaches [.subs, .store] c c.writeBackStep := by
  have h : Reaches [.store] c c.moveCursor := c.setStore_reaches _
  unfold Chip.writeBackStep
  exact .ite (.same _ c) (.ite (h.wider (by rfl)) (.ite (h.wider (by rfl)) ((c.updSub_reaches _ _).then (by rfl)
      (Chip.setStore_reaches _ _))))

/-! ### The plant take -/

/-- What a plant take reaches. -/
abbrev plantBlocks : List Block := [.subs, .ports, .branches, .elements, .plant, .outages, .journal]

theorem Chip.withdraw_reaches (c : Chip) (e : Nat) : Reaches plantBlocks c (c.withdraw e) :=
  (c.setMark_reaches _ _ _).then (by rfl) (Chip.closeOf_reaches _ _ _ _ _)
theorem Chip.resetElement_reaches (c : Chip) (k : Class) (o n : ElementRecord) (e : Nat) :
    Reaches plantBlocks c (c.resetElement k o n e) := by
  unfold Chip.resetElement
  exact .ite ((c.updElement_reaches _ _).wider (by rfl)) (.ite ((c.updSup_reaches _ _).wider (by rfl)) (.same _ c))
theorem Chip.resuppress_reaches (c : Chip) (e : Nat) : Reaches plantBlocks c (c.resuppress e) := by
  unfold Chip.resuppress
  exact .ite (.same _ c) (.ite (.ite (.same _ c) ((c.suppress_reaches e).wider (by rfl)))
    (.ite ((c.updSup_reaches _ _).wider (by rfl)) (.same _ c)))
theorem Chip.relist_reaches (c : Chip) (k : Class) (m : Bool) (w : Supervision) (e : Nat) :
    Reaches plantBlocks c (c.relist k m w e) := by
  unfold Chip.relist
  have h : Reaches plantBlocks c (if k = .removed ∨ m = true then c.offRepoll e else c) :=
    .ite ((c.offRepoll_reaches e).wider (by rfl)) (.same _ c)
  exact .ite (h.then (by rfl) (Chip.repollAppend_reaches _ _)) h
theorem Chip.repark_reaches (c : Chip) (e : Nat) : Reaches plantBlocks c (c.repark e) := by
  unfold Chip.repark
  exact .ite (.same _ c) ((c.parkElement_reaches e).wider (by rfl))
theorem Chip.cutExchange_reaches (c : Chip) (k : Nat → Class) (b : Nat) : Reaches plantBlocks c (c.cutExchange k b) :=
    by
  unfold Chip.cutExchange
  split
  · exact .same _ c
  · next x _ =>
    have h := c.updBranch_reaches b fun r => { r with hold := some { x with last := true, discard := true } }
    refine .ite (.same _ c) ?_
    dsimp only
    split
    · exact (h.then (by rfl) (Chip.updPort_reaches _ _ _) (bs := plantBlocks)).then (by rfl)
          (Chip.copySummary_reaches _ _)
    · exact h.wider (by rfl)
theorem Chip.takePlant_reaches (c : Chip) : Reaches plantBlocks c c.takePlant := by
  have h2 := (c.setElements_reaches c.mirrorElements).then (by rfl)
    (Chip.setPlant_reaches _ { c.plant with gen := some (takeWord c.plant.mirror), outcome := .done })
    (bs := plantBlocks)
  have hc := fun (d : Chip) => d.handCarriers_reaches
  unfold Chip.takePlant
  dsimp only
  have h3 := h2.then (by rfl) (forIndices_reaches (f := fun d e =>
    if (classOf c.elements c.mirrorElements e).lost then d.withdraw e else d)
    (fun d e => .ite (d.withdraw_reaches e) (.same _ d)) 640 _) (bs := plantBlocks)
  have h4 := h3.then (by rfl) (forIndices_reaches (fun d e => d.resetElement_reaches
      (classOf c.elements c.mirrorElements e)
    (vget c.elements e).record (vget c.mirrorElements e).record e) 640 _) (bs := plantBlocks)
  have h5 := h4.then (by rfl) (forIndices_reaches Chip.resuppress_reaches 640 _) (bs := plantBlocks)
  have h6 := h5.then (by rfl) (forIndices_reaches (fun d e => d.relist_reaches (classOf c.elements c.mirrorElements e)
    (classOf c.elements c.mirrorElements e == .changed && rootFrom c.elements e != rootFrom c.mirrorElements e)
    (vget c.elements e).sup.state e) 640 _) (bs := plantBlocks)
  have h7 := (h6.then (by rfl) (forIndices_reaches Chip.repark_reaches 640 _) (bs := plantBlocks)).then (by rfl)
    (forIndices_reaches (fun d b => d.cutExchange_reaches (classOf c.elements c.mirrorElements) b) 4 _)
    (bs := plantBlocks)
  exact .ite (h7.then (by rfl) (hc _)) h7
theorem Chip.tryPlant_reaches (c : Chip) : Reaches plantBlocks c c.tryPlant := by
  unfold Chip.tryPlant
  split
  · exact (c.setPlant_reaches _).wider (by rfl)
  · exact c.takePlant_reaches
theorem Chip.plantEvent_reaches (c : Chip) : Reaches plantBlocks c c.plantEvent := by
  unfold Chip.plantEvent
  exact .ite c.tryPlant_reaches (.same _ c)

/-! ### Orders -/

theorem Chip.finishOrder_reaches (c : Chip) (o : OutcomeCode) : Reaches [.orders] c (c.finishOrder o) :=
  c.setOrders_reaches _

/-- A decided order reaches what its effect reaches, and the Order Taker. -/
theorem Chip.decideOrder_reaches {as bs : List Block} {c : Chip} {r : Option OutcomeCode} {f : Chip → Chip}
    (h : Reaches as c (f c)) (w : within (as ++ [.orders]) bs = true) :
    Reaches bs c (c.decideOrder r f) := by
  unfold Chip.decideOrder
  split
  · exact (c.finishOrder_reaches _).wider (within_right w)
  · exact h.then w (Chip.finishOrder_reaches _ _)
theorem Chip.orderServed_reaches (c : Chip) : Reaches [.store] c c.orderServed := c.setStore_reaches _
theorem Chip.book_reaches (c : Chip) (o : Order) : Reaches portBlocks c (c.book o) :=
  (c.updLive_reaches _ _).then (by rfl) (Chip.recomputeOwned_reaches _ _)
theorem Chip.cancelBooking_reaches (c : Chip) (o : Order) : Reaches portBlocks c (c.cancelBooking o) := by
  unfold Chip.cancelBooking
  split
  · exact c.dropPurchase_reaches _ _
  · exact .same _ c

/-- What an ADJUST reaches. -/
abbrev adjustBlocks : List Block := [.subs, .journal, .orders, .store]

theorem Chip.holdAdjust_reaches (c : Chip) (s : AdjustStep) : Reaches [.store] c (c.holdAdjust s) :=
  c.setStore_reaches _
theorem Chip.adjustAmount_reaches (c : Chip) (o : Order) : Reaches billBlocks c (c.adjustAmount o) :=
  (c.addEvent_reaches _ _ _).then (by rfl) (Chip.money_reaches _ _)
theorem Chip.adjustAdd_reaches (c : Chip) (o : Order) : Reaches adjustBlocks c (c.adjustAdd o) := by
  unfold Chip.adjustAdd
  exact .ite ((c.adjustAmount_reaches _).then (by rfl) (Chip.finishOrder_reaches _ _))
    ((c.holdAdjust_reaches _).wider (by rfl))
theorem Chip.adjustClose_reaches (c : Chip) (o : Order) : Reaches adjustBlocks c (c.adjustClose o) := by
  unfold Chip.adjustClose
  refine .ite (.ite ?_ ((c.holdAdjust_reaches _).wider (by rfl))) (c.adjustAdd_reaches o)
  exact (c.closeOnTouch_reaches _ _).then (by rfl) (Chip.adjustAdd_reaches _ _)
theorem Chip.serveAdjust_reaches (c : Chip) (o : Order) : Reaches adjustBlocks c (c.serveAdjust o) := by
  unfold Chip.serveAdjust
  split
  · exact (c.finishOrder_reaches _).wider (by rfl)
  · exact c.adjustClose_reaches o
theorem Chip.resumeAdjust_reaches (c : Chip) (o : Order) (s : AdjustStep) :
    Reaches adjustBlocks c (c.resumeAdjust o s) := by
  unfold Chip.resumeAdjust
  split
  · exact c.unhold_reaches.then (by rfl) (Chip.adjustAdd_reaches _ _)
  · exact c.unhold_reaches.then (by rfl) (Chip.finishOrder_reaches _ _)

/-! ### The answer to a waiting money entry -/

theorem Chip.answerVisit_reaches (c : Chip) (i m : Nat) (pt : PausePoint) :
    Reaches reportBlocks c (c.answerVisit i m pt) := by
  unfold Chip.answerVisit
  refine .ite ((c.closeIfStale_reaches _ _).wider (by rfl)) (.ite ?_ (.ite ?_
    (.ite ((c.credit_reaches _ _).wider (by rfl)) (.same _ c))))
  · split
    · exact .ite (c.chargeAt_reaches _ _ _ _) (.same _ c)
    · exact .same _ c
  · split
    · unfold Chip.answerWindow
      split
      · exact .same _ c
      · exact .same _ c
      · exact c.chargeAt_reaches _ _ _ _
      · exact .ite (c.refundAt_reaches _ _ _ _) (.same _ c)
    · exact .same _ c
theorem Chip.answerTake_reaches (c : Chip) (i : Nat) (s : TakeStep) : Reaches reportBlocks c (c.answerTake i s) := by
  unfold Chip.answerTake
  split
  · exact (c.closeIfStale_reaches _ _).wider (by rfl)
  · exact .ite ((c.credit_reaches _ _).wider (by rfl)) (.same _ c)
  · split
    · exact .same _ c
    · exact .ite (c.chargeFirst_reaches _ _) (.same _ c)
theorem Chip.answerAdjust_reaches (c : Chip) (o : Order) (s : AdjustStep) :
    Reaches reportBlocks c (c.answerAdjust o s) := by
  unfold Chip.answerAdjust
  split
  · exact .ite ((c.closeIfStale_reaches _ _).wider (by rfl)) (.same _ c)
  · exact (c.adjustAmount_reaches o).wider (by rfl)
theorem Chip.answerHeld_reaches (c : Chip) : Reaches reportBlocks c c.answerHeld := by
  unfold Chip.answerHeld
  refine .ite ?_ ?_
  · split
    · exact c.answerVisit_reaches _ _ _
    · exact .same _ c
  · split
    · exact c.answerTake_reaches _ _
    · split
      · exact c.answerAdjust_reaches _ _
      · exact .same _ c
    · exact .same _ c

/-- The answer reaches the subscribers, the ports with their dirty lists, the journal, and its note in the store. -/
theorem Chip.answerMoney_reaches (c : Chip) : Reaches storeBlocks c c.answerMoney := by
  unfold Chip.answerMoney
  exact .ite (c.answerHeld_reaches.then (by rfl) (Chip.setAnswered_reaches _ _)) (.same _ c)
theorem Chip.resendPort_reaches (c : Chip) (o : Order) : Reaches portBlocks c (c.resendPort o) := by
  unfold Chip.resendPort
  split
  · exact c.doubtPort_reaches _
  · exact .same _ c
theorem Chip.acknowledgeRecord_reaches (c : Chip) (o : Order) : Reaches outageBlocks c (c.acknowledgeRecord o) := by
  unfold Chip.acknowledgeRecord
  split
  · exact .same _ c
  · exact .ite (.same _ c) (.ite ((c.freeRecord_reaches _).then (by rfl) (Chip.serveMarked_reaches _))
      ((c.updRecord_reaches _ _).wider (by rfl)))
theorem Chip.applySetClock_reaches (c : Chip) (o : Order) : Reaches minuteBlocks c (c.applySetClock o) := by
  unfold Chip.applySetClock
  split
  · exact c.setFromUnset_reaches _ _
  · exact c.stepClock_reaches _ _
  · exact c.stepClock_reaches _ _
theorem Chip.applyNextCycle_reaches (c : Chip) (o : Order) : Reaches [.clock, .engine] c (c.applyNextCycle o) :=
  (c.setClock_reaches _).then (by rfl) (Chip.queueCheckpoint_reaches _)

/-! ### Tenures -/

theorem Chip.grant_reaches (c : Chip) : Reaches [.journal, .engine] c c.grant :=
  (c.setJournal_reaches _).then (by rfl) (Chip.setEngine_reaches _ _)

/-- What the end of a tenure's journal transfers reaches. -/
abbrev writtenBlocks : List Block := [.subs, .ports, .branches, .journal, .store, .outages, .elements]

theorem Chip.dropWritten_reaches (c : Chip) (n : Nat) : Reaches [.journal] c (c.dropWritten n) := c.setJournal_reaches _
theorem Chip.entriesWritten_reaches (c : Chip) (n : Nat) : Reaches writtenBlocks c (c.entriesWritten n) := by
  have hl : ∀ (l : List Queued) (d : Chip), Reaches outageBlocks d (l.foldl (fun c q => c.noticeWritten q.entry) d) :=
      by
    intro l
    induction l with
    | nil => exact fun d => .same _ d
    | cons q l ih => exact fun d => (d.noticeWritten_reaches q.entry).then (by rfl) (ih _)
  unfold Chip.entriesWritten
  exact .ite (.same _ c)
    (((c.dropWritten_reaches n).then (by rfl) (Chip.answerMoney_reaches _) (bs := storeBlocks)).then (by rfl) (hl _ _))
theorem Chip.copyWritten_reaches (c : Chip) : Reaches [.store] c c.copyWritten :=
  (c.setStore_reaches _).then (by rfl) (Chip.setStore_reaches _ _)

end Sys2Proof.Machine
end

