-- ==== Sys2Proof/Laws/Path.lean ====
section
/-! SUPPORT. What the operations of the Memory Path and of the fill can do: the array and the waiting commands over a
host word, an event and a burst, and the blocks a delivery reaches. -/

namespace Sys2Proof.Machine

/-! ### A word of a host write -/

@[simp] theorem State.passWord_chip (s : State) (w : HostWord) : (s.passWord w).chip = s.chip := rfl
@[simp] theorem State.passWord_array (s : State) (w : HostWord) :
    (s.passWord w).array = Memory.writeHost s.array 0 w := rfl
@[simp] theorem State.passWord_pending (s : State) (w : HostWord) : (s.passWord w).pending = s.pending := rfl
@[simp] theorem State.protectWord_array (s : State) (k : WordKind) (w : HostWord) :
    (s.protectWord k w).array = s.array := by unfold State.protectWord; rfl
@[simp] theorem State.protectWord_pending (s : State) (k : WordKind) (w : HostWord) :
    (s.protectWord k w).pending = s.pending := by unfold State.protectWord; rfl
@[simp] theorem State.captureWord_array (s : State) (k : WordKind) (w : HostWord) :
    (s.captureWord k w).array = Memory.writeHost s.array 0 w := by unfold State.captureWord; rfl
@[simp] theorem State.captureWord_pending (s : State) (k : WordKind) (w : HostWord) :
    (s.captureWord k w).pending = s.pending := by unfold State.captureWord; rfl

theorem Chip.mirrorWord_reaches (c : Chip) (k : WordKind) (w : HostWord) :
    Reaches [.store, .lineUp, .plant, .orders] c (c.mirrorWord k w) := by
  unfold Chip.mirrorWord
  split
  · exact (c.setStore_reaches _).wider (by rfl)
  · exact (c.setLineUp_reaches _).wider (by rfl)
  · exact (c.setPlant_reaches _).wider (by rfl)
  · exact (c.setOrders_reaches _).wider (by rfl)
  · exact (c.setOrders_reaches _).wider (by rfl)
  · exact .same _ c
theorem Chip.markWord_reaches (c : Chip) (w : HostWord) : Reaches [.part] c (c.markWord w) := by
  unfold Chip.markWord; exact .ite (c.setPart_reaches _) (.same _ c)
theorem Chip.guard_reaches (c : Chip) (k : WordKind) (a : Nat) : Reaches [.path, .journal] c (c.guard k a) := by
  unfold Chip.guard
  dsimp only
  exact .ite ((c.setPath_reaches _).wider (by rfl)) ((c.setPath_reaches _).then (by rfl) (Chip.noticeOf_reaches _ _ _))

/-- A word of a host write changes the array by its unmasked bytes or not at all. -/
theorem State.hostWrite_array (s : State) (w : HostWord) :
    (s.hostWrite w).1.array = Memory.writeHost s.array 0 w ∨ (s.hostWrite w).1.array = s.array := by
  unfold State.hostWrite
  dsimp only
  split
  · exact .inl (s.passWord_array w)
  · split
    · exact .inl (s.passWord_array w)
    · exact .inr (s.protectWord_array _ w)
    · exact .inl (s.captureWord_array _ w)
    · split
      · exact .inr rfl
      · exact .inr (s.protectWord_array _ w)
    · exact .inl (s.passWord_array w)

@[simp] theorem State.hostWrite_pending (s : State) (w : HostWord) : (s.hostWrite w).1.pending = s.pending := by
  unfold State.hostWrite
  dsimp only
  split
  · exact s.passWord_pending w
  · split
    · exact s.passWord_pending w
    · exact s.protectWord_pending _ w
    · exact s.captureWord_pending _ w
    · split
      · rfl
      · exact s.protectWord_pending _ w
    · exact s.passWord_pending w

/-! ### Events -/

theorem Chip.kindEvent_reaches (c : Chip) (k : Nat) : Reaches [.orders] c (c.kindEvent k) := c.setOrders_reaches _

@[simp] theorem State.tailEvent_pending (s : State) (w : HostWord) : (s.tailEvent w).pending = s.pending := by
  unfold State.tailEvent
  dsimp only
  split
  · exact s.passWord_pending w
  · exact s.protectWord_pending _ w
@[simp] theorem State.headEvent_pending (s : State) (w : HostWord) : (s.headEvent w).pending = s.pending := by
  unfold State.headEvent
  dsimp only
  split
  · exact s.passWord_pending w
  · exact s.protectWord_pending _ w

@[simp] theorem State.handEvent_pending (s : State) (e : TakeEvent) : (s.handEvent e).pending = s.pending := by
  unfold State.handEvent
  dsimp only
  rw [State.onChip_pending]
  split
  · exact s.onChip_pending _
  · exact s.onChip_pending _
  · exact s.onChip_pending _
  · exact s.onChip_pending _
  · exact s.tailEvent_pending _
  · exact s.headEvent_pending _
  · exact s.onChip_pending _

@[simp] theorem State.handEvents_pending (s : State) (l : List TakeEvent) : (s.handEvents l).pending = s.pending := by
  unfold State.handEvents
  induction l generalizing s with
  | nil => rfl
  | cons e l ih => rw [List.foldl_cons, ih, s.handEvent_pending e]

/-! ### Bursts -/

/-- Candidates that pass change the array alone. -/
theorem State.passCandidates_frame (s : State) (l : List TakeEvent) :
    (s.passCandidates l).chip = s.chip ∧ (s.passCandidates l).pending = s.pending := by
  unfold State.passCandidates
  induction l.filterMap TakeEvent.candidateWord generalizing s with
  | nil => exact ⟨rfl, rfl⟩
  | cons w l ih => exact ih (s.passWord w)

@[simp] theorem State.endBurst_pending (s : State) : s.endBurst.pending = s.pending := by
  unfold State.endBurst
  split
  · rfl
  · dsimp only
    split
    · exact (State.passCandidates_frame _ _).2
    · rw [State.handEvents_pending, State.onChip_pending]

@[simp] theorem State.quietLines_chip (s : State) : s.quietLines.chip = s.chip := rfl
@[simp] theorem State.quietLines_array (s : State) : s.quietLines.array = s.array := rfl
@[simp] theorem State.quietLines_pending (s : State) : s.quietLines.pending = s.pending := rfl

/-- Where no burst is in progress there is none to end. -/
theorem State.endBurst_none (s : State) (h : s.chip.path.burst = none) : s.endBurst = s := by
  simp [State.endBurst, h]

/-- Where no burst is in progress a cutting command is forwarded like any other (R161). -/
theorem State.cutForward_none (s : State) (i : Instr) (h : s.chip.path.burst = none) :
    s.cutForward i = s.forward i := by
  unfold State.cutForward
  rw [State.endBurst_none s.quietLines h]
  rfl

@[simp] theorem State.cutForward_pending (s : State) (i : Instr) : (s.cutForward i).pending = s.pending :=
  s.quietLines.endBurst_pending

theorem State.writeWord_pending (s : State) (b : Burst) (k : Nat) (w : WriteWord) :
    (s.writeWord b k w).1.pending = s.pending := by
  unfold State.writeWord
  dsimp only
  split
  · rfl
  · exact s.hostWrite_pending _

@[simp] theorem State.transferWord_pending (s : State) : s.transferWord.pending = s.pending := by
  unfold State.transferWord
  split
  · rfl
  · split
    · rfl
    · exact s.writeWord_pending _ _ _

@[simp] theorem State.transferWords_pending (s : State) (n : Nat) : (s.transferWords n).pending = s.pending := by
  have h : (forIndices n (fun (s : State) _ => if s.chip.burstDone then s else s.transferWord) s).pending = s.pending :=
    forIndices_frame State.pending (fun y _ => by split <;> first | rfl | exact y.transferWord_pending) n s
  unfold State.transferWords
  dsimp only
  split
  · rw [State.endBurst_pending]; exact h
  · exact h

/-! ### The fill -/

theorem Chip.fillRecord_reaches (c : Chip) (m : Memory) (i : Nat) : Reaches [.subs] c (c.fillRecord m i) :=
  c.updSub_reaches _ _
theorem Chip.deliver_reaches (c : Chip) (m : Memory) (k : Nat) :
    Reaches [.plant, .lineUp, .store, .subs, .orders] c (c.deliver m k) := by
  unfold Chip.deliver
  split
  · exact .same _ c
  · exact .same _ c
  · exact .same _ c
  · exact (c.setPlant_reaches _).wider (by rfl)
  · exact (c.setLineUp_reaches _).wider (by rfl)
  · exact .ite ((c.setStore_reaches _).wider (by rfl)) (.ite ((c.fillRecord_reaches m _).wider (by rfl)) (.same _ c))
  · exact .ite ((c.setOrders_reaches _).wider (by rfl)) ((c.setOrders_reaches _).wider (by rfl))
theorem Chip.nextStage_reaches (c : Chip) (g : FillStage) : Reaches [.part] c (c.nextStage g) := c.setPart_reaches _
theorem Chip.configFault_reaches (c : Chip) (f : FaultCode) : Reaches [.part] c (c.configFault f) := c.setPart_reaches _
theorem Chip.endConfigBlock_reaches (c : Chip) (m : Memory) : Reaches [.part] c (c.endConfigBlock m) := by
  unfold Chip.endConfigBlock
  dsimp only
  split
  · exact .ite ((c.setPart_reaches _).then (by rfl) (Chip.nextStage_reaches _ _))
      ((c.setPart_reaches _).then (by rfl) (Chip.configFault_reaches _ _))
  · exact c.configFault_reaches _
theorem Chip.endCheckpoint_reaches (c : Chip) (m : Memory) : Reaches [.part, .clock] c (c.endCheckpoint m) := by
  unfold Chip.endCheckpoint
  dsimp only
  exact ((c.setClock_reaches _).then (by rfl) (Chip.setPart_reaches _ _) (bs := [.part, .clock])).then (by rfl)
    (Chip.nextStage_reaches _ _)
theorem Chip.endPlant_reaches (c : Chip) :
    Reaches [.part, .subs, .ports, .branches, .elements, .plant, .outages, .journal] c c.endPlant := by
  unfold Chip.endPlant
  exact .ite (c.tryPlant_reaches.then (by rfl) (Chip.nextStage_reaches _ _))
    (c.tryPlant_reaches.then (by rfl) (Chip.configFault_reaches _ _))
theorem Chip.endLineUp_reaches (c : Chip) :
    Reaches [.part, .lineUp, .rack, .sources, .outages, .elements, .journal, .sweep] c c.endLineUp := by
  unfold Chip.endLineUp
  exact .ite (c.tryLineUp_reaches.then (by rfl) (Chip.nextStage_reaches _ _))
    (c.tryLineUp_reaches.then (by rfl) (Chip.configFault_reaches _ _))
theorem Chip.rebuildState_reaches (c : Chip) (i : Nat) : Reaches [.subs] c (c.rebuildState i) := by
  unfold Chip.rebuildState
  exact .ite (c.updSub_reaches _ _) (.same _ c)
theorem Chip.rebuildIntent_reaches (c : Chip) (i : Nat) : Reaches [.subs, .store] c (c.rebuildIntent i) := by
  unfold Chip.rebuildIntent
  dsimp only
  exact .ite ((c.updSub_reaches _ _).wider (by rfl)) ((c.updSub_reaches _ _).then (by rfl) (Chip.queueTake_reaches _ _))
theorem Chip.rebuildClaim_reaches (c : Chip) (i : Nat) : Reaches [.subs, .store, .ports] c (c.rebuildClaim i) := by
  unfold Chip.rebuildClaim
  dsimp only
  split
  · exact .same _ c
  · refine .ite ((c.updLive_reaches _ _).wider (by rfl)) (.ite ((c.setOwner_reaches _ _).wider (by rfl)) ?_)
    exact ((c.updLive_reaches _ _).then (by rfl) (Chip.markDirty_reaches _ _) (bs := [.subs])).then (by rfl)
        (Chip.queueTake_reaches _ _)
theorem Chip.rebuildPort_reaches (c : Chip) (p : Nat) : Reaches [.subs, .store, .ports] c (c.rebuildPort p) :=
  (c.updPort_reaches _ _).then (by rfl) (Chip.copySummary_reaches _ _)

theorem Chip.rebuildRecord_reaches (c : Chip) (i : Nat) : Reaches [.subs, .store, .ports] c (c.rebuildRecord i) := by
  have h := ((c.rebuildState_reaches i).then (by rfl) (Chip.rebuildIntent_reaches _ i) (bs := [.subs, .store])).then
    (by rfl) (Chip.rebuildClaim_reaches _ i) (bs := [.subs, .store, .ports])
  unfold Chip.rebuildRecord Chip.rebuildSummary
  exact .ite (h.then (by rfl) (Chip.dropSummary_reaches _ _)) h

/-- The rebuild reaches the subscribers, the take queue and the ports. -/
theorem Chip.rebuild_reaches (c : Chip) : Reaches [.subs, .store, .ports] c c.rebuild := by
  unfold Chip.rebuild
  exact Reaches.then (as := [.subs, .store, .ports]) (by rfl) (forIndices_reaches Chip.rebuildRecord_reaches 2048 c)
    (forIndices_reaches Chip.rebuildPort_reaches 2560 _)

end Sys2Proof.Machine
end

