-- ==== Sys2Proof/Tests/Slice0.lean ====
section
/-! SUPPORT. Tests: the well-formedness checks, the command lines, frames and layouts by words written out from the
spec, a few steps, and for each statement a state and operands that meet its hypotheses. -/

namespace Sys2Proof.Tests

set_option Elab.async false

open Sys2Proof Sys2Proof.Machine

/-! ### The states the tests run on -/

/-- A region map as R178 and R182 ask for it. -/
def cfg : ConfigValues :=
  { format := 3
    status := { base := 65536, size := 9216 }, subscriber := { base := 131072, size := 262144 }
    lineUp := { base := 81920, size := 1184 }, plant := { base := 90112, size := 5136 }
    orderRing := { base := 98304, size := 512 }, journalRing := { base := 102400, size := 2048 }
    orderCapacity := 16, journalCapacity := 64, initialStart := 0, initialM := 1440, initialCycle := 3
    creditThreshold := 60 }

/-- A clock that runs at minute 100, second 10, with no pass due. -/
def clock : Clock :=
  { state := .running, minute := some 100, seconds := 10, lossTimer := true
    cal := { cycle := 3, start := 0, m := 1440, nextM := 1440 }, backlog := 0, nextPass := some 101, dropped := 0 }

/-- A rack link with a GROUP QUERY under way. -/
def rack : Rack :=
  { Rack.reset with
    link := .sending, hold := some { job := .query 0, attempt := 1, frame := (RackJob.query 0).frame } }

/-- A RUNNING part: the map in force, the clock running, a rack exchange under way, no plant. -/
def run : Chip :=
  (((Chip.reset 0 .power).setPart
    { Part.reset 0 .power with state := .running, config := some cfg, mapInForce := true }).setClock clock).setRack rack

/-- The machine with a part, an empty array and no line driven. -/
def on (c : Chip) : State := { chip := c, array := [], lines := { readData := [], arrayCmds := [] }, pending := [] }

/-- The part with bank 0 open at a row. -/
def openAt (c : Chip) (row : BitVec 13) : Chip := c.openRow 0 row

/-- The part in another part state. -/
def inState (c : Chip) (st : PartState) : Chip := c.setPart { c.part with state := st }

/-- An element in use. -/
def unit (kind : ElementKind) (parent address : Nat) (st : Supervision) : Element :=
  { Element.reset with
    record := { inUse := true, kind := kind, parent := parent, address := address, arm := 0, trigger := 0 }
    sup := { SupRecord.fresh with state := st } }

/-- Put an element in the table. -/
def plantOf (c : Chip) (l : List (Nat × Element)) : Chip := l.foldl (fun c p => c.updElement p.1 fun _ => p.2) c

/-- The four roots ANSWERING, node 4 below root 0 and tap 5 below node 4. -/
def plant : Chip :=
  plantOf run
    [(0, unit .branch 0 0 .answering), (4, unit .node 0 17 .answering), (5, unit .tap 4 18 .answering)]

/-- An exchange of branch 0: a poll of element e, or a PORT LOAD of port p. -/
def exchange (e : Nat) (port : Option Nat) (attempt : Nat) : Exchange :=
  { element := e, address := e + 13, port := port, attempt := attempt, frame := [], last := false, discard := false }

/-- Branch 0 with an exchange under way. -/
def hold (c : Chip) (link : LinkState) (x : Exchange) : Chip :=
  c.updBranch 0 fun r => { r with link := link, hold := some x }

/-- The plant with branch 0 listening for the reply to a poll of node 4. -/
def polling : Chip := hold plant .listening (exchange 4 none 1)

/-- The part with the live block and taken intent of record i. -/
def withSub (c : Chip) (i : Nat) (l : Live) : Chip := c.updSub i fun r => { r with live := l, filled := true }

/-- An ACTIVE record of the calendar's cycle that owns port 20, applied ON with tier 0. -/
def active : Live :=
  { Live.free with
    state := .active, cycle := 3, appliedOn := true, confirmed := true, appliedTiers := 1
    owned := some { element := 5, port := 0, zone := 0 } }

/-- The part with an order in hand. -/
def order (c : Chip) (o : Order) : Chip :=
  c.setOrders { c.orders with work := some o, taking := if storeKind o.kind then .waiting else .idle, tail := 1 }

/-- An order's fields. -/
def fields (kind index w8 w12 w16 w20 : Nat) : Order :=
  { kind := kind, index := index, word8 := w8, word12 := w12, word16 := w16, word20 := w20 }

/-- A host write of both bytes, or of the low one only. -/
def both (v : Half) : HalfWrite := { value := v, lo := true, hi := true }
def lowOnly (v : Half) : HalfWrite := { value := v, lo := true, hi := false }

theorem witness_run_settled : Settled (on run) ∧ Settled (on polling) ∧ BusFree (on run) ∧ ArrayCanonical (on run) := by
  decide +kernel

/-! ### Well-formedness: one ill-formed term for each check -/

theorem test_burst_length_checked :
    Instr.wellFormed (.read 0 0 0) = false ∧ Instr.wellFormed (.read 0 0 5) = false
      ∧ Instr.wellFormed (.read 0 0 1) = true ∧ Instr.wellFormed (.readAutoPrecharge 0 0 4) = true := by decide

theorem test_untouched_word_checked :
    Instr.wellFormed (.lineUpTakeRequest { value := 1, lo := false, hi := false }) = false
      ∧ Instr.wellFormed (.lineUpTakeRequest (lowOnly 1)) = true := by decide

theorem test_begun_checked :
    Instr.wellFormed (.resetPin 0 17) = false ∧ Instr.wellFormed (.resetPin 0 16) = true := by decide

theorem test_record_checked :
    Instr.wellFormed (.revisionWrite 2048 (both 1)) = false ∧ Instr.wellFormed (.revisionWrite 2047 (both 1)) = true := by
  decide

theorem test_slot_checked :
    Instr.wellFormed (.orderKindWrite 256 (both 1)) = false ∧ Instr.wellFormed (.orderKindWrite 255 (both 1)) = true := by
  decide

theorem test_empty_reception_checked :
    Instr.wellFormed (.branchReplyReceived 0 []) = false ∧ Instr.wellFormed (.rackReplyReceived [0x7E]) = true := by
  decide

/-! ### Command lines (11.9), frames (R189) and addresses (R162) -/

/-- Select, row, column, write active; the bank and the address lines. -/
def lines (row column write : Bool) (bank : BitVec 2) (addr : BitVec 13) : CommandLines :=
  { select := true, row := row, column := column, write := write, enableRise := false, enableFall := false
    bank := bank, addr := addr }

def noData : BurstLines :=
  { w0 := default, w1 := default, w2 := default, w3 := default, words := 4 }

/-- The rows of 11.9, the auto-precharge and all-banks bit among them. -/
theorem test_command_lines :
    decodeLines (lines true false false 2 1000) noData = some (.activate 2 1000)
      ∧ decodeLines (lines false true false 1 6) noData = some (.read 1 6 4)
      ∧ decodeLines (lines false true false 1 0x406) noData = some (.readAutoPrecharge 1 6 4)
      ∧ decodeLines (lines false true true 1 0x406) noData
          = some (.writeAutoPrecharge 1 6 default default default default 4)
      ∧ decodeLines (lines true false true 3 0) noData = some (.precharge 3)
      ∧ decodeLines (lines true false true 3 0x400) noData = some .prechargeAll
      ∧ decodeLines (lines true true false 0 0) noData = some .refresh
      ∧ decodeLines (lines false false true 0 0) noData = some .burstTerminate
      ∧ decodeLines (lines true true true 0 0x22) noData = some (.modeSet 0x22 0) := by decide

/-- The worked example of R189: a STATUS QUERY to unit address 145. -/
theorem test_status_query_frame : frameOf 145 statusQuery [] = [0x7E, 0x91, 0x00, 0x01, 0x00, 0x6E] := by decide

/-- The worked example of R162: bank 2, row 1,000, column 6. -/
theorem test_burst_words : (List.range 4).map (fun k => burstAddr 2 1000 6 k / 4) = [2049030, 2049031, 2049028, 2049029] := by
  decide

/-! ### Hypotheses met: for each statement, states and operands that meet its hypotheses, clause by clause -/

theorem witness_StepRunsFrontCommand :
    ({ State.reset with pending := [.noOperation] } : State).pending = .noOperation :: [] ∧ State.reset.pending = [] := by
  decide

theorem witness_WellFormedCommandsRun :
    Instr.wellFormed (.resetPin 0 16) = true ∧ Instr.wellFormed (.revisionWrite 2047 (lowOnly 1)) = true ∧ 2048 ≤ 2048
      ∧ 256 ≤ 256 := by decide

theorem idle {s : State} (h : s.pending = []) : step s = .next s := by simp [step, h]

theorem witness_StepKeepsArrayCanonical : ArrayCanonical State.reset ∧ step State.reset = .next State.reset :=
  ⟨by decide +kernel, idle (by decide +kernel)⟩

theorem witness_StepKeepsNothingToSelect : Settled (on polling) ∧ step (on polling) = .next (on polling) :=
  ⟨witness_run_settled.2.1, idle (by decide +kernel)⟩

theorem witness_StepKeepsQueueBounded : QueueBounded (on run) ∧ step (on run) = .next (on run) :=
  ⟨by decide +kernel, idle (by decide +kernel)⟩

/-- A part whose engine holds the bus with a write-back of record 7. -/
def holdingWriteBack : Chip :=
  (run.setEngine
    { Engine.reset with
      request := .holding, tenure := some { fillReads := 0, entries := 0, checkpoint := none, writeBack := true } }).setStore
    { Store.reset with cursor := 7, copy := some (7, active) }

/-- A WRITE burst of bank 0 under way, one word transferred, with the order tail it captured. -/
def writingBurst (c : Chip) : Chip :=
  c.setBurst
    { bank := 0, row := 8, col := 0, blind := false, autoPrecharge := false, next := 1
      data := .writing (List.replicate 4 { data := 1, mask := 0 })
      events := [.orderTail { addr := 65536, data := 1, mask := 0 }] }

theorem witness_ResetPinFinishesBegunTransfers :
    ArrayCanonical (on holdingWriteBack) ∧ holdingWriteBack.engine.request = .holding
      ∧ holdingWriteBack.store.copy = some (7, active)
      ∧ holdingWriteBack.engine.tenure
          = some { fillReads := 0, entries := 0, checkpoint := none, writeBack := true }
      ∧ (holdingWriteBack.tenureWrites
          { fillReads := 0, entries := 0, checkpoint := none, writeBack := true }).map (·.1) = [131072 + 128 * 7 + 32]
      ∧ run.engine.request ≠ .holding ∧ run.path.burst = none ∧ (writingBurst run).path.burst.isSome = true := by
  decide +kernel

theorem witness_ModeSetByPartState :
    BusFree State.reset ∧ State.reset.chip.part.state = .awaitMode ∧ modeValid 0x22 = true ∧ modeValid 0x32 = true
      ∧ modeValid 0x12 = false ∧ modeValid 0x42 = false ∧ BusFree (on run) ∧ run.part.state = .running
      ∧ BusFree (on (inState run .transparent)) ∧ (inState run .transparent).part.state = .transparent := by
  decide +kernel

theorem witness_InvalidModeSetSilencesThePart :
    BusFree (on polling) ∧ polling.part.state = .running ∧ modeValid 0 = false ∧ BusFree (on (inState polling .fill))
      ∧ (inState polling .fill).part.state = .fill ∧ BusFree (on (inState polling .configFault))
      ∧ (inState polling .configFault).part.state = .configFault := by decide +kernel

theorem witness_ConfigRetakeOnlyInConfigFault :
    BusFree (on (inState run .configFault)) ∧ (lowOnly 1).lo = true ∧ ArrayCanonical (on run)
      ∧ (inState run .configFault).part.state = .configFault ∧ BusFree (on run) ∧ run.part.state ≠ .configFault := by
  decide +kernel

theorem witness_AttnFollowsTheRing :
    run.part.state = .running ∧ run.journal.tail = run.journal.head
      ∧ (run.setJournal { run.journal with tail := 1 }).journal.tail ≠ run.journal.head
      ∧ (inState run .configFault).part.state = .configFault ∧ (inState run .fill).part.state = .fill := by
  decide +kernel

theorem witness_BankTableFollowsTheCommands : BusFree (on (openAt run 8)) := by decide +kernel

/-- A READ burst with auto-precharge of bank 0 under way. -/
def readingBurst (n : Nat) : Chip :=
  (openAt run 8).setBurst
    { bank := 0, row := 8, col := 0, blind := false, autoPrecharge := true, next := n, data := .reading [1, 2, 3, 4]
      events := [] }

theorem witness_BurstsKeepTheirGroupAndTheirCut :
    ((readingBurst 3).engine.request ≠ .holding ∧ (readingBurst 3).path.burst.map (·.next) = some 3
        ∧ (readingBurst 3).path.burst.map (·.events) = some [] ∧ (readingBurst 2).path.burst.map (·.next) = some 2
        ∧ (readingBurst 2).path.burst.map (·.data) = some (.reading [1, 2, 3, 4])
        ∧ (readingBurst 2).path.burst.map (·.blind) = some false)
      ∧ (BusFree (on run) ∧ Settled (on run) ∧ 1 ≤ 1 ∧ 3 < 4)
      ∧ ((writingBurst run).part.state = .running ∧ (writingBurst run).engine.request ≠ .holding
        ∧ (writingBurst run).path.burst.map (·.events) = some [.orderTail { addr := 65536, data := 1, mask := 0 }]
        ∧ (candidate { addr := 65536, data := 16, mask := 0 } run.orders.tail - run.orders.head).toNat = 16
        ∧ run.config.orderCapacity = 16) := by decide +kernel

/-- A record filled with a state code that is none of the four. -/
def oddRecord (c : Chip) (i : Nat) : Chip := c.updSub i fun r => { r with filled := true, oddState := some 4 }

theorem witness_ReadAnswersMergedWords :
    (BusFree (on (openAt run 8)) ∧ vget (openAt run 8).path.banks 0 = some 8
      ∧ State.reset.chip.part.state = .awaitMode ∧ run.kindOf 96 = .configOutcome
      ∧ (withSub run 2047 active).kindOf (131072 + 128 * 2047 + 124) = .live 2047 92
      ∧ ((withSub run 2047 active).sub 2047).filled = true ∧ (run.sub 2047).filled = false
      ∧ ((oddRecord run 2047).sub 2047).filled = true ∧ ((oddRecord run 2047).sub 2047).oddState = some 4)
      ∧ (BusFree (on run) ∧ vget run.path.banks 0 = none) := by decide +kernel

theorem witness_UnwatchedWritePasses :
    BusFree (on (openAt (inState run .awaitMode) 8)) ∧ ArrayCanonical (on run)
      ∧ vget (openAt (inState run .awaitMode) 8).path.banks 0 = some 8
      ∧ (openAt (inState run .transparent) 8).part.state = .transparent
      ∧ BusFree (on (openAt (inState run .transparent) 8)) ∧ BusFree (on run) ∧ vget run.path.banks 0 = none := by
  decide +kernel

/-- The region bases of a part are aligned as the capture's statement asks for it. -/
def aligned (c : Chip) : Bool :=
  [c.config.subscriber, c.config.lineUp, c.config.plant, c.config.orderRing].all (·.base % 64 == 0)

/-- A part in FILL or RUNNING with bank 0 open at a row. -/
def capturing (st : PartState) (row : BitVec 13) : Chip := openAt (inState run st) row

theorem witness_WritesAreCaptured :
    (BusFree (on (capturing .fill 16)) ∧ Settled (on (capturing .fill 16)) ∧ aligned (capturing .fill 16) = true
      ∧ ArrayCanonical (on run) ∧ vget (capturing .fill 16).path.banks 0 = some 16
      ∧ Memory.wf run.part.marks = true ∧ Memory.wf run.store.mirror = true
      ∧ (List.range 4).map (fun k => (capturing .fill 16).kindOf (burstAddr 0 16 0 k))
          = [.intent 0, .intent 4, .intent 8, .intent 12]
      ∧ (capturing .running 47).kindOf (burstAddr 0 47 480 0) = .intent (128 * 1999) ∧ 0 ∉ run.store.queue
      ∧ (List.range 4).map (fun k => (capturing .running 16).kindOf (burstAddr 0 16 4 k))
          = [.intent 16, .intent 20, .intent 24, .intent 28])
      ∧ (Settled (on (capturing .running 10)) ∧ (capturing .running 10).kindOf (burstAddr 0 10 0 3) = .lineUp 12
        ∧ (capturing .fill 11).kindOf (burstAddr 0 11 2 0) = .plant 8
        ∧ (capturing .running 12).kindOf (burstAddr 0 12 0 0) = .slot 0
        ∧ (capturing .running 12).kindOf (burstAddr 0 12 120 0) = .slot (32 * 15)
        ∧ (capturing .running 12).kindOf (burstAddr 0 12 4 1) = .slot 20
        ∧ (capturing .fill 8).kindOf (burstAddr 0 8 0 0) = .orderTail)
      ∧ ((List.range 2).map (fun k => (capturing .running 8).kindOf (burstAddr 0 8 0 k)) = [.orderTail, .journalHead]
        ∧ (capturing .running 8).kindOf (burstAddr 0 8 1 0) = .journalHead
        ∧ (capturing .running 8).kindOf (burstAddr 0 8 1 3) = .orderTail
        ∧ BusFree (on (capturing .running 8)) ∧ Settled (on (capturing .running 8))) := by decide +kernel

/-- The regions of a part that hold an address, by their place in the map. -/
def regionsAt (c : Chip) (a : Nat) : List Nat :=
  let v := c.config
  (List.range 6).filter fun k =>
    ([v.status, v.subscriber, v.lineUp, v.plant, v.orderRing, v.journalRing].getD k default).holds a

theorem witness_ProtectedWriteIsHeldBack :
    (run.part.mapInForce = true ∧ run.configBase = 0
        ∧ [65536, 65536 + 9215, 131072, 131072 + 262143, 81920, 90112, 98304 + 511, 102400 + 2047].map (regionsAt run)
          = [[0], [0], [1], [1], [2], [3], [4], [5]]
        ∧ regionsAt run 256 = [] ∧ State.reset.chip.part.mapInForce = false
        ∧ [72, 95, 100, 127, 160, 255].map run.kindOf = List.replicate 6 .config)
      ∧ BusFree (on (openAt run 8)) ∧ vget (openAt run 8).path.banks 0 = some 8
      ∧ writeRule ((openAt run 8).kindOf (burstAddr 0 8 2 0)) .running = .protect ∧ (14 : BitVec 4) ≠ 15 := by
  decide +kernel

theorem witness_GrantComposesSixteenBursts :
    (run.engine.request ≠ .requesting
      ∧ (run.setEngine { run.engine with request := .requesting }).engine.request = .requesting
      ∧ (run.noticeOf 0 (.clockHeld 10)).journal.queue.map (·.writing) = [false])
      ∧ (BusFree (on run) ∧ run.engine.request = .idle ∧ run.active = true
        ∧ BusFree (on (run.setEngine { run.engine with request := .requesting }))) := by decide +kernel

/-- A queue of one entry, handed to a tenure. -/
def oneEntry : Chip :=
  let c := run.noticeOf 0 (.clockHeld 10)
  c.setEngine
    { c.engine with
      request := .holding, tenure := some { fillReads := 0, entries := 1, checkpoint := none, writeBack := false } }

/-- A CYCLE TOTAL entry as its bytes stand in a ring: 11.6 written out, with the final mark, no saturation and 2
purchases in the index field, the remainder in the short detail. -/
theorem test_cycle_total_bytes :
    ({ index := 2047, minute := some 100, account := 0x01020304, amount := -1, cycle := 3
       body := .cycleTotal true false 2 1439 (-3) 2 60 65535 } : Entry).bytes 4097 =
      [0x84, 3, 0x01, 0x10, 100, 0, 0, 0, 0xFF, 0x4F, 0x9F, 0x05, 4, 3, 2, 1, 0xFF, 0xFF, 0xFF, 0xFF,
       0xFD, 0xFF, 0xFF, 0xFF, 2, 0, 0, 0, 60, 0, 0xFF, 0xFF] := by decide

theorem witness_TenureCompletionWritesItsTransfers :
    (oneEntry.engine.request = .holding
      ∧ oneEntry.engine.tenure = some { fillReads := 0, entries := 1, checkpoint := none, writeBack := false }
      ∧ (oneEntry.journal.queue.take 1).map (·.entry.body) = [.clockHeld 10] ∧ oneEntry.moneyWaiting = false
      ∧ (oneEntry.tenureWrites { fillReads := 0, entries := 1, checkpoint := none, writeBack := false }).map
          (fun x => (x.1, x.2.length)) = [(102400, 32)])
      ∧ ArrayCanonical (on holdingWriteBack) ∧ holdingWriteBack.engine.request = .holding
      ∧ holdingWriteBack.engine.tenure
          = some { fillReads := 0, entries := 0, checkpoint := none, writeBack := true }
      ∧ holdingWriteBack.store.copy = some (7, active) ∧ holdingWriteBack.moneyWaiting = false
      ∧ (default : Checkpoint).passMinute = none ∧ 4294967294 < 4294967295 := by decide +kernel

/-- A part in FILL whose CONFIG BLOCK reads are under way, over an array with some bytes at the block. -/
def filling (block : List Byte) : State :=
  { on (((Chip.reset 0 .power).setPart
        { Part.reset 0 .power with state := .fill, stage := .configBlock, fillNext := 0 }).setEngine
      { Engine.reset with
        request := .holding
        tenure := some { fillReads := 5, entries := 0, checkpoint := none, writeBack := false } }) with
    array := Memory.writeBytes [] 0 block }

/-- The 68 bytes of a configuration block (11.2) with the values of `cfg`. -/
def block : List Byte :=
  [3, 0, 0, 0,  0, 0, 1, 0, 0, 0x24, 0, 0,  0, 0, 2, 0, 0, 0, 4, 0,  0, 0x40, 1, 0, 0xA0, 4, 0, 0,
   0, 0x60, 1, 0, 0x10, 0x14, 0, 0,  0, 0x80, 1, 0, 0, 2, 0, 0,  0, 0x90, 1, 0, 0, 8, 0, 0,
   16, 0, 64, 0,  0, 0, 0, 0, 0xA0, 5, 0, 0,  3, 0, 60, 0]

/-- A block written out from the layout of 11.2 reads as its values, and passes or fails checks 1 to 6 of R182. -/
theorem test_config_block :
    configAt (filling block).array 0 = cfg ∧ cfg.checkMap 0 = .none ∧ cfg.calendarOk = true
      ∧ { cfg with orderCapacity := 24, orderRing := { base := 98304, size := 768 } }.checkMap 0 = .ringSize
      ∧ { cfg with status := { base := 192, size := 9216 } }.checkMap 0 = .overlap
      ∧ { cfg with lineUp := { base := 81920, size := 1180 } }.checkMap 0 = .regionSize
      ∧ { cfg with plant := { base := 67107904, size := 5136 } }.checkMap 0 = .regionPlace
      ∧ { cfg with creditThreshold := 1441 }.calendarOk = false := by decide +kernel

theorem witness_FillChecksTheConfiguration :
    Settled (filling block) ∧ (filling block).chip.part.state = .fill
      ∧ (filling block).chip.part.stage = .configBlock ∧ (filling block).chip.engine.request = .holding
      ∧ (configAt (filling block).array (filling block).chip.configBase).format = 3
      ∧ Settled (filling []) ∧ (configAt (filling []).array 0).format ≠ 3 := by decide +kernel

/-- Record 0 dirty, with or without a money entry in the queue; record 1 dirty with the cursor at 0. -/
def dirty (c : Chip) (i : Nat) : Chip := c.markDirty i

theorem witness_WriteBackCursorActs :
    ((dirty run 0).running = true ∧ (dirty run 0).store.copy = none ∧ ((dirty run 0).sub 0).dirty = true
        ∧ (dirty run 0).moneyWaitsFor 0 = false)
      ∧ ((dirty (run.money (run.creditEntry 0 none)) 0).moneyWaitsFor 0 = true
        ∧ ((dirty (run.money (run.creditEntry 0 none)) 0).sub 0).dirty = true)
      ∧ (((dirty run 1).sub 0).dirty = false ∧ (dirty run 1).anyDirty = true) := by decide +kernel

/-! #### Takes -/

/-- A line-up mirror that passes the checks: 32 sources with arm level 1, trigger level 0, counts 1. -/
def goodLineUp : Memory := (List.range 32).flatMap fun k => [(80 + 8 * k, 1), (82 + 8 * k, 1), (83 + 8 * k, 1)]

def withLineUp (c : Chip) (m : Memory) : Chip := c.setLineUp { c.lineUp with mirror := m }

/-- A part in FILL with its engine REQUESTING, and one valid mark set. -/
def captureInFill (c : Chip) : Chip :=
  (c.setEngine { Engine.reset with request := .requesting }).setPart
    { c.part with state := .fill, stage := .subscriber, marks := [(81921, 1)] }

theorem witness_LineUpTakeChecksThenTakes :
    (Settled (on run) ∧ ArrayCanonical (on run) ∧ BusFree (on run) ∧ run.running = true
        ∧ run.part.mapInForce = true ∧ touchesWord (lowOnly 5) = true ∧ run.kindOf 81920 = .lineUp 0
        ∧ run.lineUp.held = false ∧ run.lineUp.gen = none ∧ run.sweep = none
        ∧ checkLineUp (Memory.writeHost [] 81920 (halfWord (lowOnly 5) 81920)) = some .sourceSetting)
      ∧ (Settled (on (withLineUp run goodLineUp))
        ∧ checkLineUp (Memory.writeHost goodLineUp 81920 (halfWord (lowOnly 5) 81920)) = none)
      ∧ (Settled (on (run.setSweep (some 7))) ∧ (run.setSweep (some 7)).sweep.isSome = true)
      ∧ (let c := captureInFill run
        let g := c.setLineUp { c.lineUp with gen := some 6 }
        Settled (on c) ∧ BusFree (on c) ∧ c.part.state = .fill ∧ c.part.mapInForce = true
          ∧ c.kindOf 81920 = .lineUp 0 ∧ Memory.wf c.part.marks = true ∧ c.lineUp.gen = none
          ∧ Settled (on g) ∧ BusFree (on g) ∧ g.part.state = .fill ∧ g.lineUp.gen = some 6
          ∧ 6 ≠ takeWord (Memory.writeHost [] 81920 (halfWord (lowOnly 5) 81920)) ∧ g.lineUp.held = false
          ∧ g.sweep = none ∧ (run.setLineUp { run.lineUp with gen := some 5 }).lineUp.gen = some 5
          ∧ takeWord (Memory.writeHost [] 81920 (halfWord (lowOnly 5) 81920)) = 5
          ∧ (run.setLineUp { run.lineUp with held := true }).lineUp.held = true
          ∧ Settled (on (run.setLineUp { run.lineUp with held := true }))) := by decide +kernel

/-- The sweep at a port, with a HELD take of a mirror. -/
def sweeping (p : Nat) (held : Bool) (m : Memory) : Chip :=
  (run.setLineUp { run.lineUp with mirror := m, held := held }).setSweep (some p)

theorem witness_SweepVisitRecomputesOnePort :
    (run.running = true ∧ (sweeping 0 false []).sweep = some 0 ∧ (sweeping 2558 false []).sweep = some 2558)
      ∧ ((sweeping 2559 false []).sweep = some 2559 ∧ (sweeping 2559 false []).lineUp.held = false)
      ∧ ((sweeping 2559 true []).lineUp.held = true ∧ (sweeping 2559 true []).lineUp.gen ≠ some (takeWord [])
        ∧ checkLineUp [] = some .sourceSetting)
      ∧ ((sweeping 2559 true goodLineUp).lineUp.gen ≠ some (takeWord goodLineUp) ∧ checkLineUp goodLineUp = none) := by
  decide +kernel

/-- A plant mirror with the four roots only. -/
def roots : Memory := (List.range 4).flatMap fun e => [(16 + 8 * e, 1), (17 + 8 * e, 1)]

def withPlant (c : Chip) (m : Memory) : Chip := c.setPlant { c.plant with mirror := m }

theorem withPlant_mirror (c : Chip) (m : Memory) : (withPlant c m).plant.mirror = m := rfl

/-- The roots' mirror with a new take word. -/
def newRoots : Memory := Memory.writeHost roots 90112 (halfWord (lowOnly 5) 90112)

theorem no_owner (c : Chip) (h : c.ports = Vector.replicate 2560 Port.reset) (p : Nat) : (c.port p).owner = none := by
  show (vget c.ports p).owner = none
  rw [h]
  by_cases hp : p < 2560
  · rw [vget_replicate _ _ hp]; rfl
  · simp [vget, hp]; rfl

/-- A mirror of four roots and no unit passes the checks of a plant take where no port is owned. -/
theorem roots_pass (c : Chip) (m : Memory) (hp : c.ports = Vector.replicate 2560 Port.reset) (hm : c.plant.mirror = m)
    (h1 : (List.range 4).all (rootOk m) = true) (h2 : units.all (kindOk m) = true)
    (h3 : units.all (parentOk m) = true) (h4 : units.all (fun e => !(mirrorElement m e).inUse) = true) :
    c.checkPlant = none := by
  have ho : (List.range 640).all c.ownedOk = true := by simp [Chip.ownedOk, no_owner c hp]
  have ha : units.all (addressOk c.mirrorElements) = true := by
    refine List.all_eq_true.2 fun e he => ?_
    have hu := List.all_eq_true.1 h4 e he
    have hl : e < 640 := List.mem_range.1 (List.mem_filter.1 he).1
    have hr : (vget c.mirrorElements e).record = mirrorElement m e := by
      simp [Chip.mirrorElements, vget, hl, hm]
    simp only [addressOk, hr, hu, Bool.true_or]
  unfold Chip.checkPlant
  simp only [hm, h1, h2, h3, ha, ho, Bool.not_true, Bool.false_eq_true, if_false]

theorem new_roots_pass : (withPlant polling newRoots).checkPlant = none :=
  roots_pass _ newRoots rfl (withPlant_mirror _ _) (by decide +kernel) (by decide +kernel) (by decide +kernel) (by decide +kernel)

/-- An outage record of an element. -/
def outageOf (e : Nat) (st : OutageState) : Outage :=
  { id := 7, kind := .plant, object := e, state := st, start := none, stop := none, affected := 0, cause := .none
    acknowledged := false }

/-- The polled plant with its four roots ANSWERING and the node's outage open; branches 1 to 3 have just polled. -/
def rooted : Chip :=
  let c := plantOf polling ([0, 1, 2, 3].map fun e => (e, unit .branch 0 0 .answering))
  let d := [0, 2, 3].foldl (fun c b => c.updBranch b fun r =>
    { r with link := .listening, hold := some (exchange (if b = 0 then 4 else b) none 1) }) c
  (d.updBranch 1 fun r => { r with link := .idle }).setOutages { c.outages with records := [outageOf 4 .opened] }

theorem witness_PlantTakeChecksThenTakes :
    (Settled (on polling) ∧ ArrayCanonical (on polling) ∧ BusFree (on polling) ∧ polling.running = true
        ∧ polling.part.mapInForce = true ∧ touchesWord (lowOnly 5) = true ∧ polling.kindOf 90112 = .plant 0
        ∧ polling.plant.gen = none
        ∧ (withPlant polling (Memory.writeHost [] 90112 (halfWord (lowOnly 5) 90112))).checkPlant = some .rootKind)
      ∧ (Settled (on (withPlant polling roots))
        ∧ classOf polling.elements (withPlant polling roots).mirrorElements 5 = .removed
        ∧ classOf polling.elements (withPlant polling roots).mirrorElements 0 = .unchanged)
      ∧ (let c := withPlant rooted newRoots
        Settled (on c) ∧ (∀ b : Fin 4, c.classAt b = .unchanged ∧ (c.element b).sup.state = .answering)
          ∧ (c.branch 0).hold.isSome = true ∧ c.classAt 4 = .removed
          ∧ ((c.branch 0).hold.map fun x => (x.element, x.discard)) = some (4, false)
          ∧ ((c.branch 1).hold = none ∧ (c.branch 1).link = .idle)
          ∧ c.journal.queue.length + (c.outages.records.filter c.withdrawn).length ≤ 56
          ∧ c.outages.records = [outageOf 4 .opened])
      ∧ (let c := captureInFill polling
        let g := c.setPlant { c.plant with gen := some 6 }
        Settled (on c) ∧ BusFree (on c) ∧ c.part.state = .fill ∧ c.part.mapInForce = true
          ∧ c.kindOf 90112 = .plant 0 ∧ Memory.wf c.part.marks = true ∧ c.plant.gen = none
          ∧ Settled (on g) ∧ g.part.state = .fill ∧ g.plant.gen = some 6
          ∧ 6 ≠ takeWord (Memory.writeHost [] 90112 (halfWord (lowOnly 5) 90112))
          ∧ takeWord (Memory.writeHost [] 90112 (halfWord (lowOnly 5) 90112)) = 5
          ∧ (polling.setPlant { polling.plant with gen := some 5 }).plant.gen = some 5) := by decide +kernel

/-- Record i at the head of the take queue, with an intent mirror. -/
def queued (c : Chip) (i : Nat) (m : Memory) : Chip :=
  (c.updSub i fun r => { r with filled := true }).setStore { c.store with queue := [i], mirror := m }

/-- A part in FILL whose last n reads of a stage are under way. -/
def lastReads (g : FillStage) (next n : Nat) (c : Chip) : State :=
  on ((c.setPart
        { Part.reset 0 .power with
          state := .fill, stage := g, fillNext := next, config := some cfg, mapInForce := true }).setEngine
      { Engine.reset with
        request := .holding
        tenure := some { fillReads := n, entries := 0, checkpoint := none, writeBack := false } })

/-- The last read of PLANT over an empty array leaves the mirror of the roots as it is. -/
theorem last_read_keeps_roots :
    forIndices 1 (fun m k => (lastReads .plant 320 1 (Chip.reset 0 .power)).chip.deliverTo [] m 90112 (16 * (320 + k))
      fun x => decide (4 ≤ x ∧ x < 8)) roots = roots := by decide +kernel

theorem roots_pass_at_the_fill :
    (withPlant (lastReads .plant 320 1 (Chip.reset 0 .power)).chip roots).checkPlant = none :=
  roots_pass _ roots rfl (withPlant_mirror _ _) (by decide +kernel) (by decide +kernel) (by decide +kernel) (by decide +kernel)

theorem witness_FillTakesAndChecks :
    (LastReads (lastReads .checkpoint 0 2 (Chip.reset 0 .power)) 2
        ∧ Memory.nat [(128, 0x20), (129, 0x48), (137, 6), (141, 6)] 128 2 = 0x4820
        ∧ Memory.nat [(128, 0x20), (129, 0x48), (137, 6), (141, 6)] 136 4 = 1536)
      ∧ (LastReads (lastReads .plant 320 1 (withPlant (Chip.reset 0 .power) roots)) 1
        ∧ (Chip.reset 0 .power).plant.gen = none
        ∧ (lastReads .plant 320 1 (Chip.reset 0 .power)).chip.checkPlant = some .rootKind
        ∧ Memory.wf roots = true)
      ∧ (LastReads (lastReads .lineUp 73 1 (withLineUp (Chip.reset 0 .power) goodLineUp)) 1
        ∧ (Chip.reset 0 .power).lineUp.gen = none ∧ checkLineUp [] = some .sourceSetting
        ∧ checkLineUp goodLineUp = none
        ∧ forIndices 1 (fun m k => (lastReads .lineUp 73 1 (Chip.reset 0 .power)).chip.deliverTo [] m 81920
            (16 * (73 + k)) fun x => decide (4 ≤ x ∧ x < 8)) goodLineUp = goodLineUp
        ∧ ((Chip.reset 0 .power).point 63).condition = .idle ∧ ((Chip.reset 0 .power).source 31).state ≠ .tripped) := by
  decide +kernel

/-- Two ACTIVE records that both record port 20, on a plant whose ports no record owns. -/
def claiming : Chip := withSub (withSub plant 3 active) 2047 active

theorem claiming_owned (i : Nat) (o : Owned) (h : (claiming.sub i).live.owned = some o) : o.port < 4 := by
  have key : ∀ (v : Vector Subscriber 2048) (k : Nat),
      (∀ j o, (vget v j).live.owned = some o → o.port < 4) →
      ∀ j o, (vget (vupd v k fun r => { r with live := active, filled := true }) j).live.owned = some o → o.port < 4 := by
    intro v k hv j o ho
    by_cases hk : k < 2048
    · by_cases hj : j = k
      · subst hj; rw [vget_vupd_same _ _ _ hk] at ho
        obtain rfl := Option.some.inj ho
        decide
      · rw [vget_vupd_other _ _ _ _ hj] at ho; exact hv j o ho
    · rw [show vupd v k (fun r => { r with live := active, filled := true }) = v by simp [vupd, hk]] at ho
      exact hv j o ho
  refine key _ 2047 (key (Vector.replicate 2048 Subscriber.reset) 3 fun j o ho => ?_) i o h
  by_cases hj : j < 2048
  · rw [vget_replicate _ _ hj] at ho; cases ho
  · simp [vget, hj] at ho; cases ho

theorem claiming_unowned (p : Nat) : (claiming.port p).owner = none := no_owner _ rfl p

theorem witness_FillRebuildsAndEnds :
    (oddStateAt [(1, 4)] 0 = some 4 ∧ oddStateAt [(1, 3)] 0 = none
        ∧ (lastReads .subscriber (8 * 2046 + 7) 1 (Chip.reset 0 .power)).chip.part.fillNext = 8 * 2046 + 7
        ∧ (lastReads .subscriber (8 * 2047 + 1) 1 (Chip.reset 0 .power)).chip.part.fillNext = 8 * 2047 + 1
        ∧ (lastReads .subscriber 0 16 (Chip.reset 0 .power)).chip.part.fillNext + 16 < 16384
        ∧ (lastReads .subscriber (16384 - 17) 16 (Chip.reset 0 .power)).chip.part.fillNext + 16 = 16383
        ∧ (lastReads .subscriber 0 16 (Chip.reset 0 .power)).chip.engine.request = .holding
        ∧ 2046 ∈ (queued (Chip.reset 0 .power) 2046 []).store.queue ∧ 2046 ∉ (Chip.reset 0 .power).store.queue)
      ∧ ((claiming.sub 3).live.state = .active ∧ (claiming.sub 2047).live.owned = (claiming.sub 3).live.owned
        ∧ ((oddRecord claiming 3).sub 3).oddState ≠ none ∧ (claiming.sub 3).oddState = none
        ∧ claiming.isTap 5 = true ∧ (claiming.intent 3).revision = (claiming.sub 3).live.takenRev)
      ∧ (LastReads (lastReads .subscriber 16383 1 (Chip.reset 0 .power)) 1
        ∧ LastReads (lastReads .orderRing 32 1 plant) 1
        ∧ (plantOf (Chip.reset 0 .power) [(0, unit .branch 0 0 .unverified)]).branch 0 = Branch.reset
        ∧ ((plantOf (Chip.reset 0 .power) [(0, unit .branch 0 0 .unverified)]).element 0).sup.state = .unverified) := by
  decide +kernel

theorem witness_RevisionWriteQueuesTheRecord :
    (Settled (on run) ∧ ArrayCanonical (on run) ∧ BusFree (on run) ∧ run.running = true
        ∧ run.part.mapInForce = true ∧ touchesWord (lowOnly 5) = true
        ∧ run.kindOf (131072 + 128 * 2047) = .intent (128 * 2047) ∧ 2047 ∉ run.store.queue)
      ∧ (Settled (on (queued run 2047 [])) ∧ 2047 ∈ (queued run 2047 []).store.queue) := by decide +kernel

/-- The intent of record 0: revision 5 and the given status, zone, element and port. -/
def intent (status zone element port : Byte) : Memory :=
  Memory.writeBytes [] 0 [5, 0, status, zone, 1, 0, element, 0, port]

/-- A take of record 0 at its turn. -/
def take (m : Memory) : Chip := queued polling 0 m

theorem witness_RevisionTakeRepeatsOrRefuses :
    (Settled (on (take [])) ∧ (take []).takeTurn = true ∧ (take []).servable = some 0
        ∧ ((take []).intent 0).revision = ((take []).sub 0).live.takenRev)
      ∧ ((take (intent 3 0 5 0)).intent 0).status = 3
      ∧ ((take (intent 1 8 5 0)).intent 0).zone = 8
      ∧ ((take (intent 1 7 4 0)).isTap 4 = false)
      ∧ ((take (intent 1 7 5 4)).intent 0).port = 4
      ∧ (((take (intent 2 7 5 3)).updPort 23 fun r => { r with owner := some 9 }).port 23).owner = some 9
      ∧ ((withSub (take (intent 1 0 5 0)) 0 { Live.free with state := .final }).sub 0).live.state = .final := by
  decide +kernel

theorem witness_RevisionTakeEntersService :
    let c := take (intent 1 7 5 3)
    c.takeTurn = true ∧ c.servable = some 0 ∧ (c.intent 0).revision ≠ (c.sub 0).live.takenRev
      ∧ (c.intent 0).status = 1 ∧ (c.intent 0).zone = 7 ∧ (c.intent 0).element = 5 ∧ c.isTap 5 = true
      ∧ (c.intent 0).port = 3 ∧ (c.port 23).owner = none ∧ (c.sub 0).live.state ≠ .final
      ∧ ((withSub c 0 active).ownedPort 0 = some 20 ∧ (withSub c 0 active).servable = some 0) := by decide +kernel

theorem witness_RevisionTakeVacates :
    let c := take (intent 0 0 0 0)
    c.takeTurn = true ∧ c.servable = some 0 ∧ (c.intent 0).revision ≠ (c.sub 0).live.takenRev
      ∧ (c.intent 0).status = 0 ∧ (c.sub 0).live.state = .free
      ∧ ((withSub c 0 active).sub 0).live.state = .active ∧ (withSub c 0 active).ownedPort 0 = some 20
      ∧ ((withSub c 0 active).sub 0).live.cycle = c.clock.cal.cycle ∧ active.outSince = none
      ∧ active.purchases = []
      ∧ (withSub c 0 { active with heldMinutes := 60, outSince := some 5 }).config.creditThreshold = 60
      ∧ (withSub c 0 active).takeTurn = true ∧ (withSub c 0 active).servable = some 0
      ∧ { active with cycle := 2 }.cycle ≠ c.clock.cal.cycle ∧ (withSub c 0 active).journal.queue.length < 64
      ∧ (let q := c.setJournal { c.journal with queue := List.replicate 64 default }
        q.takeTurn = true ∧ q.servable = some 0 ∧ q.journal.queue.length = 64)
      ∧ 52 + (List.replicate 4 (default : Purchase)).length ≤ 56 := by decide +kernel

/-- A FINAL record 2047 with a held run of exactly the credit threshold, its take stopped at the credit. -/
def stopped : Chip :=
  let c := withSub run 2047 { active with state := .final, heldMinutes := 60, heldNumerator := -1, outSince := some 5 }
  c.setStore { c.store with hold := some (.take 2047 .credit) }

/-! #### Links -/

/-- Branch 0 in a state of the link, its poll of node 4 at an attempt. -/
def atAttempt (link : LinkState) (n : Nat) : Chip := hold plant link (exchange 4 none n)

/-- The rack link in a state, with an exchange at an attempt. -/
def rackAt (link : RackLink) (job : RackJob) (n : Nat) : Chip :=
  run.setRack { run.rack with link := link, hold := some { job := job, attempt := n, frame := job.frame } }

/-- A discarded exchange of branch 0, with the last attempt made. -/
def discarded : Chip := hold run .listening { exchange 4 none 1 with last := true, discard := true }

theorem witness_FramesSentAndRejected :
    (Settled (on (atAttempt .sending 1)) ∧ ((atAttempt .sending 1).branch 0).link = .sending)
      ∧ (Settled (on (atAttempt .listening 1)) ∧ ((atAttempt .listening 1).branch 0).link = .listening
        ∧ ((atAttempt .listening 1).branch 0).hold.map (·.discard) = some false
        ∧ Settled (on discarded) ∧ (discarded.branch 0).hold.map (·.discard) = some true)
      ∧ (Settled (on (rackAt .sending (.query 7) 1)) ∧ (rackAt .sending (.query 7) 1).rack.link = .sending)
      ∧ (Settled (on (rackAt .listening (.query 7) 1))
        ∧ (rackAt .listening (.query 7) 1).rack.link = .listening) := by decide +kernel

/-- The third attempt of a PORT LOAD of port 20, its tap with n unanswered exchanges in a row. -/
def losing (n : Nat) : Chip :=
  ((hold plant .listening (exchange 5 (some 20) 3)).updPort 20 fun r => { r with condition := .inFlight }).updSup 5
    fun r => { r with unanswered := n }

theorem witness_WindowClosedRetriesOrCounts :
    (Settled (on (atAttempt .listening 2)) ∧ ((atAttempt .listening 2).branch 0).hold = some (exchange 4 none 2)
        ∧ (exchange 4 none 2).attempt < 3 ∧ (exchange 4 none 2).last = false)
      ∧ (Settled (on (atAttempt .listening 3)) ∧ 3 ≤ (exchange 4 none 3).attempt)
      ∧ (Settled (on discarded) ∧ discarded.linkOpen 0 = false)
      ∧ (Settled (on (losing 1)) ∧ Settled (on (losing 2)) ∧ ((losing 1).branch 0).link = .listening
        ∧ ((losing 1).branch 0).hold = some (exchange 5 (some 20) 3) ∧ (exchange 5 (some 20) 3).element = 20 / 4
        ∧ ((losing 1).element 5).record.inUse = true ∧ ((losing 1).element 5).record.kind = .tap
        ∧ ((losing 1).element 5).sup.state = .answering ∧ ((losing 1).port 20).condition = .inFlight
        ∧ (∀ k, k < 4 → 20 ∉ ((losing 1).branch k).dirty) ∧ ((losing 1).element 5).sup.unanswered < 2
        ∧ ((losing 2).element 5).sup.unanswered = 2 ∧ ((losing 2).element 5).sup.state = .answering) := by
  decide +kernel

/-- Node 4 ANSWERING with n unanswered exchanges in a row. -/
def unanswered (n : Nat) : Chip := (atAttempt .listening 3).updSup 4 fun r => { r with unanswered := n, runStart := some 98 }

theorem witness_UnansweredPollsMakeAnElementFail :
    (((unanswered 0).branch 0).link = .listening ∧ ((unanswered 0).branch 0).hold = some (exchange 4 none 3)
        ∧ ((unanswered 0).element 4).sup.state = .answering ∧ ((unanswered 0).element 4).sup.unanswered = 0)
      ∧ ((unanswered 1).element 4).sup.unanswered = 1
      ∧ (((unanswered 2).element 4).sup.unanswered = 2 ∧ ((unanswered 2).element 4).sup.state = .answering) := by
  decide +kernel

/-- Node 4 in another supervision state, polled. -/
def polled (st : Supervision) : Chip := polling.updSup 4 fun r => { r with state := st }

/-- The plant with element 5 of a kind in a supervision state, polled, its hysteresis at a state and count. -/
def reporting (kind : ElementKind) (st : Supervision) (level : Hysteresis) (low : Nat) : Chip :=
  (hold plant .listening (exchange 5 none 1)).updElement 5 fun e =>
    { e with record := { e.record with kind := kind, arm := 20, trigger := 10 }
             sup := { e.sup with state := st, level := level, low := low, answered := 1 }, heard := some 3 }

theorem witness_StatusReplyAnswersThePoll :
    ((polling.branch 0).link = .listening ∧ (polling.branch 0).hold = some (exchange 4 none 1)
        ∧ (exchange 4 none 1).address < 1024 ∧ (polling.element 4).record.kind = .node
        ∧ (polling.element 4).sup.state = .answering)
      ∧ (((polled .unverified).element 4).sup.state = .unverified
        ∧ ((polled .unverified).branch 0).hold = some (exchange 4 none 1)
        ∧ ((polled .failing).element 4).sup.state = .failing ∧ ((polled .suppressed).element 4).sup.state = .suppressed)
      ∧ (((reporting .amplifier .answering .armed 2).branch 0).hold = some (exchange 5 none 1)
        ∧ ((reporting .amplifier .answering .armed 2).element 5).record.kind = .amplifier
        ∧ ((reporting .amplifier .answering .armed 2).element 5).sup.low + 1 = 3
        ∧ ((reporting .amplifier .unverified .tripped 0).element 5).sup.state = .unverified
        ∧ ((reporting .amplifier .failing .tripped 0).element 5).sup.answered = 1)
      ∧ (((reporting .tap .answering .unarmed 0).element 5).record.kind = .tap
        ∧ ((reporting .tap .answering .unarmed 0).element 5).record.inUse = true
        ∧ ((reporting .tap .answering .unarmed 0).element 5).heard = some 3
        ∧ ((reporting .tap .answering .unarmed 0).port 20).applied = .off
        ∧ ((reporting .tap .answering .unarmed 0).element 5).doubt = false
        ∧ ((reporting .tap .unverified .unarmed 0).element 5).sup.state = .unverified
        ∧ ((reporting .tap .failing .unarmed 0).element 5).sup.answered = 1) := by decide +kernel

/-- Port 20 IN FLIGHT with a sent state and a mismatch count. -/
def loading (n : Nat) : Chip :=
  (hold plant .listening (exchange 5 (some 20) 1)).updPort 20 fun r =>
    { r with desired := .on 1 0, sent := some (.on 1 0), mismatch := n, condition := .inFlight }

/-- Record 3 owns port 20, whose load is under way, with a held run of n minutes and one OPENING purchase of position 5. -/
def ownedLoad (n : Nat) : Chip :=
  (withSub (loading 2) 3
    { active with
      heldMinutes := n, heldNumerator := -1, outSince := some 40
      purchases := [{ position := 5, state := .opening, start := 90, stop := 101, price := 500, dark := 0 }] }).updPort 20
    fun r => { r with owner := some 3 }

theorem witness_PortReplySettlesThePort :
    (((loading 0).branch 0).link = .listening ∧ ((loading 0).branch 0).hold = some (exchange 5 (some 20) 1)
      ∧ (exchange 5 (some 20) 1).address < 1024 ∧ ((loading 0).element 5).sup.state = .answering
      ∧ ((loading 0).element 5).record.kind = .tap ∧ ((loading 0).element 5).record.inUse = true
      ∧ ((loading 1).port 20).mismatch + 1 < 3 ∧ ((loading 0).port 20).sent = some (.on 1 0))
      ∧ ((∀ k, k < 4 → 20 ∉ ((loading 2).branch k).dirty) ∧ ((loading 2).port 20).mismatch + 1 = 3
        ∧ ((loading 2).port 20).owner = none ∧ ((loading 0).port 20).desired = .on 1 0)
      ∧ (((ownedLoad 60).port 20).owner = some 3 ∧ ((ownedLoad 60).sub 3).live.appliedOn = true
        ∧ ((ownedLoad 60).sub 3).live.outSince.isSome = true
        ∧ ((ownedLoad 60).sub 3).live.cycle = (ownedLoad 60).clock.cal.cycle ∧ 1 ≤ (ownedLoad 60).clock.cal.m
        ∧ (ownedLoad 60).config.creditThreshold ≤ ((ownedLoad 60).sub 3).live.heldMinutes
        ∧ (ownedLoad 60).journal.queue.length < 64
        ∧ ((ownedLoad 59).sub 3).live.heldMinutes < (ownedLoad 59).config.creditThreshold) := by decide +kernel

/-- Root 0 in a supervision state, with a carrier state. -/
def carrier (c : Chip) (st : Supervision) (k : Carrier) : Chip :=
  (c.updSup 0 fun r => { r with state := st }).updBranch 0 fun r => { r with carrier := k, timing := .low }

theorem witness_CarrierDecidesTheRoot :
    (polling.part.state ≠ .transparent ∧ ((carrier polling .answering .present).branch 0).carrier ≠ .lost
        ∧ ((carrier polling .answering .present).element 0).sup.state = .answering
        ∧ (carrier polling .answering .present).inSubtree 0 5 = true)
      ∧ (((carrier polling .failing .lost).branch 0).carrier ≠ .present
        ∧ ((carrier polling .failing .lost).element 0).sup.state = .failing
        ∧ ((carrier polling .unverified .unsettled).element 0).sup.state = .unverified)
      ∧ (Settled State.reset ∧ State.reset.chip.running = false
        ∧ (State.reset.chip.branch 0).carrier = .unsettled)
      ∧ ((run.branch 3).input ≠ true ∧ (run.branch 3).input = false ∧ run.part.state ≠ .transparent) := by decide +kernel

/-- Position 0 USED with primary 1 and backup 2, and the two sources' states. -/
def substituted (primary backup : Hysteresis) (b : Option Nat) : Chip :=
  ((run.setLineUp
    { run.lineUp with
      current := { run.lineUp.current with
        channels := vupd run.lineUp.current.channels 0 fun _ =>
          { used := true, primary := 1, backup := b, tier := 0 } } }).updSource 1 fun r =>
    { r with state := primary }).updSource 2 fun r => { r with state := backup }

/-- Position 0 USED, its CROSSPOINT SET of source 1 at a mismatch count. -/
def setting0 (n : Nat) : Chip :=
  let c := substituted .armed .armed none
  c.setRack
    { c.rack with
      link := .listening, hold := some { job := .set 0 1, attempt := 1, frame := (RackJob.set 0 1).frame }
      points := vupd c.rack.points 0 fun r => { r with condition := .inFlight, mismatch := n } }

theorem witness_RackRepliesReachTheirOwners :
    (Settled (on (rackAt .listening (.set 63 31) 1)) ∧ (rackAt .listening (.set 63 31) 1).rack.link = .listening)
      ∧ (Settled (on (rackAt .listening (.query 7) 1)) ∧ (rackAt .listening (.query 7) 1).rack.link = .listening
        ∧ (rackAt .listening (.query 7) 1).rack.hold
            = some { job := .query 7, attempt := 1, frame := (RackJob.query 7).frame })
      ∧ (Settled (on (setting0 2)) ∧ (setting0 2).rack.hold.map (·.job) = some (.set 0 1)
        ∧ (255 : Byte).toNat ≠ 1 ∧ 0 ∉ (setting0 2).rack.pendingList ∧ ((setting0 2).channel 0).used = true
        ∧ ((setting0 2).point 0).mismatch + 1 = 3 ∧ ((setting0 1).point 0).mismatch + 1 < 3
        ∧ ((rackAt .listening (.set 63 31) 1).channel 63).used = false) := by decide +kernel

theorem witness_RackWindowClosedRetriesOrLoses :
    (Settled (on (rackAt .listening (.query 0) 2)) ∧ 2 < 3)
      ∧ (Settled (on (rackAt .listening (.set 0 0) 3)) ∧ (rackAt .listening (.set 0 0) 3).running = true)
      ∧ (Settled (on (rackAt .listening (.query 7) 3))
        ∧ (rackAt .listening (.query 7) 3).rack.link = .listening) := by decide +kernel

/-- The answered GROUP QUERY of group 0 at source 1, supervised with N_trip 3 and N_clear 2, in a state with its counts;
position 0 runs on a source. -/
def sampling (st : Hysteresis) (low high : Nat) (e : Effective) : Chip :=
  let c := (substituted st .armed (some 2)).updSource 1 fun r => { r with low := low, high := high, lowStart := some 98 }
  let c1 := c.setLineUp
    { c.lineUp with
      effective := vupd c.lineUp.effective 0 fun _ => e
      current := { c.lineUp.current with
        sources := vupd c.lineUp.current.sources 1 fun _ =>
          { arm := 20, trigger := 10, nTrip := 3, nClear := 2, supervised := true } } }
  c1.setRack
    { c1.rack with
      link := .listening, hold := some { job := .query 0, attempt := 1, frame := (RackJob.query 0).frame }
      points := vupd c1.rack.points 0 fun r => { r with confirmed := .source 1 } }

theorem other_channels (st : Hysteresis) (low high : Nat) (e : Effective) (i : Nat) (h0 : i ≠ 0) :
    (sampling st low high e).channel i = run.channel i := vget_vupd_other _ _ _ _ h0

theorem witness_SourcesMoveTheirPositions :
    ((run.channel 0).used = false
      ∧ (((substituted .tripped .armed (some 2)).channel 0).used = true
        ∧ (substituted .tripped .armed (some 2)).sourceOut 1 = true
        ∧ (substituted .tripped .armed (some 2)).sourceOut 2 = false)
      ∧ (substituted .tripped .tripped (some 2)).sourceOut 2 = true
      ∧ (substituted .armed .tripped (some 2)).sourceOut 1 = false
      ∧ ((substituted .tripped .armed none).channel 0).backup = none)
      ∧ (let c := sampling .armed 2 0 { source := some 1, onBackup := false }
        Settled (on c) ∧ c.running = true ∧ c.rack.link = .listening ∧ c.rack.hold.map (·.job) = some (.query 0)
          ∧ (vget c.lineUp.current.sources 1).supervised = true
          ∧ (∀ i : Fin 4, i ≠ 1 → (vget c.lineUp.current.sources (4 * 0 + i)).supervised = false)
          ∧ (c.channel 0).used = true ∧ (c.channel 0).primary = 1 ∧ (c.channel 0).backup = some 2
          ∧ c.sourceOut 2 = false ∧ (∀ i, i < 64 → i ≠ 0 → (run.channel i).used = false)
          ∧ (c.source 1).state ≠ .tripped ∧ (c.source 1).low + 1 = 3
          ∧ c.effective 0 = { source := some 1, onBackup := false } ∧ c.rack.pendingList = [] ∧ c.rack.owed = false
          ∧ (c.point 0).condition = .idle ∧ (c.point 0).confirmed = .source 1)
      ∧ (let c := sampling .tripped 0 1 { source := some 2, onBackup := true }
        Settled (on c) ∧ (c.source 1).state = .tripped ∧ (c.source 1).high + 1 = 2 ∧ c.journal.queue.length < 56
          ∧ c.effective 0 = { source := some 2, onBackup := true }) := by decide +kernel

/-- One sample short of each change, with N_trip 3 and N_clear 2. -/
def runAt (st : Hysteresis) (low high : Nat) : LevelRun := { state := st, low := low, high := high, start := none }

theorem witness_HysteresisNeedsARun :
    (runAt .armed 2 0).low + 1 = 3 ∧ (runAt .armed 1 0).low + 1 < 3 ∧ (runAt .armed 2 0).state ≠ .tripped
      ∧ (runAt .armed 0 2).high = 2 ∧ (runAt .armed 0 2).state = .armed
      ∧ (runAt .tripped 3 0).low = 3 ∧ (runAt .tripped 3 0).state = .tripped
      ∧ (runAt .unarmed 0 1).high + 1 = 2 ∧ (runAt .tripped 0 0).high + 1 < 2 ∧ (runAt .tripped 0 1).state ≠ .armed
      ∧ 10 < 20
      ∧ (let set : SourceSetting := { arm := 20, trigger := 10, nTrip := 3, nClear := 2, supervised := true }
        let r : Source := { Source.reset with state := .armed, low := 2, lowStart := some 98 }
        set.supervised = true ∧ (r.sample set 10 false (some 100)).state ≠ r.state
          ∧ (r.sample set 11 false (some 100)).state = r.state
          ∧ ({ set with supervised := false } : SourceSetting).supervised = false) := by decide

/-! #### Clock and pass -/

/-- The clock at a minute, second and backlog, with a pass under way or none. -/
def ticking (minute seconds backlog : Nat) (pass : PassState) : Chip :=
  (run.setClock { clock with minute := some minute, seconds := seconds, backlog := backlog }).setPass
    { Pass.reset with state := pass, minute := some 99 }

/-- Position 0 blacked out in zone 0 from minute 101 to 102, not active yet, with port 20 owned by record 3 of zone 0. -/
def blackedOut (c : Chip) : Chip :=
  (c.setLineUp { c.lineUp with
    current := { c.lineUp.current with blackouts := [{ position := 0, zones := 1, start := 101, stop := 102 }] }
    active := [false] }).updPort 20 fun r => { r with owner := some 3 }

theorem witness_SecondsMakeMinutes :
    (Settled (on (ticking 100 58 0 .idle)) ∧ (ticking 100 58 0 .idle).running = true
        ∧ (ticking 100 58 0 .idle).clock.state = .running ∧ (ticking 100 58 0 .idle).clock.minute = some 100)
      ∧ (Settled (on (ticking 4294967294 59 0 .idle)) ∧ 59 ≤ (ticking 4294967294 59 0 .idle).clock.seconds)
      ∧ (Settled (on (ticking 4294967293 59 1439 .visiting)) ∧ (ticking 4294967293 59 1439 .visiting).pass.state ≠ .idle)
      ∧ (Settled (on (ticking 100 59 1440 .paused)) ∧ (ticking 100 59 1440 .paused).clock.nextPass = some 101)
      ∧ (Settled (on (ticking 100 59 0 .idle)) ∧ (ticking 100 59 0 .idle).pass.state = .idle)
      ∧ (ticking 100 58 0 .idle).noticeRoom = true
      ∧ (let c := blackedOut (ticking 100 59 0 .idle)
        Settled (on c) ∧ c.lineUp.active[0]? = some false
          ∧ (c.lineUp.current.blackouts[0]?).map (activeNow · (some 101)) = some true
          ∧ (c.port 20).owner = some 3 ∧ (c.sub 3).taken.zone = 0 ∧ (1 : ZoneSet).getLsbD 0 = true) := by
  decide +kernel

/-- A pass for minute 100 at record i, with that record's live block. -/
def visiting (c : Chip) (i : Nat) (l : Live) : Chip :=
  (withSub c i l).setPass { state := .visiting, minute := some 100, cursor := i, point := none }

/-- A queue of n money entries. -/
def full (c : Chip) (n : Nat) : Chip :=
  c.setJournal { c.journal with
    queue := List.replicate n { entry := c.creditEntry 9 none, ring := 0, writing := false } }

/-- The tap of port 20 FAILING. -/
def tapFails (c : Chip) : Chip := c.updSup 5 fun r => { r with state := .failing }

/-- The active record with a held run of n minutes. -/
def heldRun (n : Nat) : Live := { active with heldMinutes := n, heldNumerator := -1, outSince := some 40 }

theorem witness_PassVisitBillsOrHolds :
    (Settled (on (visiting polling 2046 Live.free)) ∧ (visiting polling 2046 Live.free).visitTurn = true
        ∧ (visiting polling 2046 Live.free).pass.cursor = 2046)
      ∧ (Settled (on ((full (visiting polling 0 { active with cycle := 2 }) 64).setEngine
          { Engine.reset with request := .requesting }))
        ∧ (full (visiting polling 0 { active with cycle := 2 }) 64).visitTurn = true)
      ∧ (Settled (on (visiting polling 0 active)) ∧ (visiting polling 0 active).visitTurn = true
        ∧ (visiting polling 0 active).out 0 = false ∧ 1 ≤ (visiting polling 0 active).clock.cal.m
        ∧ ((visiting polling 0 { active with tierAmount := 2000000000 }).sub 0).live.tierAmount = 2000000000)
      ∧ (Settled (on (visiting (tapFails polling) 0 active))
        ∧ (visiting (tapFails polling) 0 active).out 0 = true)
      ∧ (Settled (on (visiting polling 0 (heldRun 60))) ∧ (visiting polling 0 (heldRun 60)).visitTurn = true
        ∧ (visiting polling 0 (heldRun 60)).out 0 = false
        ∧ (visiting polling 0 (heldRun 60)).config.creditThreshold ≤ ((visiting polling 0 (heldRun 60)).sub 0).live.heldMinutes
        ∧ ((visiting polling 0 (heldRun 59)).sub 0).live.heldMinutes < (visiting polling 0 (heldRun 59)).config.creditThreshold
        ∧ (full (visiting polling 0 (heldRun 60)) 63).journal.queue.length < 64
        ∧ Settled (on ((full (visiting polling 0 (heldRun 60)) 64).setEngine { Engine.reset with request := .requesting }))
        ∧ (full (visiting polling 0 (heldRun 60)) 64).visitTurn = true)
      ∧ (let c := visiting polling 2047 Live.free
        let d := c.setClock { c.clock with backlog := 1, nextPass := some 1440 }
        Settled (on c) ∧ c.visitTurn = true ∧ c.pass.cursor = 2047 ∧ (c.sub 2047).live.state = .free
          ∧ c.clock.backlog = 0 ∧ Settled (on d) ∧ d.visitTurn = true ∧ d.clock.backlog = 0 + 1
          ∧ d.clock.cal.start + d.clock.cal.m ≤ 1440)
      ∧ (let c := full (visiting polling 0 { active with cycle := 2 }) 63
        let d := visiting (tapFails polling) 0 { active with cycle := 2, outSince := some 40 }
        Settled (on (c.setEngine { Engine.reset with request := .requesting })) ∧ c.visitTurn = true
          ∧ c.journal.queue.length < 64 ∧ (c.sub 0).live.cycle ≠ c.clock.cal.cycle ∧ (c.sub 0).live.outSince = none
          ∧ Settled (on d) ∧ d.visitTurn = true ∧ d.out 0 = true ∧ (d.sub 0).live.outSince = some 40 ∧ 40 ≤ 100
          ∧ ((visiting polling 0 { active with state := .final, cycle := 2 }).sub 0).live.state = .final)
      ∧ (let c := visiting polling 2047 active
        Settled (on c) ∧ c.visitTurn = true ∧ c.pass.cursor = 2047 ∧ c.pass.minute = some 100
          ∧ (c.sub 2047).live.cycle = c.clock.cal.cycle ∧ (c.sub 2047).live.appliedOn = true ∧ c.out 2047 = false
          ∧ (visiting (tapFails polling) 2047 active).out 2047 = true) := by decide +kernel

/-- A CONFIRMED purchase of position 5, 90 to 101, for 500 mu. -/
def purchase : Purchase := { position := 5, state := .confirmed, start := 90, stop := 101, price := 500, dark := 0 }

def suspended : Live := { active with state := .suspended }

/-- A visit of the SUSPENDED record 2046 with one purchase and an event amount, at n entries in the queue. -/
def charging (p : Purchase) (amount : Int) (n : Nat) : Chip :=
  full (visiting polling 2046 { suspended with purchases := [p], eventAmount := amount }) n

theorem witness_PassVisitChargesAPurchase :
    (let c := charging purchase 1999999500 63
     c.visitTurn = true ∧ c.pass.cursor = 2046 ∧ c.pass.minute = some 100 ∧ c.journal.queue.length < 64
        ∧ (c.sub 2046).live.state = .suspended ∧ (c.sub 2046).live.cycle = c.clock.cal.cycle
        ∧ (c.sub 2046).live.outSince = none ∧ (c.sub 2046).live.purchases = [purchase] ∧ 100 < purchase.stop
        ∧ (c.sub 2046).live.eventAmount + purchase.price ≤ 2000000000)
      ∧ ((charging { purchase with stop := 100 } 0 62).visitTurn = true
        ∧ (charging { purchase with stop := 100 } 0 62).journal.queue.length < 63
        ∧ ({ purchase with stop := 100, dark := 3 } : Purchase).stop ≤ 4 * 3 + 90 ∧ 4 * 2 + 90 < 100)
      ∧ ((charging { purchase with state := .booked } 0 0).visitTurn = true
        ∧ ({ purchase with state := .booked, start := 100 } : Purchase).start ≤ 100)
      ∧ ((charging { purchase with state := .opening, stop := 100 } 0 55).journal.queue.length < 56
        ∧ 56 ≤ (charging { purchase with state := .opening, stop := 100 } 0 56).journal.queue.length
        ∧ (charging { purchase with state := .opening, stop := 100 } 0 56).visitTurn = true)
      ∧ ((charging { purchase with state := .charged, stop := 100, dark := 3 } 0 64).visitTurn = true
        ∧ 64 ≤ (charging { purchase with state := .charged, stop := 100, dark := 3 } 0 64).journal.queue.length)
      ∧ (let c := full (visiting polling 2046 { active with purchases := [{ purchase with state := .charged }] }) 0
        c.visitTurn = true ∧ (c.sub 2046).live.state = .active ∧ (c.sub 2046).live.appliedOn = true
          ∧ (c.sub 2046).live.cycle = c.clock.cal.cycle ∧ 100 < purchase.stop ∧ c.darkAt 2046 5 = true
          ∧ c.out 2046 = false ∧ (visiting (tapFails polling) 2046 active).out 2046 = true)
      ∧ ((charging { purchase with stop := 100, dark := 3 } 0 63).visitTurn = true
        ∧ (charging { purchase with stop := 100, dark := 3 } 0 63).journal.queue.length = 63
        ∧ (charging purchase 0 64).visitTurn = true ∧ 64 ≤ (charging purchase 0 64).journal.queue.length) := by
  decide +kernel

/-- A pass paused at stage 1 at record i. -/
def paused (i : Nat) (l : Live) : Chip :=
  (visiting polling i l).setPass
    { state := .paused, minute := some 100, cursor := i, point := some { stage := 1, place := 0 } }

/-- A tenure that writes the n oldest entries of a part's queue. -/
def writing (c : Chip) (n : Nat) : Chip :=
  c.setEngine
    { c.engine with
      request := .holding, tenure := some { fillReads := 0, entries := n, checkpoint := none, writeBack := false } }

/-- A pass paused at the close of a SUSPENDED record of an ended cycle. -/
def stale : Chip := paused 2046 { suspended with cycle := 2, tierAmount := 7, remainder := 3 }

theorem witness_ResumesGoOnBehindTheEntry :
    (stale.running = true ∧ stale.journal.queue.length < 64 ∧ stale.pass.state = .paused ∧ stale.store.hold = none
        ∧ stale.store.answered = false ∧ (stale.sub 2046).live.cycle ≠ stale.clock.cal.cycle
        ∧ (stale.sub 2046).live.outSince = none ∧ (stale.sub 2046).live.purchases = []
        ∧ (stale.sub 2046).live.state = .suspended
        ∧ ((paused 0 { active with state := .final, cycle := 2 }).sub 0).live.state = .final
        ∧ EntriesUnderWay (on (writing (full stale 64) 1)) 1 ∧ EntriesUnderWay (on (writing (full stale 64) 8)) 8
        ∧ ((paused 2046 Live.free).setAnswered true).store.answered = true)
      ∧ (stopped.running = true ∧ stopped.journal.queue.length < 64
        ∧ stopped.store.hold = some (.take 2047 .credit) ∧ stopped.store.answered = false
        ∧ stopped.pass.state ≠ .paused ∧ (stopped.sub 2047).live.outSince.isSome = true
        ∧ stopped.config.creditThreshold ≤ (stopped.sub 2047).live.heldMinutes
        ∧ (stopped.sub 2047).live.purchases = [] ∧ EntriesUnderWay (on (writing (full stopped 64) 1)) 1
        ∧ (stopped.setAnswered true).store.answered = true
        ∧ ((stopped.clearHeld 2047).sub 2047).live.outSince = none) := by decide +kernel

theorem witness_AccrualIsExact :
    1 ≤ (withSub run 2047 active).clock.cal.m ∧ ((withSub run 2047 active).sub 2047).live.remainder = 0
      ∧ ((withSub run 2047 active).sub 2047).live.tierAmount = 0
      ∧ ∀ k : Nat, k ≤ 3 → -2000000000 ≤ (0 : Int) + ((k : Int) * (-15999984)) / 1440 := by
  refine ⟨by decide +kernel, by decide +kernel, by decide +kernel, fun k h => ?_⟩
  interval_cases k <;> decide

/-! #### Rings and orders -/

/-- Ring indices: order head and tail, journal head and tail. -/
def rings (oh ot jh jt : Half) : Chip :=
  let c := run.setOrders { run.orders with head := oh, tail := ot, work := some (fields 4 0 0 0 0 0) }
  c.setJournal { c.journal with head := jh, tail := jt }

theorem witness_RingWordWrites :
    let c := rings 0xFFFF 0x0003 0xFFFE 0x0002
    Settled (on c) ∧ ArrayCanonical (on c) ∧ BusFree (on c) ∧ c.running = true ∧ c.part.mapInForce = true
      ∧ touchesWord (lowOnly 15) = true ∧ c.kindOf (98304 + 32 * 15) = .slot (32 * 15)
      ∧ c.kindOf 65536 = .orderTail ∧ (newHalf (lowOnly 15) c.orders.tail - c.orders.head).toNat = 16
      ∧ 16 < (newHalf (lowOnly 16) c.orders.tail - c.orders.head).toNat ∧ c.kindOf 65540 = .journalHead
      ∧ (newHalf (both 2) c.journal.head - c.journal.head).toNat = 4
      ∧ 4 < (newHalf (both 3) c.journal.head - c.journal.head).toNat := by decide +kernel

/-- The plant with the tap's record 3 ACTIVE and an order in hand. -/
def ordered (o : Order) : Chip := order (withSub polling 3 active) o

/-- Orders of PURCHASE: position 5, minutes 101 to 102 and longer, price at the limit. -/
def buy (index w12 w16 : Nat) : Order := fields 1 index 5 w12 w16 9999999

theorem witness_PurchaseBooksAtTheTail :
    (Settled (on (ordered (buy 3 101 102))) ∧ OrderTaken (on (ordered (buy 3 101 102))) (buy 3 101 102)
        ∧ (ordered (buy 3 101 102)).orderTurn = true ∧ (ordered (buy 3 101 102)).checkPurchase (buy 3 101 102) = none
        ∧ (ordered (buy 3 101 1541)).checkPurchase (buy 3 101 1541) = none)
      ∧ (ordered (buy 3 101 1542)).checkPurchase (buy 3 101 1542) = some .parameterRange
      ∧ (ordered (buy 3 100 101)).checkPurchase (buy 3 100 101) = some .tooLate
      ∧ (ordered (buy 2048 101 102)).checkPurchase (buy 2048 101 102) = some .indexRange
      ∧ (ordered (buy 4 101 102)).checkPurchase (buy 4 101 102) = some .notInService := by decide +kernel

/-- Record 3 with the purchases given, and a CANCEL PURCHASE of position 5, start 90. -/
def cancelling (l : List Purchase) : Chip :=
  order (withSub polling 3 { suspended with purchases := l }) (fields 2 3 5 90 0 0)

theorem witness_CancelPurchaseDropsTheEntry :
    (Settled (on (cancelling [])) ∧ OrderTaken (on (cancelling [])) (fields 2 3 5 90 0 0)
        ∧ (cancelling []).orderTurn = true)
      ∧ ((cancelling [purchase]).sub 3).live.purchases = [] ++ purchase :: []
      ∧ ((cancelling [{ purchase with start := 91 }, { purchase with state := .booked }]).sub 3).live.purchases
          = [{ purchase with start := 91 }] ++ { purchase with state := .booked } :: []
      ∧ (order run (fields 2 2048 5 90 0 0)).checkCancel (fields 2 2048 5 90 0 0) = some .indexRange
      ∧ (cancelling []).checkCancel (fields 2 3 64 90 0 0) = some .parameterRange := by decide +kernel

/-- ADJUST of record 3 by -1 (4294967295) or by an amount. -/
def adjusting (c : Chip) (amount : Nat) : Chip := order (withSub c 3 active) (fields 3 3 0 amount 0 0)

theorem witness_AdjustAddsOrWaits :
    (Settled (on (adjusting polling 4294967295)) ∧ OrderTaken (on (adjusting polling 4294967295)) (fields 3 3 0 4294967295 0 0)
        ∧ (adjusting polling 4294967295).orderTurn = true
        ∧ (adjusting polling 9999999).checkAdjust (fields 3 3 0 9999999 0 0) = none)
      ∧ (adjusting polling 10000000).checkAdjust (fields 3 3 0 10000000 0 0) = some .parameterRange
      ∧ ((full (adjusting polling 5) 64).orderTurn = true ∧ 64 ≤ (full (adjusting polling 5) 64).journal.queue.length)
      ∧ (((full (adjusting polling 5) 63).holdAdjust .add).store.hold = some (.adjust .add)
        ∧ ((full (adjusting polling 5) 63).holdAdjust .add).journal.queue.length < 64
        ∧ ((full (adjusting polling 5) 63).holdAdjust .add).pass.state ≠ .paused
        ∧ ((full (adjusting polling 5) 63).holdAdjust .add).store.answered = false
        ∧ EntriesUnderWay (on (writing ((full (adjusting polling 5) 64).holdAdjust .add) 1)) 1
        ∧ (((full (adjusting polling 5) 64).holdAdjust .add).setAnswered true).store.answered = true) := by decide +kernel

/-- Record 3's port 20 in a condition, and a RESEND. -/
def resending (k : PortCondition) : Chip :=
  (ordered (fields 4 3 0 0 0 0)).updPort 20 fun r => { r with owner := some 3, condition := k, mismatch := 3 }

theorem witness_ResendDoubtsThePort :
    (Settled (on (resending .stuck)) ∧ OrderTaken (on (resending .stuck)) (fields 4 3 0 0 0 0)
        ∧ (resending .stuck).orderTurn = true ∧ (resending .stuck).ownedPort 3 = some 20
        ∧ (resending .stuck).branchOf 5 = 0 ∧ ((resending .stuck).branch 0).hold.isSome = true)
      ∧ ((resending .parked).port 20).condition = .parked ∧ ((resending .idle).port 20).condition = .idle
      ∧ ((ordered (fields 4 2047 0 0 0 0)).sub 2047).live.owned = none := by decide +kernel

theorem witness_UnknownRefusedRepollLists :
    ((Settled (on (ordered (fields 9 0 0 0 0 0))) ∧ OrderTaken (on (ordered (fields 9 0 0 0 0 0))) (fields 9 0 0 0 0 0))
      ∧ OrderTaken (on (ordered (fields 0 0 0 0 0 0))) (fields 0 0 0 0 0 0))
      ∧ (Settled (on (ordered (fields 5 4 0 0 0 0))) ∧ OrderTaken (on (ordered (fields 5 4 0 0 0 0))) (fields 5 4 0 0 0 0)
        ∧ (polling.element 4).record.inUse = true ∧ (polling.element 4).sup.state ≠ .suppressed
        ∧ polling.branchOf 4 = 0)
      ∧ (polling.element 639).record.inUse = false ∧ 639 < 640 := by decide +kernel

theorem element_unmarked (es : Vector Element 640) (i e : Nat) (x : Element) (h : (vget es e).mark = none)
    (hx : x.mark = none) : (vget (vupd es i fun _ => x) e).mark = none := by
  by_cases hi : i < 640
  · by_cases hj : e = i
    · subst hj; rw [vget_vupd_same _ _ _ hi]; exact hx
    · rw [vget_vupd_other _ _ _ _ hj]; exact h
  · simp [vupd, hi, h]

theorem unmarked (e : Nat) : (polling.element e).mark = none := by
  refine element_unmarked _ 5 e _ (element_unmarked _ 4 e _ (element_unmarked _ 0 e _ ?_ rfl) rfl) rfl
  by_cases h : e < 640
  · exact congrArg Element.mark (vget_replicate Element.reset e h)
  · show (vget (Vector.replicate 640 Element.reset) e).mark = none
    simp [vget, h]; rfl

/-- Two outage records, the first of them named by the order. -/
def outage (id : Byte) (st : OutageState) (ack : Bool) : Outage :=
  { id := id, kind := .plant, object := 4, state := st, start := none, stop := none, affected := 0, cause := .none
    acknowledged := ack }

def acknowledging (st : OutageState) (ack : Bool) : Chip :=
  let c := ordered (fields 6 255 0 0 0 0)
  c.setOutages { c.outages with records := [outage 7 .opened false, outage 255 st ack] }

theorem none_marked (c : Chip) (h1 : ∀ e, (c.element e).mark = none)
    (h2 : ∀ k, k < 32 → vget c.outages.marks k = none) (kind : OutageKind) (object : Nat) :
    ¬ MarkedFailing c kind object := by
  rintro ⟨h, hf⟩
  cases kind with
  | plant => exact h (h1 object)
  | source => exact h (h2 object hf.1)

theorem nothing_marked (st : OutageState) (ack : Bool) (kind : OutageKind) (object : Nat) :
    ¬ MarkedFailing (acknowledging st ack) kind object :=
  none_marked _ unmarked (fun k h => vget_replicate none k h) kind object

/-- A part whose node 4 is FAILING and marked unrecorded from minute 77 on. -/
def markedNode (c : Chip) : Chip :=
  c.updElement 4 fun e => { e with mark := some { start := some 77 }, sup := { e.sup with state := .failing } }

theorem first_marked (c : Chip) (h : ((c.element 4).record.inUse && (c.element 4).sup.state == .failing) = true)
    (h4 : (c.element 4).mark ≠ none) (h0 : ∀ e : Fin 4, (c.element e).mark = none) : FirstMarked c .plant 4 := by
  simp only [Bool.and_eq_true, beq_iff_eq] at h
  exact ⟨⟨h4, by decide, h.1, h.2⟩, fun e he hm => hm.1 (h0 ⟨e, he⟩)⟩

theorem acknowledging_first_marked : FirstMarked (markedNode (acknowledging .closed false)) .plant 4 :=
  first_marked _ (by decide +kernel) (by decide +kernel) (by decide +kernel)

/-- The polled plant with outage records and n entries in its queue. -/
def outages (l : List Outage) (n : Nat) : Chip := (full polling n).setOutages { polling.outages with records := l }

/-- An OUTAGE CLOSED notice of record 255 alone in a queue, and under way in a tenure. -/
def closingNotice (ack : Bool) : Chip :=
  let c := outages [outage 7 .opened false, outage 255 .closing ack] 0
  writing (c.noticeOf 4 (.outageClosed 255 .plant none none .recovered)) 1

theorem outages_unmarked (l : List Outage) (n : Nat) (kind : OutageKind) (object : Nat) :
    ¬ MarkedFailing (outages l n) kind object :=
  none_marked _ unmarked (fun k h => vget_replicate none k h) kind object

theorem closing_unmarked (ack : Bool) (kind : OutageKind) (object : Nat) :
    ¬ MarkedFailing (closingNotice ack) kind object :=
  none_marked _ unmarked (fun k h => vget_replicate none k h) kind object

theorem closing_first_marked (ack : Bool) : FirstMarked (markedNode (closingNotice ack)) .plant 4 := by
  cases ack <;> exact first_marked _ (by decide +kernel) (by decide +kernel) (by decide +kernel)

/-- Openings that wait on element 5 and on the element of the closing record. -/
def waitingOpenings : List Opening :=
  [{ kind := .plant, object := 5, start := none }, { kind := .plant, object := 4, start := some 88 }]

theorem witness_OutagesOpenAndClose :
    ((outages (List.replicate 63 (outage 7 .opened false)) 56).outages.records.length = 63
        ∧ (outages (outage 7 .opened false :: outage 8 .closed true :: List.replicate 62 (outage 9 .closed false))
            0).outages.records.length = 64
        ∧ (outages (List.replicate 64 (outage 7 .covered false)) 55).markOf .plant 639 = none
        ∧ (outages [outage 7 .closing false] 0).outages.records = [outage 7 .closing false]
        ∧ (outage 7 .closing false).object = 4)
      ∧ ((outages [outage 7 .opened false, outage 255 .covered true] 55).outages.records
          = [outage 7 .opened false] ++ outage 255 .covered true :: []
        ∧ (outages [outage 255 .opened false] 55).journal.queue.length < 56
        ∧ 56 ≤ (outages [outage 255 .opened false] 56).journal.queue.length
        ∧ (outages [outage 255 .opened false] 56).outages.waiting = [])
      ∧ (polling.running = true ∧ ((carrier polling .answering .present).branch 0).carrier ≠ .lost
        ∧ ((carrier polling .answering .present).element 0).sup.state = .answering
        ∧ ((carrier polling .answering .present).element 0).mark = none ∧ polling.outages.records = [])
      ∧ ((closingNotice true).engine.request = .holding ∧ (closingNotice true).journal.queue.length = 1
        ∧ (closingNotice true).outages.records = [outage 7 .opened false] ++ outage 255 .closing true :: []
        ∧ (closingNotice true).outages.waiting = [] ∧ (closingNotice true).moneyWaiting = false
        ∧ (markedNode (closingNotice true)).markOf .plant 4 = some { start := some 77 }
        ∧ (markedNode (closingNotice true)).engine.request = .holding
        ∧ ((outages [outage 255 .opened false] 56).setOutages
            { polling.outages with waiting := waitingOpenings }).outages.waiting
          = [{ kind := .plant, object := 5, start := none }] ++ { kind := .plant, object := 4, start := some 88 } :: []
        ∧ (outages [] 0).stillFailing .plant 4 = false ∧ (markedNode (outages [] 0)).stillFailing .plant 4 = true
        ∧ (List.replicate 63 (outage 7 .opened false) ++ { outage 255 .closed false with object := 5 } :: []).length = 64)
      := by decide +kernel

theorem witness_AcknowledgeFlagsOrFrees :
    (Settled (on (acknowledging .closed false)) ∧ OrderTaken (on (acknowledging .closed false)) (fields 6 255 0 0 0 0)
        ∧ (acknowledging .closed false).outages.records
            = [outage 7 .opened false] ++ outage 255 .closed false :: [])
      ∧ (∀ r ∈ (ordered (fields 6 255 0 0 0 0)).outages.records, r.id.toNat ≠ 255)
      ∧ (Settled (on (markedNode (acknowledging .closed false)))
        ∧ OrderTaken (on (markedNode (acknowledging .closed false))) (fields 6 255 0 0 0 0)
        ∧ (markedNode (acknowledging .closed false)).markOf .plant 4 = some { start := some 77 } ∧ 1 + 0 < 64) := by
  decide +kernel

/-- A SET CLOCK order, with the clock as it is or UNSET. -/
def setting (c : Chip) (minute second : Nat) : Chip := order c (fields 7 0 second minute 0 0)

def unset : Chip := polling.setClock { clock with state := .unset, minute := none, nextPass := none }

theorem witness_SetClockSetsOrSteps :
    (Settled (on (setting polling 100 60)) ∧ OrderTaken (on (setting polling 100 60)) (fields 7 0 60 100 0 0))
      ∧ (Settled (on (setting unset 1440 59)) ∧ (setting unset 1440 59).clock.state = .unset
        ∧ OrderTaken (on (setting unset 1440 59)) (fields 7 0 59 1440 0 0)
        ∧ (setting unset 1440 59).clock.cal.start + (setting unset 1440 59).clock.cal.m ≤ 1440)
      ∧ (Settled (on (setting polling 1540 0)) ∧ (setting polling 1540 0).clock.minute = some 100
        ∧ OrderTaken (on (setting polling 1540 0)) (fields 7 0 0 1540 0 0))
      ∧ OrderTaken (on (setting polling 1541 0)) (fields 7 0 0 1541 0 0)
      ∧ OrderTaken (on (setting polling 99 0)) (fields 7 0 0 99 0 0) := by decide +kernel

theorem witness_NextCycleSetsNextM :
    (Settled (on (order polling (fields 8 0 0 1440 0 0))) ∧ OrderTaken (on (order polling (fields 8 0 0 1440 0 0))) (fields 8 0 0 1440 0 0)
        ∧ (order polling (fields 8 0 0 1440 0 0)).clock.state ≠ .unset)
      ∧ OrderTaken (on (order polling (fields 8 0 0 44641 0 0))) (fields 8 0 0 44641 0 0)
      ∧ (Settled (on (order unset (fields 8 0 0 44640 0 0))) ∧ unset.clock.state = .unset) := by decide +kernel

/-- A live block with every field in range and four purchases. -/
def fullLive : Live :=
  { active with
    outcome := .done, takenRev := 0xABCD, tierAmount := -2000000000, eventAmount := 2000000000, remainder := 44639
    heldMinutes := 65535, heldNumerator := -140737488355327, outSince := some 4294967294
    purchases := List.replicate 4 { purchase with price := 9999999, dark := 65535 } }

theorem witness_LiveSectionRoundTrips :
    OutcomeCode.ofByte fullLive.outcome.byte = fullLive.outcome ∧ fullLive.purchases.length = 4
      ∧ fullLive.outSince = some 4294967294 ∧ fullLive.owned = some { element := 5, port := 0, zone := 0 } := by
  decide

/-- The last codes of a part as the host reads it: RUNNING, a bank open at row 8, no CAS latency, no source level. -/
theorem test_views :
    (openAt run 8).statusWord 64 = 2 ∧ (openAt run 8).statusWord 516 = 0xFFFFFFFF ∧ (openAt run 8).statusWord 520 = 8
      ∧ run.statusWord 2560 = 0x0002FF00 ∧ run.statusWord 388 = 100 ∧ polling.statusWord 6416 = 0x00000101
      ∧ run.merged .journalHead = some 0 ∧ (inState run .fill).merged .journalHead = none := by decide +kernel

theorem witness_StatusViewsShowTheState :
    run.part.state = .running ∧ (inState run .fill).part.state = .fill
      ∧ ((inState run .configFault).lineUpOutcome .rateRange).lineUp.gen = none
      ∧ ((inState run .configFault).lineUpOutcome .rateRange).lineUp.outcome ≠ .notTaken
      ∧ State.reset.chip.part.state = .awaitMode := by decide +kernel

theorem witness_FramesReadBackAndSumToZero : 1023 < 1024 ∧ (List.replicate 255 (0 : Byte)).length < 256 :=
  ⟨by decide, by rw [List.length_replicate]; decide⟩

end Sys2Proof.Tests
end

namespace Sys2Proof.Machine

/-! ### The state after reset -/

theorem Chip.reset_branch (strap : BitVec 4) (cause : ResetCause) {b : Nat} (h : b < 4) :
    (Chip.reset strap cause).branch b = Branch.reset := vget_replicate _ _ h
theorem Chip.reset_element (strap : BitVec 4) (cause : ResetCause) {e : Nat} (h : e < 640) :
    (Chip.reset strap cause).element e = Element.reset := vget_replicate _ _ h
theorem Chip.reset_sub (strap : BitVec 4) (cause : ResetCause) {i : Nat} (h : i < 2048) :
    (Chip.reset strap cause).sub i = Subscriber.reset := vget_replicate _ _ h
theorem Chip.reset_port (strap : BitVec 4) (cause : ResetCause) {p : Nat} (h : p < 2560) :
    (Chip.reset strap cause).port p = Port.reset := vget_replicate _ _ h
theorem Chip.reset_source (strap : BitVec 4) (cause : ResetCause) {k : Nat} (h : k < 32) :
    (Chip.reset strap cause).source k = Source.reset := vget_replicate _ _ h
theorem Chip.reset_point (strap : BitVec 4) (cause : ResetCause) {q : Nat} (h : q < 64) :
    (Chip.reset strap cause).point q = { confirmed := .unknown, mismatch := 0, condition := .idle } :=
  vget_replicate _ _ h
theorem Chip.reset_effective (strap : BitVec 4) (cause : ResetCause) {q : Nat} (h : q < 64) :
    (Chip.reset strap cause).effective q = { source := none, onBackup := false } := vget_replicate _ _ h

/-- After reset a branch link is SILENT and closed, the part not being RUNNING. -/
theorem Chip.reset_quietBranch (strap : BitVec 4) (cause : ResetCause) {b : Nat} (h : b < 4) :
    (Chip.reset strap cause).quietBranch b = true := by
  have closed : (Chip.reset strap cause).linkOpen b = false := rfl
  rw [Chip.quietBranch, closed, Chip.reset_branch strap cause h]
  rfl

/-- After reset no link has anything to select, the Order Taker nothing to take, the engine nothing to request. -/
theorem Chip.reset_quiet (strap : BitVec 4) (cause : ResetCause) : (Chip.reset strap cause).quiet = true := by
  have branches : (List.range 4).all (Chip.reset strap cause).quietBranch = true := by
    simp only [List.all_eq_true, List.mem_range]
    exact fun b h => Chip.reset_quietBranch strap cause h
  rw [Chip.quiet, branches]
  rfl

/-- Settles O6: each invariant from what reset leaves: an empty array, nothing to select, an empty queue. -/
theorem resetMeetsInvariants : Obligations.ResetMeetsInvariants :=
  ⟨rfl, Chip.reset_quiet 0 .power, Nat.zero_le _⟩

/-- Settles O7: each table of records by its own reset lemma, every other value by the reset definitions. -/
theorem resetStateAsTabled : Obligations.ResetStateAsTabled := by
  have banks : ∀ b, b < 4 → vget State.reset.chip.path.banks b = none := fun b h => vget_replicate _ _ h
  have zones : ∀ q, q < 64 → vget State.reset.chip.lineUp.zones q = 0 := fun q h => vget_replicate _ _ h
  have marks : ∀ k, k < 32 → vget State.reset.chip.outages.marks k = none := fun k h => vget_replicate _ _ h
  have effective : ∀ q, q < 64 → (State.reset.chip.effective q).source = none :=
    fun q h => congrArg Effective.source (Chip.reset_effective 0 .power h)
  have element : ∀ e, e < 640 → State.reset.chip.element e = Element.reset :=
    fun e h => Chip.reset_element 0 .power h
  have sub : ∀ i, i < 2048 → State.reset.chip.sub i = Subscriber.reset := fun i h => Chip.reset_sub 0 .power h
  have port : ∀ p, p < 2560 → State.reset.chip.port p = Port.reset := fun p h => Chip.reset_port 0 .power h
  have branch : ∀ b, b < 4 → State.reset.chip.branch b = Branch.reset := fun b h => Chip.reset_branch 0 .power h
  have point : ∀ q, q < 64 →
      State.reset.chip.point q = { confirmed := .unknown, mismatch := 0, condition := .idle } :=
    fun q h => Chip.reset_point 0 .power h
  have source : ∀ k, k < 32 → State.reset.chip.source k = Source.reset := fun k h => Chip.reset_source 0 .power h
  refine ⟨⟨rfl, rfl, rfl, rfl, rfl, rfl, rfl, rfl, rfl⟩, ⟨rfl, rfl, rfl, rfl, rfl, banks, rfl, rfl, rfl, rfl, rfl⟩,
    ⟨rfl, rfl, rfl, fun q h => ⟨effective q h, zones q h⟩, fun a ha => absurd ha List.not_mem_nil⟩,
    ⟨rfl, rfl, fun e h => ?_, rfl, rfl, marks⟩, ⟨rfl, rfl, rfl, rfl, fun i h => ?_, fun p h => ?_⟩, fun b h => ?_,
    ⟨rfl, rfl, rfl, rfl, rfl, rfl, rfl, rfl, fun q h => ?_, fun k h => ?_⟩,
    ⟨rfl, rfl, rfl, rfl, rfl, rfl, rfl, rfl, rfl, rfl, rfl⟩, ⟨rfl, rfl, rfl, rfl, rfl, rfl, rfl, rfl⟩⟩
  · rw [element e h]; exact ⟨rfl, rfl, rfl, rfl⟩
  · rw [sub i h]; exact ⟨rfl, rfl⟩
  · rw [port p h]; exact ⟨rfl, rfl, rfl, rfl⟩
  · rw [branch b h]; exact ⟨rfl, rfl, rfl, rfl, rfl, rfl, rfl, rfl, rfl, rfl⟩
  · rw [point q h]; exact ⟨rfl, rfl, rfl⟩
  · rw [source k h]; exact ⟨rfl, rfl, rfl, rfl, rfl, rfl⟩

end Sys2Proof.Machine

namespace Sys2Proof.Machine

/-! ### The STATUS views, part by part -/

/-- A list read word by word is the list. -/
theorem map_item_range (l : List Word) : (List.range l.length).map (item l) = l := by
  refine List.ext_getElem (by simp) fun k h _ => ?_
  have hk : k < l.length := by simpa using h
  simp [item, List.getD_eq_getElem?_getD, List.getElem?_eq_getElem hk]

/-- The bit of a 16-bit number is kept by its two bytes. -/
theorem packWord_half (a b n : Nat) (h : n < 65536) :
    packWord a b (n % 256) (n / 256) = num (a % 256 + 256 * (b % 256) + 65536 * n) := by
  unfold packWord
  congr 1
  omega

/-- A byte of a packed word counts modulo 256. -/
theorem packWord_congr {a b c d a' b' c' d' : Nat} (ha : a % 256 = a' % 256) (hb : b % 256 = b' % 256)
    (hc : c % 256 = c' % 256) (hd : d % 256 = d' % 256) : packWord a b c d = packWord a' b' c' d' := by
  simp only [packWord, ha, hb, hc, hd]

theorem flag_le (b : Bool) : flag b ≤ 1 := by cases b <;> decide

theorem Chip.statusWord_part (c : Chip) : c.statusWord 64 = c.part.word := rfl

theorem Chip.statusWord_startView (c : Chip) {k : Nat} (h : k < 8) :
    c.statusWord (68 + 4 * k) = wordAt c.part.startView (4 * k) := by
  simp (disch := omega) only [Chip.statusWord, Chip.startWord, if_neg, if_pos, Nat.add_sub_cancel_left]

theorem Chip.statusWord_orderView (c : Chip) {k : Nat} (h : k < 32) : c.statusWord (256 + 4 * k) = item c.orderView k := by
  have e : (256 + 4 * k - 256) / 4 = k := by omega
  simp (disch := omega) only [Chip.statusWord, if_neg, if_pos, e]

theorem Chip.statusWord_clockView (c : Chip) {k : Nat} (h : k < 32) : c.statusWord (384 + 4 * k) = item c.clockView k := by
  have e : (384 + 4 * k - 384) / 4 = k := by omega
  simp (disch := omega) only [Chip.statusWord, if_neg, if_pos, e]

theorem Chip.statusWord_memoryView (c : Chip) {k : Nat} (h : k < 128) :
    c.statusWord (512 + 4 * k) = item c.memoryView k := by
  have e : (512 + 4 * k - 512) / 4 = k := by omega
  simp (disch := omega) only [Chip.statusWord, if_neg, if_pos, e]

theorem Chip.statusWord_branchView (c : Chip) {b k : Nat} (hb : b < 4) (hk : k < 8) :
    c.statusWord (1024 + 32 * b + 4 * k) = item (c.branch b).view k := by
  have e1 : (1024 + 32 * b + 4 * k - 1024) / 32 = b := by omega
  have e2 : (1024 + 32 * b + 4 * k) % 32 / 4 = k := by omega
  simp (disch := omega) only [Chip.statusWord, if_neg, if_pos, e1, e2]

theorem Chip.statusWord_position (c : Chip) {q k : Nat} (hq : q < 64) (hk : k < 2) :
    c.statusWord (2048 + 8 * q + 4 * k) = item (c.positionWords q) k := by
  have e1 : (2048 + 8 * q + 4 * k - 2048) / 8 = q := by omega
  have e2 : (2048 + 8 * q + 4 * k) % 8 / 4 = k := by omega
  simp (disch := omega) only [Chip.statusWord, if_neg, if_pos, e1, e2]

theorem Chip.statusWord_source (c : Chip) {k : Nat} (h : k < 32) : c.statusWord (2560 + 4 * k) = (c.source k).word := by
  have e : (2560 + 4 * k - 2560) / 4 = k := by omega
  simp (disch := omega) only [Chip.statusWord, if_neg, if_pos, e]

theorem Chip.statusWord_rackView (c : Chip) {k : Nat} (h : k < 6) : c.statusWord (2688 + 4 * k) = item c.rackView k := by
  have e : (2688 + 4 * k - 2688) / 4 = k := by omega
  simp (disch := omega) only [Chip.statusWord, if_neg, if_pos, e]

theorem Chip.statusWord_outage (c : Chip) {k j : Nat} (hk : k < 64) (hj : j < 8) :
    c.statusWord (4112 + 32 * k + 4 * j) = c.outageWord k j := by
  have e1 : (4112 + 32 * k + 4 * j - 4112) / 32 = k := by omega
  have e2 : (4112 + 32 * k + 4 * j - 4112) % 32 / 4 = j := by omega
  simp (disch := omega) only [Chip.statusWord, if_neg, if_pos, e1, e2]

theorem Chip.statusWord_element (c : Chip) {e : Nat} (h : e < 640) :
    c.statusWord (6400 + 4 * e) = (c.element e).word := by
  have e1 : (6400 + 4 * e - 6400) / 4 = e := by omega
  simp (disch := omega) only [Chip.statusWord, if_neg, if_pos, e1]

/-- The words of a view that stands at an offset are the view's words. -/
theorem Chip.words_of_view (c : Chip) {off n : Nat} {l : List Word} (hl : l.length = n)
    (h : ∀ k, k < n → c.statusWord (off + 4 * k) = item l k) :
    ((List.range n).map fun k => c.statusWord (off + 4 * k)) = l := by
  subst hl
  calc ((List.range l.length).map fun k => c.statusWord (off + 4 * k))
      = (List.range l.length).map (item l) :=
        List.map_congr_left fun k hk => h k (List.mem_range.mp hk)
    _ = l := map_item_range l

/-- The paused stage reads 0 but for a pass that is PAUSED. -/
theorem Pass.pausedStage_eq (p : Pass) :
    p.pausedStage = if p.state = .paused then (p.point.map (·.stage)).getD 0 else 0 := by
  obtain ⟨state, minute, cursor, point⟩ := p
  cases state <;> cases point <;> rfl

theorem bankWord_eq (r : Option (BitVec 13)) :
    bankWord r = match r with
      | some row => BitVec.ofNat 32 row.toNat
      | none => Config.closedBankCode := by
  cases r with
  | none => rfl
  | some row => exact (BitVec.ofNat_toNat 32 row).symm

theorem sourceByte_toNat_mod (s : Option Nat) : (sourceByte s).toNat % 256 = s.getD 255 % 256 := by
  cases s with
  | none => rfl
  | some n => simp [sourceByte]

/-- The word of an element as one sum of its fields. -/
theorem Element.word_eq (el : Element) :
    el.word = num (flag el.record.inUse + 16 * el.sup.level.code + 256 * el.sup.state.code
      + 65536 * el.sup.history.toNat) := by
  have h1 := flag_le el.record.inUse
  have h2 : el.sup.level.code ≤ 2 := by cases el.sup.level <;> decide
  have h3 : el.sup.state.code ≤ 3 := by cases el.sup.state <;> decide
  unfold Element.word
  rw [packWord_half _ _ _ el.sup.history.isLt]
  congr 1
  omega

/-- The eight words of an outage-view place that holds a record. -/
theorem Chip.outageWords_of_some {c : Chip} {k : Nat} {o : Outage} (h : c.outages.records[k]? = some o) :
    ((List.range 8).map (c.outageWord k)) = o.words ++ [0, 0, 0] := by
  have e : c.outageWord k = item o.words := funext fun j => by simp only [Chip.outageWord, h]
  rw [e]
  rfl

/-- Every word of an outage-view place past the record count is 0. -/
theorem Chip.outageWords_of_none {c : Chip} {k : Nat} (h : c.outages.records[k]? = none) :
    ((List.range 8).map (c.outageWord k)) = List.replicate 8 0 := by
  have e : c.outageWord k = fun _ => 0 := funext fun j => by simp only [Chip.outageWord, h]
  rw [e]
  rfl

/-! ### The merged outcome words -/

theorem headerWord_eq (o : OutcomeCode) (gen : Option Half) :
    headerWord o gen = num (o.byte.toNat + 256 * flag gen.isSome + 65536 * (gen.getD 0).toNat) := by
  have h1 := flag_le gen.isSome
  have h2 := o.byte.isLt
  unfold headerWord
  rw [packWord_half _ _ _ (gen.getD 0).isLt]
  congr 1
  omega

theorem SlotOutcome.word_eq (o : SlotOutcome) :
    o.word = num (o.code.byte.toNat + 65536 * o.index.toNat) := by
  have h := o.code.byte.isLt
  unfold SlotOutcome.word
  rw [packWord_half _ _ _ o.index.isLt]
  congr 1
  omega

/-- A part in AWAIT MODE or TRANSPARENT merges no word. -/
theorem Chip.merged_unwatched (c : Chip) (k : WordKind) (h : c.part.state.unwatched = true) : c.merged k = none := by
  simp [Chip.merged, h]

/-- In FILL and RUNNING the LINE-UP and PLANT outcome words are merged once a take is in force (R171). -/
theorem Chip.merged_outcomes_watching {c : Chip} (h : c.part.state = .fill ∨ c.part.state = .running) :
    c.merged .lineUpOutcome =
        (if c.lineUp.gen.isSome then some (headerWord c.lineUp.outcome c.lineUp.gen) else none)
      ∧ c.merged .plantOutcome =
        (if c.plant.gen.isSome then some (headerWord c.plant.outcome c.plant.gen) else none) := by
  obtain h | h := h <;> simp [Chip.merged, h, PartState.unwatched, outcomeMerged]

/-- In CONFIG FAULT the outcome word of a refused automatic take shows its refusal (R11, R72). -/
theorem Chip.merged_outcomes_fault {c : Chip} (h : c.part.state = .configFault) :
    (c.lineUp.gen = none → c.lineUp.outcome ≠ .notTaken →
        c.merged .lineUpOutcome = some (headerWord c.lineUp.outcome none))
      ∧ (c.plant.gen = none → c.plant.outcome ≠ .notTaken →
        c.merged .plantOutcome = some (headerWord c.plant.outcome none)) := by
  constructor <;> intro hg ho <;> simp [Chip.merged, h, PartState.unwatched, outcomeMerged, hg, ho]

/-- The words of a position: its flags, effective source, blackout zones and confirmed crosspoint, then its count and
condition. -/
theorem Chip.positionWords_eq (c : Chip) (q : Nat) :
    c.positionWords q =
      [packWord (flag (c.channel q).used + 2 * flag (c.effective q).onBackup) ((c.effective q).source.getD 255)
          (vget c.lineUp.zones q).toNat (c.point q).confirmed.byte.toNat
       , packWord (c.point q).mismatch (c.point q).condition.code 0 0] := by
  have first := fun z k : Nat => packWord_congr (a := flag (c.channel q).used + 2 * flag (c.effective q).onBackup)
    (c := z) (d := k) rfl (sourceByte_toNat_mod (c.effective q).source) rfl rfl
  exact congrArg (fun x => [x, _]) (first _ _)

/-- The words of an outage record. -/
theorem Outage.words_eq (o : Outage) :
    o.words = [packWord o.id.toNat o.kind.code o.state.code o.cause.code
      , packWord o.object (o.object / 256) (flag o.acknowledged) 0, num (o.start.getD 4294967295)
      , num (o.stop.getD 4294967295), num (o.affected % 65536)] := by
  have field : ∀ m : Option Nat, minuteField m = m.getD 4294967295 := fun m => by cases m <;> rfl
  unfold Outage.words
  rw [field, field, packWord_congr (Nat.mod_mod o.object 256) rfl rfl rfl]

/-- Settles O60: the STATUS views one by one, each by the lemma on its stretch of the STATUS region, then the merged
words by the part state that merges them. -/
theorem statusViewsShowTheState : Obligations.StatusViewsShowTheState := by
  refine ⟨fun c => ⟨rfl, rfl, ?start, rfl, ?orders, ?clock, ?memory, fun b hb => ?branch, fun q hq => ?position,
    fun k hk => c.statusWord_source hk, ?rack, rfl, fun k hk => ?outage, fun e he => ?element⟩, fun c j off => ?merged,
    rfl, rfl, rfl, rfl, rfl, rfl, rfl, rfl⟩
  case start => exact List.map_congr_left fun k hk => c.statusWord_startView (List.mem_range.mp hk)
  case orders => exact c.words_of_view (l := c.orderView) rfl fun k hk => c.statusWord_orderView (by omega)
  case clock =>
    refine (c.words_of_view (n := 14) (l := c.clockView) rfl fun k hk => c.statusWord_clockView (by omega)).trans ?_
    unfold Chip.clockView
    rw [Pass.pausedStage_eq]
    rfl
  case memory =>
    refine (c.words_of_view (n := 16) (l := c.memoryView) rfl fun k hk => c.statusWord_memoryView (by omega)).trans ?_
    simp only [Chip.memoryView, bankWord_eq]
    rfl
  case branch =>
    exact c.words_of_view (l := (c.branch b).view) rfl fun k hk => c.statusWord_branchView hb (by omega)
  case position =>
    refine (c.words_of_view (l := c.positionWords q) rfl fun k hk => c.statusWord_position hq hk).trans ?_
    rw [Chip.positionWords_eq]
    cases h : (c.point q).confirmed with
    | source n =>
      have byte : (Confirmed.byte (.source n)).toNat % 256 = n % 256 := by simp [Confirmed.byte]
      exact congrArg (fun x => [x, _]) (packWord_congr rfl rfl rfl byte)
    | nothing => rfl
    | unknown => rfl
  case rack => exact c.words_of_view (l := c.rackView) rfl fun k hk => c.statusWord_rackView hk
  case outage =>
    have words : (List.range 8).map (fun j => c.statusWord (4112 + 32 * k + 4 * j)) =
        (List.range 8).map (c.outageWord k) :=
      List.map_congr_left fun j hj => c.statusWord_outage hk (List.mem_range.mp hj)
    refine words.trans ?_
    cases h : c.outages.records[k]? with
    | none => exact Chip.outageWords_of_none h
    | some o => rw [Chip.outageWords_of_some h, Outage.words_eq]; rfl
  case element => exact (c.statusWord_element he).trans (c.element e).word_eq
  case merged =>
    refine ⟨fun h => ?_, fun h => ?_, fun h => ?_, fun h => ?_, ⟨fun h hg => ?_, fun h hg ho => ?_, fun h hg => ?_⟩,
      ⟨fun h hg => ?_, fun h hg ho => ?_, fun h hg => ?_⟩, fun h => ?_, fun h => ?_, fun h k => ?_⟩
    · obtain h | h | h := h <;> simp [Chip.merged, h, PartState.unwatched]
    · obtain h | h := h <;> simp [Chip.merged, h, PartState.unwatched, Chip.statusWord, num]
    · simp [Chip.merged, h, PartState.unwatched, Chip.statusWord, num]
    · simp only [Chip.merged, h, PartState.unwatched, SlotOutcome.word_eq]
      rfl
    · rw [(Chip.merged_outcomes_watching h).1, if_pos hg, headerWord_eq]
      rfl
    · rw [(Chip.merged_outcomes_fault h).1 hg ho, headerWord_eq]
      rfl
    · rw [(Chip.merged_outcomes_watching h).1, hg]
      rfl
    · rw [(Chip.merged_outcomes_watching h).2, if_pos hg, headerWord_eq]
      rfl
    · rw [(Chip.merged_outcomes_fault h).2 hg ho, headerWord_eq]
      rfl
    · rw [(Chip.merged_outcomes_watching h).2, hg]
      rfl
    · simp [Chip.merged, h]
    · cases st : c.part.state <;> simp_all [Chip.merged, PartState.unwatched]
    · exact c.merged_unwatched k (by obtain h | h := h <;> rw [h] <;> rfl)

end Sys2Proof.Machine

namespace Sys2Proof.Machine

/-! ### A block that an operation does not reach -/

section
variable {bs : List Block} {c d : Chip} (h : Reaches bs c d)
include h

theorem Reaches.part (hb : Block.part ∉ bs) : d.part = c.part := h .part hb
theorem Reaches.path (hb : Block.path ∉ bs) : d.path = c.path := h .path hb
theorem Reaches.engine (hb : Block.engine ∉ bs) : d.engine = c.engine := h .engine hb
theorem Reaches.lineUp (hb : Block.lineUp ∉ bs) : d.lineUp = c.lineUp := h .lineUp hb
theorem Reaches.subs (hb : Block.subs ∉ bs) : d.subs = c.subs := h .subs hb
theorem Reaches.store (hb : Block.store ∉ bs) : d.store = c.store := h .store hb
theorem Reaches.ports (hb : Block.ports ∉ bs) : d.ports = c.ports := h .ports hb
theorem Reaches.sweep (hb : Block.sweep ∉ bs) : d.sweep = c.sweep := h .sweep hb
theorem Reaches.branches (hb : Block.branches ∉ bs) : d.branches = c.branches := h .branches hb
theorem Reaches.elements (hb : Block.elements ∉ bs) : d.elements = c.elements := h .elements hb
theorem Reaches.plant (hb : Block.plant ∉ bs) : d.plant = c.plant := h .plant hb
theorem Reaches.rack (hb : Block.rack ∉ bs) : d.rack = c.rack := h .rack hb
theorem Reaches.sources (hb : Block.sources ∉ bs) : d.sources = c.sources := h .sources hb
theorem Reaches.outages (hb : Block.outages ∉ bs) : d.outages = c.outages := h .outages hb
theorem Reaches.clock (hb : Block.clock ∉ bs) : d.clock = c.clock := h .clock hb
theorem Reaches.pass (hb : Block.pass ∉ bs) : d.pass = c.pass := h .pass hb
theorem Reaches.orders (hb : Block.orders ∉ bs) : d.orders = c.orders := h .orders hb
theorem Reaches.journal (hb : Block.journal ∉ bs) : d.journal = c.journal := h .journal hb
theorem Reaches.drawn (hb : Block.drawn ∉ bs) : d.drawn = c.drawn := h .drawn hb

end

/-! ### The selections, one by one -/

/-- Branch links with nothing to select stay as they are. -/
theorem Chip.armBranches_quiet {c : Chip} (h : ∀ b, b < 4 → c.quietBranch b = true) : c.armBranches = c :=
  forIndices_keeps (P := fun d => d = c) 4 rfl fun d b hb e => by rw [e, c.armBranch_quiet b (h b hb)]

/-- A rack link with nothing to select stays as it is. -/
theorem Chip.armRack_quiet {c : Chip} (h : c.quietRack = true) : c.armRack = c := by
  unfold Chip.quietRack at h
  simp only [Bool.or_eq_true, Bool.and_eq_true, Bool.not_eq_true', beq_iff_eq] at h
  obtain held | ⟨stopped, silent⟩ := h
  · exact c.armRack_held held
  · simp [Chip.armRack, stopped, silent]

/-- An Order Taker with nothing to take stays as it is. -/
theorem Chip.armOrders_quiet {c : Chip} (h : c.quietOrders = true) : c.armOrders = c := by
  refine if_neg fun taken => ?_
  simp only [Bool.and_eq_true, bne_iff_ne] at taken
  obtain ⟨⟨runs, free⟩, waits⟩ := taken
  unfold Chip.quietOrders at h
  simp only [runs, Bool.not_true, Bool.false_or, Bool.or_eq_true, beq_iff_eq, waits, or_false] at h
  rw [Option.isNone_iff_eq_none] at free
  simp [free] at h

/-- A request of the bus changes the request state alone, and that only from IDLE to REQUESTING (R172). -/
theorem Chip.requestBus_engine (c : Chip) :
    c.requestBus.engine = { c.engine with request := c.requestBus.engine.request }
      ∧ (c.requestBus.engine.request = c.engine.request
        ∨ (c.engine.request = .idle ∧ c.requestBus.engine.request = .requesting)) := by
  unfold Chip.requestBus
  split
  · next h => exact ⟨rfl, .inr ⟨h.1, rfl⟩⟩
  · exact ⟨rfl, .inl rfl⟩

theorem Chip.quiet_branch {c : Chip} (h : c.quiet = true) {b : Nat} (hb : b < 4) : c.quietBranch b = true := by
  simp only [Chip.quiet, Bool.and_eq_true, List.all_eq_true, List.mem_range] at h
  obtain ⟨⟨⟨branches, -⟩, -⟩, -⟩ := h
  exact branches b hb
theorem Chip.quiet_rack {c : Chip} (h : c.quiet = true) : c.quietRack = true := by
  simp only [Chip.quiet, Bool.and_eq_true] at h
  obtain ⟨⟨⟨-, rack⟩, -⟩, -⟩ := h
  exact rack
theorem Chip.quiet_orders {c : Chip} (h : c.quiet = true) : c.quietOrders = true := by
  simp only [Chip.quiet, Bool.and_eq_true] at h
  obtain ⟨⟨-, orders⟩, -⟩ := h
  exact orders

/-- Where neither the links nor the Order Taker have anything to select, the selections are the bus request alone. -/
theorem Chip.settle_eq_requestBus {c : Chip} (hb : ∀ b, b < 4 → c.quietBranch b = true) (hr : c.quietRack = true)
    (ho : c.quietOrders = true) : c.settle = c.requestBus := by
  rw [Chip.settle, Chip.armBranches_quiet hb, Chip.armRack_quiet hr, Chip.armOrders_quiet ho]

theorem Chip.armOrders_engine (c : Chip) : c.armOrders.engine = c.engine :=
  c.armOrders_reaches .engine (by decide)
theorem Chip.armRack_engine (c : Chip) : c.armRack.engine = c.engine := c.armRack_reaches .engine (by decide)
theorem Chip.armBranches_engine (c : Chip) : c.armBranches.engine = c.engine :=
  c.armBranches_reaches .engine (by decide)

/-- The selections change of the engine the request state alone, and that only from IDLE to REQUESTING (R172). -/
theorem Chip.settle_engine (c : Chip) :
    c.settle.engine = { c.engine with request := c.settle.engine.request }
      ∧ (c.settle.engine.request = c.engine.request
        ∨ (c.engine.request = .idle ∧ c.settle.engine.request = .requesting)) := by
  have before : c.armBranches.armRack.armOrders.engine = c.engine := by
    rw [Chip.armOrders_engine, Chip.armRack_engine, Chip.armBranches_engine]
  have := c.armBranches.armRack.armOrders.requestBus_engine
  rwa [before] at this

/-- Where the branch links have nothing to select, the selections keep ports and branches. -/
theorem Chip.settle_ports_branches {c : Chip} (hb : ∀ b, b < 4 → c.quietBranch b = true) :
    c.settle.ports = c.ports ∧ c.settle.branches = c.branches := by
  have h : Reaches [.rack, .orders, .engine] c c.settle := by
    rw [Chip.settle, Chip.armBranches_quiet hb]
    exact ((c.armRack_reaches.then (by rfl) (Chip.armOrders_reaches _) (bs := [.rack, .orders])).then (by rfl)
      (Chip.requestBus_reaches _))
  exact ⟨h .ports (by decide), h .branches (by decide)⟩

/-- The rack link of a settled part: it selects after the branch links, which do not reach it. -/
theorem Chip.armRack_rack_congr {c d : Chip} (hr : d.rack = c.rack) (hp : d.part = c.part)
    (hl : d.lineUp = c.lineUp) : d.armRack.rack = c.armRack.rack := by
  have select : d.selectRack.rack = c.selectRack.rack := by
    simp only [Chip.selectRack, Chip.startRack, Chip.effective, hr, hl]
    repeat' split
    all_goals simp only [Chip.setRack_rack]
  simp only [Chip.armRack, Chip.running, hr, hp]
  repeat' split
  all_goals simp only [Chip.setRack_rack, hr, select]

theorem Chip.settle_rack_eq (c : Chip) : c.settle.rack = c.armRack.rack :=
  c.settle_rack.trans (Chip.armRack_rack_congr (c.armBranches_reaches .rack (by decide))
    (c.armBranches_reaches .part (by decide)) (c.armBranches_reaches .lineUp (by decide)))

/-- A rack link with nothing to select is kept by the selections. -/
theorem Chip.settle_rack_quiet {c : Chip} (h : c.quietRack = true) : c.settle.rack = c.rack := by
  rw [Chip.settle_rack_eq, Chip.armRack_quiet h]

/-- The orders of a settled part whose Order Taker has nothing to take. -/
theorem Chip.settle_orders_quiet {c : Chip} (h : c.quietOrders = true) : c.settle.orders = c.orders := by
  have before : c.armBranches.armRack.orders = c.orders := by rw [Chip.armRack_orders, Chip.armBranches_orders]
  have part : c.armBranches.armRack.part = c.part :=
    Chip.fixed_part ((Chip.armRack_fixed _).trans c.armBranches_fixed)
  have quiet : c.armBranches.armRack.quietOrders = true := by
    rwa [Chip.quietOrders, Chip.running, before, part, ← Chip.running]
  rw [Chip.settle_orders, Chip.armOrders_quiet quiet, before]

/-! ### What decides whether there is anything to select -/

/-- The table and supervision records of every element are the same in two parts; marks and what was heard may
differ. -/
def SameUnits (c d : Chip) : Prop :=
  ∀ e, (d.element e).record = (c.element e).record ∧ (d.element e).sup = (c.element e).sup

theorem SameUnits.of_elements {c d : Chip} (h : d.elements = c.elements) : SameUnits c d := by
  intro e; simp only [Chip.element, h, and_self]
theorem SameUnits.trans {c d e : Chip} (h : SameUnits c d) (h' : SameUnits d e) : SameUnits c e :=
  fun x => ⟨(h' x).1.trans (h x).1, (h' x).2.trans (h x).2⟩

theorem ancestorsFrom_congr {es fs : Vector Element 640} (h : ∀ e, (vget fs e).record = (vget es e).record)
    (fuel e : Nat) : ancestorsFrom fs fuel e = ancestorsFrom es fuel e := by
  induction fuel generalizing e with
  | zero => rfl
  | succ fuel ih => simp only [ancestorsFrom, h, ih]

theorem SameUnits.branchOf {c d : Chip} (h : SameUnits c d) (e : Nat) : d.branchOf e = c.branchOf e := by
  simp only [Chip.branchOf, rootFrom, ancestorsFrom_congr fun e => (h e).1]

theorem SameUnits.pollable {c d : Chip} (h : SameUnits c d) (b : Nat) : d.pollable b = c.pollable b := by
  funext e
  simp only [Chip.pollable, (h e).1, (h e).2, h.branchOf]

theorem SameUnits.linkOpen {c d : Chip} (h : SameUnits c d) (hp : d.running = c.running) (b : Nat) :
    d.linkOpen b = c.linkOpen b := by
  simp only [Chip.linkOpen, hp, (h b).1, (h b).2]

/-- Whether a branch link has anything to select is decided by its own state and list, the elements' records, and
whether the part is RUNNING. -/
theorem SameUnits.quietBranch {c d : Chip} (h : SameUnits c d) (hp : d.running = c.running) {b : Nat}
    (hb : d.branch b = c.branch b) : d.quietBranch b = c.quietBranch b := by
  simp only [Chip.quietBranch, Chip.pollWaiting, Chip.cursorNext, h.linkOpen hp, h.pollable, hb]

theorem Chip.running_congr {c d : Chip} (h : d.part = c.part) : d.running = c.running := by
  simp only [Chip.running, h]

/-- What follows a part that stood with nothing to select, where elements kept their records and the ports, branches,
rack and orders stood still: the bus request alone. -/
theorem Chip.settle_requestBus_of_quiet {c d : Chip} (hq : c.quiet = true) (hp : d.running = c.running)
    (hu : SameUnits c d) (hb : d.branches = c.branches) (hr : d.rack = c.rack) (ho : d.orders = c.orders) :
    d.settle = d.requestBus := by
  refine Chip.settle_eq_requestBus (fun b h => ?_) ?_ ?_
  · rw [hu.quietBranch hp (by simp only [Chip.branch, hb])]
    exact Chip.quiet_branch hq h
  · rw [Chip.quietRack, hr, hp]
    exact Chip.quiet_rack hq
  · rw [Chip.quietOrders, ho, hp]
    exact Chip.quiet_orders hq

/-- Silent links of a part that is not RUNNING have nothing to select. -/
theorem Chip.quietBranch_silent {c : Chip} {b : Nat} (hp : c.running = false) (hs : (c.branch b).link = .silent) :
    c.quietBranch b = true := by
  simp [Chip.quietBranch, Chip.linkOpen, hp, hs]
theorem Chip.quietRack_silent {c : Chip} (hp : c.running = false) (hs : c.rack.link = .silent) :
    c.quietRack = true := by simp [Chip.quietRack, hp, hs]
theorem Chip.quietOrders_stopped {c : Chip} (hp : c.running = false) : c.quietOrders = true := by
  simp [Chip.quietOrders, hp]

end Sys2Proof.Machine

namespace Sys2Proof.Machine

/-! ### A host write to a 16-bit word -/

@[simp] theorem halfWord_addr (h : HalfWrite) (a : Nat) : (halfWord h a).addr = a := rfl

/-- A write to a 16-bit word touches the bytes its two flags name, and never the upper half. -/
theorem halfWord_touches (h : HalfWrite) (a : Nat) :
    (halfWord h a).touches 0 = h.lo ∧ (halfWord h a).touches 1 = h.hi ∧ (halfWord h a).touches 2 = false
      ∧ (halfWord h a).touches 3 = false := by
  obtain ⟨value, lo, hi⟩ := h
  cases lo <;> cases hi <;> simp [halfWord, HostWord.touches]

theorem halfWord_lanes (h : HalfWrite) (a : Nat) :
    lane (halfWord h a).data 0 = h.value.setWidth 8 ∧ lane (halfWord h a).data 1 = (h.value >>> 8).setWidth 8 := by
  constructor <;> simp only [lane, halfWord] <;> ext i hi <;> simp
  all_goals omega

/-- The two bytes of a host write to a 16-bit word, written one after the other. -/
theorem Memory.writeHost_half (m : Memory) (base : Nat) (h : HalfWrite) (a : Nat) :
    Memory.writeHost m base (halfWord h a) =
      let m1 := if h.lo = true then Memory.write m (a - base) (h.value.setWidth 8) else m
      if h.hi = true then Memory.write m1 (a - base + 1) ((h.value >>> 8).setWidth 8) else m1 := by
  obtain ⟨t0, t1, t2, t3⟩ := halfWord_touches h a
  obtain ⟨l0, l1⟩ := halfWord_lanes h a
  simp [Memory.writeHost, forIndices_succ, t0, t1, t2, t3, l0, l1]

/-- A read after a host write to a 16-bit word. -/
theorem Memory.read_writeHost_half {m : Memory} (w : Memory.wf m = true) (h : HalfWrite) (base a x : Nat) :
    Memory.read (Memory.writeHost m base (halfWord h a)) x =
      if x = a - base ∧ h.lo = true then h.value.setWidth 8
      else if x = a - base + 1 ∧ h.hi = true then (h.value >>> 8).setWidth 8
      else Memory.read m x := by
  rw [Memory.writeHost_half]
  have low : ∀ y, Memory.read (if h.lo = true then Memory.write m (a - base) (h.value.setWidth 8) else m) y =
      if y = a - base ∧ h.lo = true then h.value.setWidth 8 else Memory.read m y := by
    intro y
    split <;> simp_all [Memory.read_write]
  have canonical : Memory.wf (if h.lo = true then Memory.write m (a - base) (h.value.setWidth 8) else m) = true := by
    split
    · exact Memory.write_wf _ _ w
    · exact w
  dsimp only
  split
  · next hi =>
    rw [Memory.read_write canonical, low]
    by_cases hx : x = a - base + 1 <;> simp [hx, hi]
  · next hi => simp [low, hi]

/-- The bytes of a host write to a 16-bit word of the array stand there, and no other byte changes. -/
theorem halfWritten_writeHost {m : Memory} (w : Memory.wf m = true) (h : HalfWrite) (a : Nat) :
    HalfWritten m (Memory.writeHost m 0 (halfWord h a)) a h :=
  fun x => Memory.read_writeHost_half w h 0 a x

theorem halfWord_touchesLow (h : HalfWrite) (a : Nat) : (halfWord h a).touchesLow = (h.lo || h.hi) := by
  obtain ⟨t0, t1, -, -⟩ := halfWord_touches h a
  rw [HostWord.touchesLow, t0, t1]

theorem halfWord_writes (h : HalfWrite) (a : Nat) : (halfWord h a).writes = (h.lo || h.hi) := by
  obtain ⟨t0, t1, t2, t3⟩ := halfWord_touches h a
  rw [HostWord.writes, t0, t1, t2, t3, Bool.or_false, Bool.or_false]

/-- The valid marks of a host write to a 16-bit word: its written bytes are marked (R183). -/
theorem read_markBytes_half {m : Memory} (w : Memory.wf m = true) (h : HalfWrite) (a x : Nat) :
    Memory.read (markBytes m (halfWord h a)) x =
      if (x = a ∧ h.lo = true) ∨ (x = a + 1 ∧ h.hi = true) then 1 else Memory.read m x := by
  obtain ⟨t0, t1, t2, t3⟩ := halfWord_touches h a
  have marks : markBytes m (halfWord h a) =
      let m1 := if h.lo = true then Memory.write m a 1 else m
      if h.hi = true then Memory.write m1 (a + 1) 1 else m1 := by
    simp [markBytes, forIndices_succ, t0, t1, t2, t3]
  rw [marks]
  cases hl : h.lo <;> cases hh : h.hi <;>
    simp [Memory.read_write, w, Memory.write_wf]
  by_cases h1 : x = a + 1 <;> by_cases h0 : x = a <;> simp [h0, h1]

/-! ### A host write that stands alone -/

/-- With no burst in progress a host write of one word is that word, and then its event. -/
theorem State.writeAlone_eq (s : State) (w : HostWord) (h : s.chip.path.burst = none) :
    s.writeAlone w = (s.quietLines.hostWrite w).1.handEvents (s.quietLines.hostWrite w).2.toList := by
  unfold State.writeAlone
  rw [State.endBurst_none s.quietLines h]

/-- A word that passes: the array alone changes, and no event follows. -/
theorem State.writeAlone_pass {s : State} {w : HostWord} (hb : s.chip.path.burst = none) (hw : w.writes = true)
    (hr : writeRule (s.chip.kindOf w.addr) s.chip.part.state = .pass) :
    s.writeAlone w = s.quietLines.passWord w := by
  simp [State.writeAlone_eq s w hb, State.hostWrite, hw, hr, State.handEvents]

/-- A captured word, with the event that follows it. -/
theorem State.writeAlone_capture {s : State} {w : HostWord} (hb : s.chip.path.burst = none) (hw : w.writes = true)
    (hr : writeRule (s.chip.kindOf w.addr) s.chip.part.state = .capture) :
    s.writeAlone w = (s.quietLines.captureWord (s.chip.kindOf w.addr) w).handEvents
      (takeEventOf (s.chip.kindOf w.addr) w).toList := by
  simp [State.writeAlone_eq s w hb, State.hostWrite, hw, hr]

/-- The config take word in CONFIG FAULT: the word passes, and the retake follows (R186). -/
theorem State.writeAlone_retake {s : State} {w : HostWord} (hb : s.chip.path.burst = none) (hw : w.writes = true)
    (ht : w.touchesLow = true) (hr : writeRule (s.chip.kindOf w.addr) s.chip.part.state = .retake) :
    s.writeAlone w = (s.quietLines.passWord w).handEvent .configTake := by
  simp [State.writeAlone_eq s w hb, State.hostWrite, hw, hr, ht, State.handEvents]

end Sys2Proof.Machine

namespace Sys2Proof.Machine

/-! ### The config retake -/

/-- The kind of a word of the CONFIG region, wherever the map lies (R167). -/
theorem Chip.kindOf_configBase (c : Chip) {off : Nat} (h : off < 256) :
    c.kindOf (c.configBase + off) = configKind off := by
  simp (disch := omega) only [Chip.kindOf, if_pos, Nat.add_sub_cancel_left]

/-- A branch link after the reset of every block keeps its carrier input, timed afresh (R65). -/
theorem keepInputs_reset (old : Vector Branch 4) {b : Nat} (h : b < 4) :
    vget (keepInputs old (Vector.replicate 4 Branch.reset)) b =
      { Branch.reset with input := (vget old b).input, timing := timerFor .unsettled (vget old b).input } := by
  unfold keepInputs
  rw [vget, Vector.getElem?_eq_getElem h, Vector.getElem_ofFn, Option.getD_some, vget_replicate _ _ h]

theorem timerFor_unsettled (high : Bool) : timerFor .unsettled high = unsettledTimer high := by cases high <;> rfl

/-- A branch link of a part just reset is SILENT, with its carrier timed afresh. -/
theorem Chip.hardReset_branch (c : Chip) (strap : BitVec 4) (cause : ResetCause) {b : Nat} (h : b < 4) :
    (c.hardReset strap cause).branch b =
      { Branch.reset with input := (c.branch b).input, timing := unsettledTimer (c.branch b).input } := by
  rw [← timerFor_unsettled]
  exact keepInputs_reset c.branches h

theorem Chip.retake_branches (c : Chip) : c.retake.branches = (c.hardReset c.part.strap .configRetake).branches := rfl

/-- After a retake no link has anything to select; of the selections the bus request alone is left. -/
theorem Chip.settle_retake (c : Chip) : c.retake.settle = c.retake.requestBus := by
  refine Chip.settle_eq_requestBus (fun b h => Chip.quietBranch_silent rfl ?_) rfl (Chip.quietOrders_stopped rfl)
  exact congrArg Branch.link (c.hardReset_branch c.part.strap .configRetake h)

/-- The engine after a retake: it requests the fill's reads where the memory state is NORMAL (R172, R181). -/
theorem Chip.settle_retake_engine (c : Chip) :
    c.retake.settle.engine =
      { Engine.reset with request := if c.path.mem = .normal then .requesting else .idle } := by
  have pending : c.retake.transferPending = true := rfl
  have active : c.retake.active = true := rfl
  have mem : c.retake.path.mem = c.path.mem := rfl
  have idle : c.retake.engine = Engine.reset := rfl
  rw [Chip.settle_retake, Chip.requestBus, pending, active, mem, idle]
  by_cases normal : c.path.mem = .normal
  · rw [if_pos ⟨rfl, rfl, rfl, normal⟩, if_pos normal]; rfl
  · rw [if_neg fun m => normal m.2.2.2, if_neg normal]; rfl

/-- The blocks that a retake resets, with what follows it. -/
theorem Chip.settle_retake_blocks (c : Chip) {s t : State} (ht : t.chip = c.retake.settle)
    (hs : s.chip.branches = c.branches) : BlocksReset unsettledTimer s t := by
  have reach := c.retake.requestBus_reaches
  rw [← Chip.settle_retake, ← ht] at reach
  refine ⟨reach .lineUp (by decide), reach .subs (by decide), reach .store (by decide), reach .ports (by decide),
    reach .sweep (by decide), fun b h => ?_, reach .elements (by decide), reach .plant (by decide),
    reach .rack (by decide), reach .sources (by decide), reach .outages (by decide), reach .clock (by decide),
    reach .pass (by decide), reach .orders (by decide), reach .journal (by decide)⟩
  have branches : t.chip.branches = (c.hardReset c.part.strap .configRetake).branches := reach .branches (by decide)
  simp only [Chip.branch, branches, hs]
  exact c.hardReset_branch c.part.strap .configRetake h

/-- Outside CONFIG FAULT a write to the config take word passes like any other word of the block (R168). -/
theorem writeRule_configTake_pass {st : PartState} (h : st ≠ .configFault) : writeRule .configTake st = .pass := by
  cases st <;> first | rfl | exact absurd rfl h

/-- CONFIG_RETAKE as the write of one word, the strap sampled by the part alone. -/
theorem exec_configRetake_eq (strap : BitVec 4) (h : HalfWrite) (s : State) (hf : s.chip.engine.request ≠ .holding) :
    exec (.configRetake strap h) s =
      .next ((s.onChip fun c => c.setStrap strap).writeAlone (halfWord h (s.chip.configBase + 68))) := by
  have host : s.hostBus = true := bne_iff_ne.mpr hf
  have e : exec (.configRetake strap h) s = execConfigRetake strap h s := rfl
  rw [e, execConfigRetake, State.onBus, if_pos host]
  rfl

/-- The config take event is the retake, with what follows it. -/
theorem State.handEvent_configTake (s : State) : s.handEvent .configTake = s.onChip fun c => c.retake.settle := rfl

/-- Settles O12: the word passes in every part state; in CONFIG FAULT the retake follows it, and then the bus request. -/
theorem configRetakeOnlyInConfigFault : Obligations.ConfigRetakeOnlyInConfigFault := by
  intro strap h s ⟨free, burst⟩ touched
  have kind : (s.chip.setStrap strap).kindOf (s.chip.configBase + 68) = .configTake :=
    (s.chip.setStrap strap).kindOf_configBase (by omega)
  have low : (halfWord h (s.chip.configBase + 68)).touchesLow = true := by
    rw [halfWord_touchesLow]; simpa using touched
  have writes : (halfWord h (s.chip.configBase + 68)).writes = true := by
    rw [halfWord_writes]; simpa using touched
  rw [exec_configRetake_eq strap h s free]
  refine ⟨fun fault => ⟨_, rfl, ?_⟩, fun other => ⟨_, rfl, ?_⟩⟩
  · rw [State.writeAlone_retake (s := s.onChip fun c => c.setStrap strap) burst writes low
      (by simp only [State.onChip_chip, halfWord_addr, kind]; exact congrArg (writeRule .configTake) fault),
      State.handEvent_configTake]
    simp only [State.onChip_chip, State.onChip_array, State.onChip_pending, State.passWord_chip, State.passWord_array,
      State.passWord_pending, State.quietLines_chip, State.quietLines_array, State.quietLines_pending]
    have part := (s.chip.setStrap strap).retake.settle_part
    refine ⟨part, Chip.settle_retake_blocks (s.chip.setStrap strap) ?chip rfl, (s.chip.setStrap strap).retake.settle_path,
      Chip.settle_retake_engine (s.chip.setStrap strap), ?reads, ?attn, fun w => halfWritten_writeHost w h _, trivial⟩
    case chip =>
      simp only [State.onChip_chip, State.passWord_chip, State.quietLines_chip]
    case reads => simp only [Chip.fillReads, part]; rfl
    case attn => simp only [Chip.attn, part]; rfl
  · rw [State.writeAlone_pass (s := s.onChip fun c => c.setStrap strap) burst writes
      (by simp only [State.onChip_chip, halfWord_addr, kind]; exact writeRule_configTake_pass other)]
    exact ⟨rfl, fun w => halfWritten_writeHost w h _, rfl⟩

end Sys2Proof.Machine

namespace Sys2Proof.Machine

/-! ### What the Outage Table keeps of the elements -/

/-- A field that an update of a record keeps is kept in the whole table. -/
theorem vget_vupd_kept {α β : Type} {n : Nat} [Inhabited α] (π : α → β) {f : α → α} (hf : ∀ x, π (f x) = π x)
    (v : Vector α n) (i j : Nat) : π (vget (vupd v i f) j) = π (vget v j) := by
  by_cases hi : i < n
  · rw [vget_vupd v i j f hi]
    split
    · exact hf _
    · rfl
  · simp [vupd, hi]

/-- An update of one record outside the table changes nothing. -/
theorem vupd_outside {α : Type} {n : Nat} [Inhabited α] (v : Vector α n) {i : Nat} (f : α → α) (h : n ≤ i) :
    vupd v i f = v := by simp [vupd, Nat.not_lt.mpr h]

/-- A table outside its bounds reads as the default record. -/
theorem vget_outside {α : Type} {n : Nat} [Inhabited α] (v : Vector α n) {i : Nat} (h : n ≤ i) :
    vget v i = default := by simp [vget, h]

theorem SameUnits.refl (c : Chip) : SameUnits c c := fun _ => ⟨rfl, rfl⟩

theorem SameUnits.of_reaches {bs : List Block} {c d : Chip} (h : Reaches bs c d) (hb : Block.elements ∉ bs) :
    SameUnits c d := .of_elements (h .elements hb)

theorem SameUnits.ite {c d e : Chip} {p : Prop} [Decidable p] (h : SameUnits c d) (h' : SameUnits c e) :
    SameUnits c (if p then d else e) := by split <;> assumption

theorem SameUnits.loop {f : Chip → Nat → Chip} (hf : ∀ c k, SameUnits c (f c k)) (n : Nat) (c : Chip) :
    SameUnits c (forIndices n f c) :=
  forIndices_keeps (P := SameUnits c) n (.refl c) fun d k _ h => h.trans (hf d k)

theorem Chip.setMark_units (c : Chip) (k : OutageKind) (o : Nat) (m : Option Mark) : SameUnits c (c.setMark k o m) := by
  cases k with
  | plant =>
    exact fun e => ⟨vget_vupd_kept (f := fun x => { x with mark := m }) Element.record (fun _ => rfl) _ o e,
      vget_vupd_kept (f := fun x => { x with mark := m }) Element.sup (fun _ => rfl) _ o e⟩
  | source => exact .of_elements rfl
theorem Chip.noticeOf_units (c : Chip) (i : Nat) (b : EntryBody) : SameUnits c (c.noticeOf i b) :=
  .of_reaches (c.noticeOf_reaches i b) (by decide)
theorem Chip.setOutages_units (c : Chip) (x : OutageTable) : SameUnits c (c.setOutages x) := .of_elements rfl
theorem Chip.appendRecord_units (c : Chip) (l : List Outage) (o : Opening) : SameUnits c (c.appendRecord l o) :=
  (c.setOutages_units _).trans (Chip.noticeOf_units _ _ _)
theorem Chip.openNow_units (c : Chip) (o : Opening) : SameUnits c (c.openNow o) := by
  have opened := fun l => (c.setMark_units o.kind o.object none).trans (Chip.appendRecord_units _ l o)
  unfold Chip.openNow
  exact .ite (opened _) (.ite (opened _) (.ite (.refl c) ((c.setMark_units _ _ _).trans (Chip.noticeOf_units _ _ _))))
theorem Chip.openRequest_units (c : Chip) (o : Opening) : SameUnits c (c.openRequest o) := by
  unfold Chip.openRequest
  exact .ite (c.setOutages_units _) (c.openNow_units o)
theorem Chip.serveMarked_units (c : Chip) : SameUnits c c.serveMarked := by
  unfold Chip.serveMarked
  split
  · exact c.openNow_units _
  · exact .refl c
theorem Chip.openWaiting_units (c : Chip) (k : OutageKind) (o : Nat) : SameUnits c (c.openWaiting k o) := by
  unfold Chip.openWaiting
  dsimp only
  split
  · exact .refl c
  · exact .ite ((c.setOutages_units _).trans (Chip.openNow_units _ _)) (c.setOutages_units _)
theorem Chip.updRecord_units (c : Chip) (id : Byte) (f : Outage → Outage) : SameUnits c (c.updRecord id f) :=
  c.setOutages_units _
theorem Chip.freeRecord_units (c : Chip) (id : Byte) : SameUnits c (c.freeRecord id) := c.setOutages_units _
theorem Chip.recordClosed_units (c : Chip) (r : Outage) : SameUnits c (c.recordClosed r) := by
  have freed : SameUnits c
      (if r.acknowledged then c.freeRecord r.id else c.updRecord r.id fun x => { x with state := .closed }) :=
    .ite (c.freeRecord_units _) (c.updRecord_units _ _)
  unfold Chip.recordClosed
  exact (freed.trans (Chip.serveMarked_units _)).trans (Chip.openWaiting_units _ _ _)
theorem Chip.closeRecord_units (c : Chip) (r : Outage) (k : CloseCause) : SameUnits c (c.closeRecord r k) := by
  have closing := (c.updRecord_units r.id fun x => { x with state := .closing, stop := c.now, cause := k }).trans
    (Chip.noticeOf_units _ r.object (.outageClosed r.id r.kind r.start c.now k))
  unfold Chip.closeRecord
  dsimp only
  split
  · exact closing
  · exact closing.trans (Chip.recordClosed_units _ _)
theorem Chip.closeOf_units (c : Chip) (k : OutageKind) (o : Nat) (p : OutageState → Bool) (w : CloseCause) :
    SameUnits c (c.closeOf k o p w) := by
  unfold Chip.closeOf
  split
  · exact c.closeRecord_units _ _
  · exact .refl c

/-! ### What the sources and the line-up keep of the elements -/

theorem Chip.recomputeUsing_units (c : Chip) (s : Nat) : SameUnits c (c.recomputeUsing s) :=
  .of_reaches (c.recomputeUsing_reaches s) (by decide)
theorem Chip.sourceOpens_units (c : Chip) (s : Nat) (m : Option Nat) : SameUnits c (c.sourceOpens s m) :=
  (c.openRequest_units _).trans (Chip.recomputeUsing_units _ _)
theorem Chip.sourceCloses_units (c : Chip) (s : Nat) : SameUnits c (c.sourceCloses s) :=
  ((c.setMark_units _ _ _).trans (Chip.closeOf_units _ _ _ _ _)).trans (Chip.recomputeUsing_units _ _)
theorem Chip.takeSource_units (c : Chip) (old : Vector SourceSetting 32) (s : Nat) :
    SameUnits c (c.takeSource old s) := by
  have updated := fun f : Source → Source => SameUnits.of_reaches (c.updSource_reaches s f) (by decide)
  unfold Chip.takeSource
  exact .ite (.refl c) (.ite ((updated _).trans (Chip.sourceCloses_units _ _)) (updated _))
theorem Chip.sampleSource_units (c : Chip) (s : Nat) (v : Byte) (u : Bool) : SameUnits c (c.sampleSource s v u) := by
  have updated := fun f : Source → Source => SameUnits.of_reaches (c.updSource_reaches s f) (by decide)
  unfold Chip.sampleSource
  exact .ite ((updated _).trans (Chip.sourceOpens_units _ _ _))
    (.ite ((updated _).trans (Chip.sourceCloses_units _ _)) (updated _))
theorem Chip.setLineUp_units (c : Chip) (x : LineUpEngine) : SameUnits c (c.setLineUp x) := .of_elements rfl
theorem Chip.evaluateList_units (c : Chip) : SameUnits c c.evaluateList := c.setLineUp_units _
theorem Chip.takeLineUp_units (c : Chip) : SameUnits c c.takeLineUp := by
  have sources := fun d : Chip => SameUnits.loop (fun e s => e.takeSource_units c.lineUp.current.sources s) 32 d
  have positions := fun d : Chip => SameUnits.of_reaches
    (forIndices_reaches (fun e q => e.recomputeEffective_reaches .take q) 64 d) (by decide)
  have evaluated := (((c.setLineUp_units { c.lineUp with
      current := mirrorLineUp c.lineUp.mirror, gen := some (takeWord c.lineUp.mirror), outcome := .done }).trans
    (sources _)).trans (positions _)).trans (Chip.evaluateList_units _)
  unfold Chip.takeLineUp
  dsimp only
  split
  · exact evaluated.trans (.of_reaches (Chip.setSweep_reaches _ _) (by decide))
  · exact evaluated
theorem Chip.tryLineUp_units (c : Chip) : SameUnits c c.tryLineUp := by
  unfold Chip.tryLineUp
  split
  · exact .of_elements rfl
  · exact c.takeLineUp_units
theorem Chip.lineUpEvent_units (c : Chip) : SameUnits c c.lineUpEvent := by
  unfold Chip.lineUpEvent
  exact .ite (.refl c) (.ite (.of_elements rfl) c.tryLineUp_units)
theorem Chip.heldTake_units (c : Chip) : SameUnits c c.heldTake := by
  have noted : SameUnits c (c.setLineUp { c.lineUp with held := false }) := .of_elements rfl
  unfold Chip.heldTake
  exact .ite (.ite (noted.trans (Chip.tryLineUp_units _)) (.of_elements rfl)) (.refl c)
theorem Chip.sweepStep_units (c : Chip) : SameUnits c c.sweepStep := by
  have recomputed := fun p => SameUnits.of_reaches (c.recompute_reaches p) (by decide)
  unfold Chip.sweepStep
  split
  · exact .refl c
  · exact .ite ((recomputed _).trans (.of_elements rfl))
      (((recomputed _).trans (.of_elements rfl)).trans (Chip.heldTake_units _))

end Sys2Proof.Machine

namespace Sys2Proof.Machine

/-! ### What the desired states rest on

R33 reads the line-up, the taken intents, record states and purchases, and the owners of the ports. Every operation of
the Port Table but a claim or a release keeps these, and most keep further fields of the port records: `Alike π` says
both, π naming the further fields. -/

/-- Two parts in which R33 reads the same, and every port has the same value of π. -/
structure Alike {α : Type} (π : Port → α) (c d : Chip) : Prop where
  lineUp : d.lineUp = c.lineUp
  records : ∀ i, (d.sub i).taken = (c.sub i).taken ∧ (d.sub i).live.state = (c.sub i).live.state
    ∧ (d.sub i).live.purchases = (c.sub i).live.purchases
  owners : ∀ p, (d.port p).owner = (c.port p).owner
  kept : ∀ p, π (d.port p) = π (c.port p)

/-- A projection that does not look at a port's condition, mismatch count and sent state. -/
def Steady {α : Type} (π : Port → α) : Prop :=
  ∀ r k m s, π { r with condition := k, mismatch := m, sent := s } = π r

/-- The applied state with its confirmed flag. -/
def Port.report (r : Port) : PortState × Bool := (r.applied, r.confirmed)

theorem steady_desired : Steady Port.desired := fun _ _ _ _ => rfl
theorem steady_report : Steady Port.report := fun _ _ _ _ => rfl

section
variable {α : Type} {π : Port → α} {c d e : Chip}

theorem Alike.refl (π : Port → α) (c : Chip) : Alike π c c := ⟨rfl, fun _ => ⟨rfl, rfl, rfl⟩, fun _ => rfl, fun _ => rfl⟩

theorem Alike.trans (h : Alike π c d) (h' : Alike π d e) : Alike π c e where
  lineUp := h'.lineUp.trans h.lineUp
  records i := by
    obtain ⟨taken, state, purchases⟩ := h.records i
    obtain ⟨taken', state', purchases'⟩ := h'.records i
    exact ⟨taken'.trans taken, state'.trans state, purchases'.trans purchases⟩
  owners p := (h'.owners p).trans (h.owners p)
  kept p := (h'.kept p).trans (h.kept p)

theorem Alike.ite {p : Prop} [Decidable p] (h : Alike π c d) (h' : Alike π c e) : Alike π c (if p then d else e) := by
  split <;> assumption

theorem Alike.loop {f : Chip → Nat → Chip} (hf : ∀ c k, Alike π c (f c k)) (n : Nat) (c : Chip) :
    Alike π c (forIndices n f c) :=
  forIndices_keeps (P := Alike π c) n (.refl π c) fun d k _ h => h.trans (hf d k)

/-- An operation that reaches neither the line-up nor the subscribers nor the ports. -/
theorem Alike.of_reaches {bs : List Block} (h : Reaches bs c d) (hl : Block.lineUp ∉ bs) (hs : Block.subs ∉ bs)
    (hp : Block.ports ∉ bs) : Alike π c d := by
  have lineUp : d.lineUp = c.lineUp := h .lineUp hl
  have subs : d.subs = c.subs := h .subs hs
  have ports : d.ports = c.ports := h .ports hp
  constructor <;> simp only [lineUp, Chip.sub, Chip.port, subs, ports, implies_true, and_self]

/-- An update of one port that keeps its owner and π. -/
theorem Alike.updPort (c : Chip) (p : Nat) {f : Port → Port} (ho : ∀ r, (f r).owner = r.owner)
    (hf : ∀ r, π (f r) = π r) : Alike π c (c.updPort p f) where
  lineUp := rfl
  records _ := ⟨rfl, rfl, rfl⟩
  owners q := vget_vupd_kept Port.owner ho c.ports p q
  kept q := vget_vupd_kept π hf c.ports p q

/-- The desired state of every port is decided alike. -/
theorem Alike.desiredOf (h : Alike π c d) (p : Nat) : d.desiredOf p = c.desiredOf p := by
  unfold Chip.desiredOf Chip.desiredFor
  rw [h.owners p]
  cases (c.port p).owner with
  | none => rfl
  | some i =>
    obtain ⟨taken, state, purchases⟩ := h.records i
    have jams : d.jams = c.jams := by
      funext t z l q
      simp only [Chip.jams, Chip.channel, h.lineUp]
    simp only [state, Chip.onState, taken, purchases, jams]

end

/-- A change of a live block that keeps its state and purchases leaves what R33 reads of every record. -/
theorem Chip.updLive_alike {α : Type} (π : Port → α) (c : Chip) (i : Nat) {f : Live → Live}
    (hs : ∀ l, (f l).state = l.state) (hp : ∀ l, (f l).purchases = l.purchases) : Alike π c (c.updLive i f) where
  lineUp := rfl
  records j := by
    refine ⟨vget_vupd_kept Subscriber.taken (fun r => ?_) c.subs i j,
      vget_vupd_kept (fun r : Subscriber => r.live.state) (fun r => ?_) c.subs i j,
      vget_vupd_kept (fun r : Subscriber => r.live.purchases) (fun r => ?_) c.subs i j⟩
    all_goals split
    · rfl
    · rfl
    · rfl
    · exact hs r.live
    · rfl
    · exact hp r.live
  owners _ := rfl
  kept _ := rfl

section
variable {α : Type} (π : Port → α)

theorem Chip.copySummary_alike (c : Chip) (p : Nat) : Alike π c (c.copySummary p) := by
  unfold Chip.copySummary
  dsimp only
  split
  · exact .refl π c
  · exact c.updLive_alike π _ (fun _ => rfl) fun _ => rfl
theorem Chip.updBranch_alike (c : Chip) (b : Nat) (f : Branch → Branch) : Alike π c (c.updBranch b f) :=
  .of_reaches (c.updBranch_reaches b f) (by decide) (by decide) (by decide)
theorem Chip.offDirty_alike (c : Chip) (p : Nat) : Alike π c (c.offDirty p) :=
  .of_reaches (c.offDirty_reaches p) (by decide) (by decide) (by decide)

variable {π} (hπ : Steady π)
include hπ

theorem Chip.setCondition_alike (c : Chip) (p : Nat) (k : PortCondition) : Alike π c (c.setCondition p k) :=
  .updPort c p (fun _ => rfl) fun r => hπ r k r.mismatch r.sent
theorem Chip.makeDirty_alike (c : Chip) (p : Nat) : Alike π c (c.makeDirty p) :=
  (c.setCondition_alike hπ p .dirty).trans (Chip.updBranch_alike π _ _ _)
theorem Chip.testPort_alike (c : Chip) (p : Nat) : Alike π c (c.testPort p) := by
  unfold Chip.testPort
  split
  · exact .ite (c.makeDirty_alike hπ p) (.refl π c)
  · exact .ite (.refl π c) ((c.offDirty_alike π p).trans (Chip.setCondition_alike hπ _ p .idle))
  all_goals exact .refl π c
theorem Chip.leaveStuck_alike (c : Chip) (p : Nat) : Alike π c (c.leaveStuck p) := by
  have cleared : Alike π c (c.updPort p fun r => { r with mismatch := 0, condition := .idle }) :=
    .updPort c p (fun _ => rfl) fun r => hπ r .idle 0 r.sent
  exact (cleared.trans (Chip.testPort_alike hπ _ p)).trans (Chip.copySummary_alike π _ p)
theorem Chip.parkPort_alike (c : Chip) (p : Nat) : Alike π c (c.parkPort p) := by
  unfold Chip.parkPort
  split
  · exact c.setCondition_alike hπ p _
  · exact (c.offDirty_alike π p).trans (Chip.setCondition_alike hπ _ p _)
  · exact (c.setCondition_alike hπ p _).trans (Chip.copySummary_alike π _ p)
  all_goals exact .refl π c

/-- A port load that is selected changes the port's condition and its sent state. -/
theorem Chip.startLoad_alike (c : Chip) (b p : Nat) : Alike π c (c.startLoad b p) := by
  have sent := Alike.updPort c p (π := π) (f := fun r => { r with condition := .inFlight, sent := some (c.port p).desired })
    (fun _ => rfl) fun r => hπ r .inFlight r.mismatch _
  exact (sent.trans (Chip.updBranch_alike π _ b _)).trans (Chip.updBranch_alike π _ b _)
theorem Chip.select_alike (c : Chip) (b : Nat) : Alike π c (c.select b) := by
  have poll : ∀ d : Chip, Alike π c d → ∀ e, Alike π c (d.startPoll b e) := fun d h e =>
    h.trans (.of_reaches (d.startPoll_reaches b e) (by decide) (by decide) (by decide))
  have zero := c.updBranch_alike π b fun r => { r with run := 0 }
  have polls : Alike π c
      (match (c.branch b).repoll with
      | e :: rest =>
        ((c.updBranch b fun r => { r with run := 0 }).updBranch b fun r => { r with repoll := rest }).startPoll b e
      | [] =>
        match c.cursorNext b with
        | some e =>
          ((c.updBranch b fun r => { r with run := 0 }).updBranch b fun r => { r with cursor := some e }).startPoll b e
        | none => c.updBranch b fun r => { r with run := 0 }) := by
    split
    · exact poll _ (zero.trans (Chip.updBranch_alike π _ b _)) _
    · split
      · exact poll _ (zero.trans (Chip.updBranch_alike π _ b _)) _
      · exact zero
  unfold Chip.select
  dsimp only
  split
  · exact .ite (c.startLoad_alike hπ b _) polls
  · exact .ite polls (c.updBranch_alike π b _)
theorem Chip.armBranch_alike (c : Chip) (b : Nat) : Alike π c (c.armBranch b) := by
  unfold Chip.armBranch
  exact .ite (.refl π c) (.ite (c.select_alike hπ b) (.ite (.refl π c) (c.updBranch_alike π b _)))
theorem Chip.armBranches_alike (c : Chip) : Alike π c c.armBranches := .loop (Chip.armBranch_alike hπ) 4 c

/-- The selections keep what R33 reads and every steady field of the ports. -/
theorem Chip.settle_alike (c : Chip) : Alike π c c.settle := by
  have rack := Alike.of_reaches (π := π) (Chip.armRack_reaches c.armBranches) (by decide) (by decide) (by decide)
  have orders := Alike.of_reaches (π := π) (Chip.armOrders_reaches c.armBranches.armRack) (by decide) (by decide)
    (by decide)
  have bus := Alike.of_reaches (π := π) (Chip.requestBus_reaches c.armBranches.armRack.armOrders) (by decide)
    (by decide) (by decide)
  exact (((c.armBranches_alike hπ).trans rack).trans orders).trans bus

end

/-! ### The recompute of one port (R34) -/

/-- The steps after a change of the desired state reach no other port. -/
theorem Chip.updPort_port_other (c : Chip) {p q : Nat} (h : q ≠ p) (f : Port → Port) :
    (c.updPort p f).port q = c.port q := vget_vupd_other c.ports p q f h
theorem Chip.port_eq_of_reaches {bs : List Block} {c d : Chip} (h : Reaches bs c d) (hp : Block.ports ∉ bs) (q : Nat) :
    d.port q = c.port q := by
  have ports : d.ports = c.ports := h .ports hp
  simp only [Chip.port, ports]
theorem Chip.testPort_port_other (c : Chip) {p q : Nat} (h : q ≠ p) : (c.testPort p).port q = c.port q := by
  unfold Chip.testPort
  split
  · split
    · exact (Chip.port_eq_of_reaches (Chip.updBranch_reaches _ _ _) (by decide) q).trans (c.updPort_port_other h _)
    · rfl
  · split
    · rfl
    · exact (Chip.updPort_port_other _ h _).trans (Chip.port_eq_of_reaches (c.offDirty_reaches p) (by decide) q)
  all_goals rfl
theorem Chip.leaveStuck_port_other (c : Chip) {p q : Nat} (h : q ≠ p) : (c.leaveStuck p).port q = c.port q :=
  ((Chip.port_eq_of_reaches (Chip.copySummary_reaches _ p) (by decide) q).trans (Chip.testPort_port_other _ h)).trans
    (c.updPort_port_other h _)
theorem Chip.recompute_port_other (c : Chip) {p q : Nat} (h : q ≠ p) : (c.recompute p).port q = c.port q := by
  unfold Chip.recompute
  dsimp only
  split
  · rfl
  · split
    · exact (Chip.leaveStuck_port_other _ h).trans (c.updPort_port_other h _)
    · exact (Chip.testPort_port_other _ h).trans (c.updPort_port_other h _)

/-- A recompute keeps what R33 reads, and every port's applied state and confirmed flag. -/
theorem Chip.recompute_alike (c : Chip) (p : Nat) : Alike Port.report c (c.recompute p) := by
  have changed : Alike Port.report c (c.updPort p fun r => { r with desired := c.desiredOf p }) :=
    .updPort c p (fun _ => rfl) fun _ => rfl
  unfold Chip.recompute
  exact .ite (.refl _ c) (.ite (changed.trans (Chip.leaveStuck_alike steady_report _ p))
    (changed.trans (Chip.testPort_alike steady_report _ p)))

/-- A recomputed port has the desired state of R33. -/
theorem Chip.recompute_desired (c : Chip) {p : Nat} (h : p < 2560) :
    ((c.recompute p).port p).desired = c.desiredOf p := by
  have changed : ((c.updPort p fun r => { r with desired := c.desiredOf p }).port p).desired = c.desiredOf p :=
    congrArg Port.desired (vget_vupd_same c.ports p _ h)
  unfold Chip.recompute
  dsimp only
  split
  · next same => exact same.symm
  · split
    · exact ((Chip.leaveStuck_alike steady_desired _ p).kept p).trans changed
    · exact ((Chip.testPort_alike steady_desired _ p).kept p).trans changed

end Sys2Proof.Machine

namespace Sys2Proof.Machine

/-! ### The effective sources (R12, R13) -/

/-- Of the Line-Up Engine the effective sources alone differ between two parts. -/
def EffectiveOnly (c d : Chip) : Prop := d.lineUp = { c.lineUp with effective := d.lineUp.effective }

theorem EffectiveOnly.refl (c : Chip) : EffectiveOnly c c := rfl
theorem EffectiveOnly.trans {c d e : Chip} (h : EffectiveOnly c d) (h' : EffectiveOnly d e) : EffectiveOnly c e := by
  unfold EffectiveOnly at *
  rw [h', h]
theorem EffectiveOnly.of_reaches {bs : List Block} {c d : Chip} (h : Reaches bs c d) (hl : Block.lineUp ∉ bs) :
    EffectiveOnly c d := by
  have lineUp : d.lineUp = c.lineUp := h .lineUp hl
  rw [EffectiveOnly, lineUp]
theorem EffectiveOnly.ite {c d e : Chip} {p : Prop} [Decidable p] (h : EffectiveOnly c d) (h' : EffectiveOnly c e) :
    EffectiveOnly c (if p then d else e) := by split <;> assumption
theorem EffectiveOnly.loop {f : Chip → Nat → Chip} (hf : ∀ c k, EffectiveOnly c (f c k)) (n : Nat) (c : Chip) :
    EffectiveOnly c (forIndices n f c) :=
  forIndices_keeps (P := EffectiveOnly c) n (.refl c) fun d k _ h => h.trans (hf d k)

theorem EffectiveOnly.current {c d : Chip} (h : EffectiveOnly c d) : d.lineUp.current = c.lineUp.current := by
  rw [h]
theorem EffectiveOnly.channel {c d : Chip} (h : EffectiveOnly c d) : d.channel = c.channel := by
  funext q; rw [Chip.channel, Chip.channel, h.current]

/-- The effective source is decided by the channel record and the open source outages (R12). -/
theorem Chip.effectiveOf_congr {c d : Chip} (hc : d.channel = c.channel) (hs : d.sources = c.sources) (q : Nat) :
    d.effectiveOf q = c.effectiveOf q := by
  have out : d.sourceOut = c.sourceOut := by
    funext s
    simp only [Chip.sourceOut, Chip.source, hs]
  unfold Chip.effectiveOf
  rw [hc, out]

/-- What follows the store of an effective source reaches neither the line-up nor the sources. -/
theorem Chip.recomputeEffective_after (c : Chip) (k : SubstCause) (q : Nat) :
    Reaches [.rack, .journal] (c.setEffective q (c.effectiveOf q)) (c.recomputeEffective k q) := by
  have offer := fun v d => (Chip.offerPoint_reaches d q v).wider (bs := [.rack, .journal]) (by rfl)
  unfold Chip.recomputeEffective
  dsimp only
  refine .ite (.ite (offer _ _) (.same _ _)) (.ite ?_ ?_)
  · exact (Chip.substitution_reaches _ _ _ _ _).then (by rfl) (Chip.offerPoint_reaches _ _ _)
  · exact (Chip.substitution_reaches _ _ _ _ _).then (by rfl) (Chip.withdrawPoint_reaches _ _)

theorem Chip.recomputeEffective_lineUp (c : Chip) (k : SubstCause) (q : Nat) :
    (c.recomputeEffective k q).lineUp =
      { c.lineUp with effective := vupd c.lineUp.effective q fun _ => c.effectiveOf q } :=
  (c.recomputeEffective_after k q).lineUp (by decide)
theorem Chip.recomputeEffective_sources (c : Chip) (k : SubstCause) (q : Nat) :
    (c.recomputeEffective k q).sources = c.sources :=
  (c.recomputeEffective_reaches k q).sources (by decide)
theorem Chip.recomputeEffective_only (c : Chip) (k : SubstCause) (q : Nat) :
    EffectiveOnly c (c.recomputeEffective k q) := by
  rw [EffectiveOnly, Chip.recomputeEffective_lineUp]

/-- A recompute gives the position the effective source of R12. -/
theorem Chip.recomputeEffective_same (c : Chip) (k : SubstCause) {q : Nat} (h : q < 64) :
    (c.recomputeEffective k q).effective q = c.effectiveOf q := by
  rw [Chip.effective, Chip.recomputeEffective_lineUp]
  exact vget_vupd_same _ _ _ h
theorem Chip.recomputeEffective_other (c : Chip) (k : SubstCause) {q i : Nat} (h : i ≠ q) :
    (c.recomputeEffective k q).effective i = c.effective i := by
  rw [Chip.effective, Chip.recomputeEffective_lineUp]
  exact vget_vupd_other _ _ _ _ h
theorem Chip.recomputeEffective_effectiveOf (c : Chip) (k : SubstCause) (q i : Nat) :
    (c.recomputeEffective k q).effectiveOf i = c.effectiveOf i :=
  Chip.effectiveOf_congr (c.recomputeEffective_only k q).channel (c.recomputeEffective_sources k q) i

/-- After the recompute of every position each has the effective source of R12. -/
theorem Chip.recomputeAll_effective (c : Chip) (k : SubstCause) (n : Nat) :
    let d := forIndices n (fun d q => d.recomputeEffective k q) c
    (∀ q, d.effectiveOf q = c.effectiveOf q) ∧ (∀ q, q < n → q < 64 → d.effective q = c.effectiveOf q)
      ∧ ∀ q, n ≤ q → d.effective q = c.effective q := by
  induction n with
  | zero => exact ⟨fun _ => rfl, fun q h => absurd h (Nat.not_lt_zero q), fun _ _ => rfl⟩
  | succ n ih =>
    obtain ⟨rule, done, rest⟩ := ih
    dsimp only
    rw [forIndices_succ]
    refine ⟨fun q => (Chip.recomputeEffective_effectiveOf _ k n q).trans (rule q), fun q hq h64 => ?_, fun q hq => ?_⟩
    · by_cases hn : q = n
      · subst hn
        exact (Chip.recomputeEffective_same _ k h64).trans (rule q)
      · exact (Chip.recomputeEffective_other _ k hn).trans (done q (by omega) h64)
    · exact (Chip.recomputeEffective_other _ k (by omega)).trans (rest q (by omega))

theorem Chip.recomputeUsing_only (c : Chip) (s : Nat) : EffectiveOnly c (c.recomputeUsing s) :=
  .loop (fun c q => .ite (c.recomputeEffective_only .source q) (.refl c)) 64 c
theorem Chip.sourceOpens_only (c : Chip) (s : Nat) (m : Option Nat) : EffectiveOnly c (c.sourceOpens s m) :=
  (EffectiveOnly.of_reaches (c.openRequest_reaches _) (by decide)).trans (Chip.recomputeUsing_only _ s)
theorem Chip.sourceCloses_only (c : Chip) (s : Nat) : EffectiveOnly c (c.sourceCloses s) :=
  ((EffectiveOnly.of_reaches (c.setMark_reaches _ _ _) (by decide)).trans
    (.of_reaches (Chip.closeOf_reaches _ _ _ _ _) (by decide))).trans (Chip.recomputeUsing_only _ s)
theorem Chip.sampleSource_only (c : Chip) (s : Nat) (v : Byte) (u : Bool) : EffectiveOnly c (c.sampleSource s v u) := by
  have sampled := fun f : Source → Source => EffectiveOnly.of_reaches (c.updSource_reaches s f) (by decide)
  unfold Chip.sampleSource
  exact .ite ((sampled _).trans (Chip.sourceOpens_only _ _ _))
    (.ite ((sampled _).trans (Chip.sourceCloses_only _ _)) (sampled _))
theorem Chip.takeSource_only (c : Chip) (old : Vector SourceSetting 32) (s : Nat) :
    EffectiveOnly c (c.takeSource old s) := by
  have retaken := fun f : Source → Source => EffectiveOnly.of_reaches (c.updSource_reaches s f) (by decide)
  unfold Chip.takeSource
  exact .ite (.refl c) (.ite ((retaken _).trans (Chip.sourceCloses_only _ _)) (retaken _))

/-! ### The line-up take (R4 to R8) -/

theorem Chip.evaluateList_part (c : Chip) : c.evaluateList.part = c.part := rfl
theorem Chip.evaluateList_sources (c : Chip) : c.evaluateList.sources = c.sources := rfl
theorem Chip.evaluateList_sweep (c : Chip) : c.evaluateList.sweep = c.sweep := rfl

/-- The line-up of the mirror in force, its outcome shown: the first step of a take (R6). -/
def Chip.lineUpInForce (c : Chip) : Chip :=
  c.setLineUp { c.lineUp with
    current := mirrorLineUp c.lineUp.mirror, gen := some (takeWord c.lineUp.mirror), outcome := .done }

/-- A take up to its evaluation of the blackouts: the changed sources, then every effective source (R6 to R8). -/
def Chip.lineUpApplied (c : Chip) : Chip :=
  forIndices 64 (fun d q => d.recomputeEffective .take q)
    (forIndices 32 (fun d s => d.takeSource c.lineUp.current.sources s) c.lineUpInForce)

/-- A take is these steps, the evaluation of the blackouts, and while RUNNING the start of the sweep. -/
theorem Chip.takeLineUp_eq (c : Chip) :
    c.takeLineUp = if c.lineUpApplied.evaluateList.running then c.lineUpApplied.evaluateList.setSweep (some 0)
      else c.lineUpApplied.evaluateList := rfl

theorem Chip.lineUpApplied_reaches (c : Chip) : Reaches sourceBlocks c c.lineUpApplied :=
  (((c.setLineUp_reaches _).then (by rfl)
    (forIndices_reaches (fun d s => d.takeSource_reaches c.lineUp.current.sources s) 32 _) (bs := sourceBlocks)).then
    (by rfl) (forIndices_reaches (fun d q => d.recomputeEffective_reaches .take q) 64 _))

theorem Chip.lineUpApplied_only (c : Chip) : EffectiveOnly c.lineUpInForce c.lineUpApplied :=
  (EffectiveOnly.loop (fun d s => d.takeSource_only c.lineUp.current.sources s) 32 _).trans
    (.loop (fun d q => d.recomputeEffective_only .take q) 64 _)

/-- After the sources of a take every effective source is that of R12 (R6 step 4). -/
theorem Chip.lineUpApplied_effective (c : Chip) {q : Nat} (h : q < 64) :
    c.lineUpApplied.effective q = c.lineUpApplied.effectiveOf q := by
  obtain ⟨rule, done, -⟩ := Chip.recomputeAll_effective
    (forIndices 32 (fun d s => d.takeSource c.lineUp.current.sources s) c.lineUpInForce) .take 64
  exact (done q h h).trans (rule q).symm

/-- The Line-Up Engine after a take: the mirror's line-up in force with outcome DONE, the effective sources, and the
blackouts evaluated for the current minute number (R6). -/
theorem Chip.takeLineUp_lineUp (c : Chip) :
    c.takeLineUp.lineUp = { c.lineUp with
      current := mirrorLineUp c.lineUp.mirror, gen := some (takeWord c.lineUp.mirror), outcome := .done
      effective := c.lineUpApplied.lineUp.effective
      active := activity (mirrorLineUp c.lineUp.mirror).blackouts c.now
      zones := zoneSets (mirrorLineUp c.lineUp.mirror).blackouts
        (activity (mirrorLineUp c.lineUp.mirror).blackouts c.now) } := by
  have applied : c.lineUpApplied.lineUp = _ := c.lineUpApplied_only
  have current : c.lineUpApplied.lineUp.current = mirrorLineUp c.lineUp.mirror := c.lineUpApplied_only.current
  have clock : c.lineUpApplied.clock = c.clock := c.lineUpApplied_reaches.clock (by decide)
  have now : c.lineUpApplied.now = c.now := by rw [Chip.now, clock, ← Chip.now]
  have evaluated : c.takeLineUp.lineUp = c.lineUpApplied.evaluateList.lineUp := by
    rw [Chip.takeLineUp_eq]; split <;> rfl
  rw [evaluated, Chip.evaluateList, Chip.setLineUp_lineUp, current, now, applied]
  rfl

theorem Chip.takeLineUp_sources (c : Chip) : c.takeLineUp.sources = c.lineUpApplied.sources := by
  rw [Chip.takeLineUp_eq]
  split
  · rw [Chip.setSweep_sources, Chip.evaluateList_sources]
  · rw [Chip.evaluateList_sources]

/-- After a take every effective source is that of R12. -/
theorem Chip.takeLineUp_effective (c : Chip) {q : Nat} (h : q < 64) :
    c.takeLineUp.effective q = c.takeLineUp.effectiveOf q := by
  have effective : c.takeLineUp.effective q = c.lineUpApplied.effective q := by
    simp only [Chip.effective, Chip.takeLineUp_lineUp]
  have channel : c.takeLineUp.channel = c.lineUpApplied.channel := by
    funext p
    have current : c.lineUpApplied.lineUp.current = mirrorLineUp c.lineUp.mirror := c.lineUpApplied_only.current
    simp only [Chip.channel, Chip.takeLineUp_lineUp, current]
  rw [effective, c.lineUpApplied_effective h, Chip.effectiveOf_congr channel c.takeLineUp_sources]

/-- A take starts the sweep at port 0 while RUNNING, and no sweep in FILL (R6, R11). -/
theorem Chip.takeLineUp_sweep (c : Chip) : c.takeLineUp.sweep = if c.running then some 0 else c.sweep := by
  have part : c.lineUpApplied.part = c.part := c.lineUpApplied_reaches.part (by decide)
  have sweep : c.lineUpApplied.sweep = c.sweep := c.lineUpApplied_reaches.sweep (by decide)
  have running : c.lineUpApplied.evaluateList.running = c.running := Chip.running_congr ((Chip.evaluateList_part _).trans part)
  rw [Chip.takeLineUp_eq, running]
  split
  · rfl
  · rw [Chip.evaluateList_sweep, sweep]

/-- A refused take shows its code and does nothing else. -/
theorem Chip.tryLineUp_refused {c : Chip} {o : OutcomeCode} (h : checkLineUp c.lineUp.mirror = some o) :
    c.tryLineUp = c.lineUpOutcome o := by rw [Chip.tryLineUp, h]
theorem Chip.tryLineUp_taken {c : Chip} (h : checkLineUp c.lineUp.mirror = none) : c.tryLineUp = c.takeLineUp := by
  rw [Chip.tryLineUp, h]

/-- A HELD take of a new generation is refused or taken with its note cleared (R10). -/
theorem Chip.heldTake_new {c : Chip} (hh : c.lineUp.held = true) (hg : c.lineUp.gen ≠ some (takeWord c.lineUp.mirror)) :
    c.heldTake = (c.setLineUp { c.lineUp with held := false }).tryLineUp := by
  have new : newGeneration c.lineUp.mirror c.lineUp.gen = true := bne_iff_ne.mpr hg
  rw [Chip.heldTake, if_pos hh]
  exact if_pos new
theorem Chip.heldTake_none {c : Chip} (hh : c.lineUp.held = false) : c.heldTake = c := by
  rw [Chip.heldTake, if_neg (by simp [hh])]

end Sys2Proof.Machine

namespace Sys2Proof.Machine

@[simp] theorem State.act_array (s : State) (f : Chip → Chip) : (s.act f).array = s.array := s.onChip_array _
@[simp] theorem State.act_lines (s : State) (f : Chip → Chip) : (s.act f).lines = s.lines := s.onChip_lines _
@[simp] theorem State.act_pending (s : State) (f : Chip → Chip) : (s.act f).pending = s.pending := s.onChip_pending _

/-- An operation of the part leaves the array, the lines and the waiting commands. -/
theorem State.act_outside (s : State) (f : Chip → Chip) : SameOutside s (s.act f) :=
  ⟨s.act_array f, s.act_lines f, s.act_pending f⟩

theorem samePlant_of {s t : State} (plant : t.chip.plant = s.chip.plant) (units : SameUnits s.chip t.chip) :
    SamePlant s t := ⟨plant, units⟩

/-! ### The recompute sweep (R35) -/

/-- SWEEP_VISIT while a sweep runs in a RUNNING part. -/
theorem exec_sweepVisit_eq {s : State} {p : Nat} (hr : s.chip.running = true) (hs : s.chip.sweep = some p) :
    exec .sweepVisit s = .next (s.act Chip.sweepStep) := by
  have ready : (s.chip.running && s.chip.sweep.isSome) = true := by rw [hr, hs]; rfl
  exact congrArg Host.Outcome.next
    (State.actIf_ready (ready := fun c => c.running && c.sweep.isSome) ready Chip.sweepStep)

/-- The visit recomputes its port; then the cursor moves, or the sweep ends and a HELD take is handled. -/
theorem Chip.sweepStep_next {c : Chip} {p : Nat} (hs : c.sweep = some p) (hp : p < 2559) :
    c.sweepStep = (c.recompute p).setSweep (some (p + 1)) := by
  rw [Chip.sweepStep, hs]
  exact if_pos (by omega)
theorem Chip.sweepStep_last {c : Chip} (hs : c.sweep = some 2559) :
    c.sweepStep = ((c.recompute 2559).setSweep none).heldTake := by
  rw [Chip.sweepStep, hs]
  rfl

/-- Beyond the recompute of its port a visit reaches no port. -/
theorem Chip.sweepStep_after {c : Chip} {p : Nat} (hs : c.sweep = some p) :
    Reaches takeBlocks (c.recompute p) c.sweepStep := by
  rw [Chip.sweepStep, hs]
  exact .ite ((Chip.setSweep_reaches _ _).wider (by rfl))
    ((Chip.setSweep_reaches _ _).then (by rfl) (Chip.heldTake_reaches _))

/-- The ports after a visit and the selections: its own port has the desired state of R33, every other keeps its own;
owners and applied states stay. -/
theorem Chip.sweepVisit_ports {c : Chip} {p : Nat} (hs : c.sweep = some p) (hp : p < 2560) :
    (c.sweepStep.settle.port p).desired = c.desiredOf p
      ∧ (∀ q, q ≠ p → (c.sweepStep.settle.port q).desired = (c.port q).desired)
      ∧ ∀ q, (c.sweepStep.settle.port q).owner = (c.port q).owner
        ∧ (c.sweepStep.settle.port q).applied = (c.port q).applied
        ∧ (c.sweepStep.settle.port q).confirmed = (c.port q).confirmed := by
  have port : ∀ q, c.sweepStep.port q = (c.recompute p).port q := fun q =>
    Chip.port_eq_of_reaches (Chip.sweepStep_after hs) (by decide) q
  have desired : ∀ q, (c.sweepStep.settle.port q).desired = ((c.recompute p).port q).desired := fun q =>
    ((c.sweepStep.settle_alike steady_desired).kept q).trans (congrArg Port.desired (port q))
  refine ⟨(desired p).trans (c.recompute_desired hp), fun q hq => (desired q).trans ?_, fun q => ?_⟩
  · rw [c.recompute_port_other hq]
  · have settled := c.sweepStep.settle_alike steady_report
    have recomputed := c.recompute_alike p
    have owner := ((settled.owners q).trans (congrArg Port.owner (port q))).trans (recomputed.owners q)
    have report := ((settled.kept q).trans (congrArg Port.report (port q))).trans (recomputed.kept q)
    exact ⟨owner, congrArg Prod.fst report, congrArg Prod.snd report⟩

theorem Chip.recompute_supervision (c : Chip) (p : Nat) :
    (c.recompute p).elements = c.elements ∧ (c.recompute p).plant = c.plant ∧ (c.recompute p).sources = c.sources
      ∧ (c.recompute p).outages = c.outages :=
  have h := c.recompute_reaches p
  ⟨h.elements (by decide), h.plant (by decide), h.sources (by decide), h.outages (by decide)⟩

/-- Settles O27: the ports by the recompute of one of them; the end of the sweep by what a HELD take does. -/
theorem sweepVisitRecomputesOnePort : Obligations.SweepVisitRecomputesOnePort := by
  intro p s running sweep hp
  have reach := s.chip.sweepStep_reaches
  have after := Chip.sweepStep_after (c := s.chip) sweep
  have recomputed := s.chip.recompute_reaches p
  obtain ⟨here, elsewhere, kept⟩ := Chip.sweepVisit_ports sweep hp
  rw [exec_sweepVisit_eq running sweep]
  refine ⟨_, rfl, ?_⟩
  simp only [State.act_chip, SameTime, SameSupervision, Chip.settle_sweep, Chip.settle_lineUp,
    Chip.settle_journal, Chip.settle_elements, Chip.settle_plant, Chip.settle_sources, Chip.settle_outages,
    Chip.settle_clock, Chip.settle_pass, Chip.settle_store]
  refine ⟨here, elsewhere, kept, fun next => ?next, fun last none => ?last, fun last held new => ?held, ?plant,
    ⟨reach.clock (by decide), reach.pass (by decide)⟩, reach.store (by decide), s.act_outside _⟩
  case next =>
    rw [Chip.sweepStep_next sweep next]
    exact ⟨rfl, recomputed.lineUp (by decide), recomputed.journal (by decide), s.chip.recompute_supervision p⟩
  case last =>
    subst last
    have quiet : ((s.chip.recompute 2559).setSweep .none).lineUp.held = false := by
      rw [Chip.setSweep_lineUp, recomputed.lineUp (by decide), none]
    rw [Chip.sweepStep_last sweep, Chip.heldTake_none quiet]
    exact ⟨rfl, recomputed.lineUp (by decide), recomputed.journal (by decide), s.chip.recompute_supervision 2559⟩
  case held =>
    subst last
    have lineUp : ((s.chip.recompute 2559).setSweep .none).lineUp = s.chip.lineUp := recomputed.lineUp (by decide)
    have run : ((s.chip.recompute 2559).setSweep .none).running = true :=
      (Chip.running_congr (recomputed.part (by decide))).trans running
    rw [Chip.sweepStep_last sweep, Chip.heldTake_new (by rw [lineUp, held]) (by rwa [lineUp])]
    generalize hd : (s.chip.recompute 2559).setSweep .none = d at lineUp run ⊢
    have idle : d.sweep = none := by rw [← hd]; rfl
    rw [lineUp]
    refine ⟨fun o refused => ?_, fun taken => ?_⟩
    · rw [Chip.tryLineUp_refused (by exact refused)]
      exact ⟨idle, rfl⟩
    · rw [Chip.tryLineUp_taken (by exact taken), Chip.takeLineUp_lineUp, Chip.takeLineUp_sweep]
      exact ⟨if_pos run, rfl, rfl, rfl, rfl⟩
  case plant =>
    have units : SameUnits s.chip s.chip.sweepStep := s.chip.sweepStep_units
    have settled : SameUnits s.chip.sweepStep s.chip.sweepStep.settle := .of_elements (Chip.settle_elements _)
    refine samePlant_of ?_ ?_ <;> rw [State.act_chip]
    · exact (Chip.settle_plant _).trans (reach.plant (by decide))
    · exact units.trans settled

end Sys2Proof.Machine

namespace Sys2Proof.Machine

/-! ### Blackouts (R16, R17) -/

theorem Blackout.activeAt_eq (e : Blackout) (now : Option Nat) : e.activeAt now = activeNow e now := by
  cases now with
  | none => rfl
  | some m => exact (Bool.decide_and _ _).symm

theorem activity_eq (l : List Blackout) (now : Option Nat) : activity l now = l.map fun e => activeNow e now := by
  simp only [activity, Blackout.activeAt_eq]

/-- A zone is in the union of a list's passing entries exactly where one of them has it. -/
theorem zoneUnion_getLsbD (p : Blackout → Bool → Bool) (f : Blackout → Bool) (l : List Blackout) (z : Nat) :
    (zoneUnion p l (l.map f)).getLsbD z = true ↔ ∃ e ∈ l, p e (f e) = true ∧ e.zones.getLsbD z = true := by
  induction l with
  | nil => simp [zoneUnion]
  | cons e l ih =>
    rw [List.map_cons, zoneUnion, BitVec.getLsbD_or, Bool.or_eq_true, ih, List.exists_mem_cons_iff]
    by_cases h : p e (f e) = true <;> simp [h]

/-- The blackout zone set of a position after an evaluation: the union of its active entries' zones (R16). -/
theorem zoneSets_getLsbD (l : List Blackout) (now : Option Nat) {q : Nat} (hq : q < 64) (z : Nat) :
    (vget (zoneSets l (activity l now)) q).getLsbD z = true ↔
      ∃ e ∈ l, e.position = q ∧ activeNow e now = true ∧ e.zones.getLsbD z = true := by
  rw [zoneSets, vget, Vector.getElem?_eq_getElem hq, Vector.getElem_ofFn, Option.getD_some, activity_eq,
    zoneUnion_getLsbD]
  simp only [Bool.and_eq_true, beq_iff_eq]
  exact ⟨fun ⟨e, he, ⟨ha, hp⟩, hz⟩ => ⟨e, he, hp, ha, hz⟩, fun ⟨e, he, hp, ha, hz⟩ => ⟨e, he, ⟨ha, hp⟩, hz⟩⟩

/-- A Line-Up Engine with the activity and the zone sets of an evaluation for a minute number stands evaluated for it. -/
theorem blackoutsAt_of_lineUp {c : Chip} {now : Option Nat}
    (ha : c.lineUp.active = activity c.lineUp.current.blackouts now)
    (hz : c.lineUp.zones = zoneSets c.lineUp.current.blackouts (activity c.lineUp.current.blackouts now)) :
    BlackoutsAt c now :=
  ⟨by rw [ha, activity_eq], fun q z hq _ => by rw [hz]; exact zoneSets_getLsbD _ now hq z⟩

theorem Chip.evaluateList_blackoutsAt (c : Chip) : BlackoutsAt c.evaluateList c.now :=
  blackoutsAt_of_lineUp rfl rfl

/-- The affected zones: those of the entries whose activity changes (R17). -/
theorem changedZones_getLsbD (f : Blackout → Bool) (l : List Blackout) (act : List Bool) (z : Nat) :
    (changedZones l act (l.map f)).getLsbD z = true ↔ ∃ (k : Nat) (e : Blackout) (was : Bool),
      l[k]? = some e ∧ act[k]? = some was ∧ was ≠ f e ∧ e.zones.getLsbD z = true := by
  induction l generalizing act with
  | nil => simp [changedZones]
  | cons e l ih =>
    cases act with
    | nil => simp [changedZones]
    | cons a act =>
      rw [List.map_cons, changedZones, BitVec.getLsbD_or, Bool.or_eq_true, ih]
      constructor
      · rintro (first | ⟨k, e', was, he, ha, hne, hz⟩)
        · by_cases h : a = f e
          · simp [h] at first
          · exact ⟨0, e, a, rfl, rfl, h, by simpa [h] using first⟩
        · exact ⟨k + 1, e', was, he, ha, hne, hz⟩
      · rintro ⟨k, e', was, he, ha, hne, hz⟩
        cases k with
        | zero =>
          obtain rfl : e = e' := Option.some.inj he
          obtain rfl : a = was := Option.some.inj ha
          exact .inl (by simpa [hne] using hz)
        | succ k => exact .inr ⟨k, e', was, he, ha, hne, hz⟩

/-- The zones of an evaluation's changes are the affected zones (R17). -/
theorem affectedZone_iff (c : Chip) (now : Option Nat) (z : Nat) :
    (changedZones c.lineUp.current.blackouts c.lineUp.active (activity c.lineUp.current.blackouts now)).getLsbD z = true
      ↔ affectedZone c now z := by
  rw [activity_eq, changedZones_getLsbD]
  rfl

/-! ### The recompute of the affected zones (R17, R34) -/

/-- Is port p to be recomputed for a zone set: owned, with its owner's taken zone in the set? -/
def Chip.inZones (c : Chip) (zs : ZoneSet) (p : Nat) : Bool :=
  match (c.port p).owner with
  | some i => zs.getLsbD (c.sub i).taken.zone
  | none => false

/-- The step of the zone recompute at port p. -/
def Chip.recomputeIn (c : Chip) (zs : ZoneSet) (p : Nat) : Chip := if c.inZones zs p then c.recompute p else c

theorem Chip.recomputeIn_alike (zs : ZoneSet) (c : Chip) (p : Nat) : Alike Port.report c (c.recomputeIn zs p) := by
  unfold Chip.recomputeIn
  exact .ite (c.recompute_alike p) (.refl _ c)

theorem Alike.inZones {α : Type} {π : Port → α} {c d : Chip} (h : Alike π c d) (zs : ZoneSet) (p : Nat) :
    d.inZones zs p = c.inZones zs p := by
  unfold Chip.inZones
  rw [h.owners p]
  cases (c.port p).owner with
  | none => rfl
  | some i =>
    obtain ⟨taken, -⟩ := h.records i
    simp only [taken]

theorem Chip.inZones_zero (c : Chip) (p : Nat) : c.inZones 0 p = false := by
  unfold Chip.inZones
  split <;> simp

/-- The zone recompute, port by port; where no zone is affected it recomputes none. -/
theorem Chip.recomputeZones_eq (c : Chip) (zs : ZoneSet) :
    c.recomputeZones zs = forIndices 2560 (fun d p => d.recomputeIn zs p) c := by
  unfold Chip.recomputeZones
  split
  · next none =>
    subst none
    exact (forIndices_keeps (P := fun d => d = c) 2560 rfl fun d p _ h => by
      rw [h, Chip.recomputeIn, if_neg (by rw [c.inZones_zero p]; exact Bool.false_ne_true)]).symm
  · congr 1
    funext d p
    unfold Chip.recomputeIn Chip.inZones
    cases (d.port p).owner <;> simp

/-- After the zone recompute a port of the zones has the desired state of R33, and every other port keeps its own. -/
theorem Chip.recomputeZones_ports (c : Chip) (zs : ZoneSet) :
    Alike Port.report c (c.recomputeZones zs)
      ∧ ∀ p, p < 2560 → ((c.recomputeZones zs).port p).desired =
          if c.inZones zs p then c.desiredOf p else (c.port p).desired := by
  rw [Chip.recomputeZones_eq]
  refine ⟨.loop (Chip.recomputeIn_alike zs) 2560 c, ?_⟩
  have key : ∀ n, n ≤ 2560 → ∀ p, ((forIndices n (fun d p => d.recomputeIn zs p) c).port p).desired =
      if p < n ∧ c.inZones zs p = true then c.desiredOf p else (c.port p).desired := by
    intro n
    induction n with
    | zero => intro _ p; simp
    | succ n ih =>
      intro hn p
      have alike : Alike Port.report c (forIndices n (fun d p => d.recomputeIn zs p) c) :=
        .loop (Chip.recomputeIn_alike zs) n c
      rw [forIndices_succ, Chip.recomputeIn, alike.inZones]
      have before := ih (by omega) p
      by_cases hp : p = n
      · subst hp
        by_cases hz : c.inZones zs p = true
        · rw [if_pos hz, Chip.recompute_desired _ (by omega), alike.desiredOf, if_pos ⟨by omega, hz⟩]
        · rw [if_neg hz, before, if_neg (fun h => hz h.2), if_neg (fun h => hz h.2)]
      · have same : p < n + 1 ↔ p < n := by omega
        simp only [same, ← before]
        split
        · rw [Chip.recompute_port_other _ hp]
        · rfl
  intro p hp
  rw [key 2560 (by omega) p]
  simp [hp]

/-- An evaluation with its recomputes, between operations that touch neither the line-up nor the records and ports
(R17, R34). -/
theorem blackoutsEvaluated_of {s t : State} {c : Chip} {now : Option Nat} (hn : c.now = now)
    (lineUp : c.lineUp = s.chip.lineUp) (subs : c.subs = s.chip.subs) (ports : c.ports = s.chip.ports)
    (after : Alike Port.desired c.evaluateBlackouts t.chip) (sweep : t.chip.sweep = s.chip.sweep) :
    BlackoutsEvaluated s t now := by
  have evaluated : c.evaluateBlackouts = c.evaluateList.recomputeZones _ := rfl
  rw [hn, lineUp] at evaluated
  have zone := affectedZone_iff s.chip now
  generalize changedZones s.chip.lineUp.current.blackouts s.chip.lineUp.active
    (activity s.chip.lineUp.current.blackouts now) = zs at evaluated zone
  obtain ⟨zones, desired⟩ := c.evaluateList.recomputeZones_ports zs
  rw [← evaluated] at zones desired
  have final : t.chip.lineUp = c.evaluateList.lineUp := after.lineUp.trans zones.lineUp
  have port : ∀ p, c.evaluateList.port p = s.chip.port p := fun p => by
    simp only [Chip.port]
    exact congrArg (fun v => vget v p) ports
  have sub : ∀ i, c.evaluateList.sub i = s.chip.sub i := fun i => by
    simp only [Chip.sub]
    exact congrArg (fun v => vget v i) subs
  have owner : ∀ p, (t.chip.port p).owner = (s.chip.port p).owner := fun p =>
    ((after.owners p).trans (zones.owners p)).trans (congrArg Port.owner (port p))
  have rule : ∀ p, t.chip.desiredOf p = c.evaluateList.desiredOf p := fun p =>
    (after.desiredOf p).trans (zones.desiredOf p)
  refine ⟨?at_, ?frame, sweep, fun p hp => ⟨owner p, fun i hi affected => ?inside, fun unaffected => ?outside⟩⟩
  case at_ =>
    rw [BlackoutsAt, final, ← hn]
    exact c.evaluateList_blackoutsAt
  case frame =>
    rw [final, ← lineUp]
    rfl
  case inside =>
    have hit : c.evaluateList.inZones zs p = true := by
      rw [Chip.inZones, port, hi]
      exact (zone _).mpr (by rwa [sub])
    rw [after.kept p, desired p hp, if_pos hit, rule]
  case outside =>
    have miss : ¬ c.evaluateList.inZones zs p = true := fun hit => by
      rw [Chip.inZones, port] at hit
      split at hit
      · next i hi => exact unaffected i hi ((zone _).mp (by rwa [sub] at hit))
      · exact absurd hit (by decide)
    rw [after.kept p, desired p hp, if_neg miss, port]

end Sys2Proof.Machine

namespace Sys2Proof.Machine

/-! ### The capture of the line-up take word (R3, R169) -/

/-- The part with a host write to the line-up take word captured: the mirror, and in FILL its valid marks. -/
def Chip.lineUpCaptured (c : Chip) (h : HalfWrite) : Chip :=
  (c.setLineUp { c.lineUp with
      mirror := Memory.writeHost c.lineUp.mirror c.config.lineUp.base (halfWord h c.config.lineUp.base) }).setPart
    { c.part with marks :=
        if c.part.state = .fill then markBytes c.part.marks (halfWord h c.config.lineUp.base) else c.part.marks }

/-- Capturing the take word is a capture of its mirror and its marks. -/
theorem Chip.mirrorWord_lineUp (c : Chip) (h : HalfWrite) :
    ((c.mirrorWord (.lineUp 0) (halfWord h c.config.lineUp.base)).markWord (halfWord h c.config.lineUp.base)) =
      c.lineUpCaptured h := by
  unfold Chip.markWord Chip.lineUpCaptured
  by_cases fill : c.part.state = .fill
  · rw [if_pos fill]
    exact if_pos fill
  · rw [if_neg fill]
    exact if_neg fill

/-- LINE_UP_TAKE_REQUEST in a part that captures the take word: the capture, the take event, and what follows. -/
theorem exec_lineUpTakeRequest_eq {h : HalfWrite} {s : State} (free : BusFree s)
    (watched : s.chip.part.state = .fill ∨ s.chip.part.state = .running) (map : s.chip.part.mapInForce = true)
    (touched : touchesWord h = true) (kind : s.chip.kindOf s.chip.config.lineUp.base = .lineUp 0) :
    ∃ t, exec (.lineUpTakeRequest h) s = .next t ∧ t.chip = ((s.chip.lineUpCaptured h).lineUpEvent).settle
      ∧ t.array = Memory.writeHost s.array 0 (halfWord h s.chip.config.lineUp.base) ∧ t.pending = s.pending := by
  obtain ⟨idle, burst⟩ := free
  have host : s.hostBus = true := bne_iff_ne.mpr idle
  have run : exec (.lineUpTakeRequest h) s = .next (s.writeMapped s.chip.config.lineUp.base h) := rfl
  have rule : writeRule (.lineUp 0) s.chip.part.state = .capture := by obtain e | e := watched <;> rw [e] <;> rfl
  have writes : (halfWord h s.chip.config.lineUp.base).writes = true := (halfWord_writes _ _).trans touched
  have low : (halfWord h s.chip.config.lineUp.base).touchesLow = true := (halfWord_touchesLow _ _).trans touched
  have event : takeEventOf (.lineUp 0) (halfWord h s.chip.config.lineUp.base) = some .lineUpTake := by
    simp [takeEventOf, low]
  refine ⟨_, run, ?_⟩
  rw [State.writeMapped, host, map, Bool.and_self, if_pos rfl,
    State.writeAlone_capture burst writes (by rw [halfWord_addr, kind]; exact rule), halfWord_addr, kind, event]
  have handed : ∀ r : State, r.handEvents (some TakeEvent.lineUpTake).toList =
      r.onChip fun c => c.lineUpEvent.settle := fun r => rfl
  rw [handed]
  refine ⟨?_, ?_, ?_⟩
  · rw [State.onChip_chip, State.captureWord, State.onChip_chip, State.passWord_chip, State.quietLines_chip,
      Chip.mirrorWord_lineUp]
  · rw [State.onChip_array, State.captureWord_array, State.quietLines_array]
  · rw [State.onChip_pending, State.captureWord_pending, State.quietLines_pending]

/-! ### What a captured word leaves to select -/

/-- Whether anything is left to select does not depend on the Line-Up Engine, nor on the valid marks. -/
theorem Chip.quiet_captured (c : Chip) (x : LineUpEngine) (marks : Memory) :
    ((c.setLineUp x).setPart { c.part with marks := marks }).quiet = c.quiet := rfl

theorem Chip.lineUpCaptured_quiet (c : Chip) (h : HalfWrite) : (c.lineUpCaptured h).quiet = c.quiet :=
  c.quiet_captured _ _

theorem Chip.lineUpCaptured_running (c : Chip) (h : HalfWrite) : (c.lineUpCaptured h).running = c.running := rfl

/-- The valid marks after the capture (R183). -/
theorem marksAfter_captured {s t : State} {h : HalfWrite} (w : Memory.wf s.chip.part.marks = true)
    (ht : t.chip.part = (s.chip.lineUpCaptured h).part) : MarksAfter s t s.chip.config.lineUp.base h := by
  intro x
  have marks : t.chip.part.marks = _ := congrArg Part.marks ht
  rw [marks]
  show Memory.read (if s.chip.part.state = .fill then _ else _) x = _
  by_cases fill : s.chip.part.state = .fill
  · simp only [fill, true_and, if_true]
    exact read_markBytes_half w h _ x
  · simp only [fill, false_and, if_false]

end Sys2Proof.Machine

namespace Sys2Proof.Machine

/-! ### What a captured take word starts (R3, R10) -/

/-- No event follows where the part takes no requests, the word equals the generation in force, or a take is HELD. -/
theorem Chip.lineUpEvent_none {c : Chip} (h : c.takesRequests c.lineUp.gen = false
    ∨ c.lineUp.gen = some (takeWord c.lineUp.mirror) ∨ c.lineUp.held = true) : c.lineUpEvent = c := by
  refine if_pos ?_
  obtain h | h | h := h <;> simp [h, newGeneration]

/-- During a sweep the take is noted HELD (R10). -/
theorem Chip.lineUpEvent_held {c : Chip} (ht : c.takesRequests c.lineUp.gen = true)
    (hg : c.lineUp.gen ≠ some (takeWord c.lineUp.mirror)) (hh : c.lineUp.held = false) (hs : c.sweep.isSome = true) :
    c.lineUpEvent = c.setLineUp { c.lineUp with held := true, outcome := .held } := by
  rw [Chip.lineUpEvent, if_neg (by simp [ht, hh, newGeneration, hg]), if_pos hs]

/-- With no sweep under way the take is tried at once (R4). -/
theorem Chip.lineUpEvent_tried {c : Chip} (ht : c.takesRequests c.lineUp.gen = true)
    (hg : c.lineUp.gen ≠ some (takeWord c.lineUp.mirror)) (hh : c.lineUp.held = false) (hs : c.sweep = none) :
    c.lineUpEvent = c.tryLineUp := by
  rw [Chip.lineUpEvent, if_neg (by simp [ht, hh, newGeneration, hg]), if_neg (by simp [hs])]

/-- What a refused or noted take does: the Line-Up Engine alone changes, its rack and supervision stay. -/
theorem Chip.settle_setLineUp {c : Chip} (h : c.quiet = true) (x : LineUpEngine) :
    (c.setLineUp x).settle = c.setLineUp x := Chip.settle_quiet _ h

/-- The blocks a line-up event and what follows it leave alone. -/
theorem lineUpEvent_frame {s t : State} {c : Chip} (quiet : c.quiet = true) (ht : t.chip = c.lineUpEvent.settle)
    (hc : Reaches [.lineUp, .part] s.chip c) :
    t.chip.ports = s.chip.ports ∧ t.chip.branches = s.chip.branches ∧ SamePlant s t ∧ SameSubscribers s t
      ∧ SameTime s t ∧ t.chip.orders = s.chip.orders ∧ t.chip.part = c.part := by
  have reach := c.lineUpEvent_reaches
  have units := c.lineUpEvent_units
  have running : c.lineUpEvent.running = c.running := Chip.running_congr (reach.part (by decide))
  have branches := reach.branches (by decide)
  have links := Chip.settle_ports_branches (c := c.lineUpEvent) fun b hb =>
    (units.quietBranch running (by simp only [Chip.branch, branches])).trans (Chip.quiet_branch quiet hb)
  have orders : c.lineUpEvent.quietOrders = true := by
    rw [Chip.quietOrders, running, reach.orders (by decide)]
    exact Chip.quiet_orders quiet
  refine ⟨?_, ?_, samePlant_of ?_ ?_, ⟨?_, ?_⟩, ⟨?_, ?_⟩, ?_, ?_⟩ <;> rw [ht]
  · exact (links.1.trans (reach.ports (by decide))).trans (hc.ports (by decide))
  · exact (links.2.trans branches).trans (hc.branches (by decide))
  · exact ((Chip.settle_plant _).trans (reach.plant (by decide))).trans (hc.plant (by decide))
  · exact ((SameUnits.of_elements (hc.elements (by decide))).trans units).trans
      (.of_elements (Chip.settle_elements _))
  · exact ((Chip.settle_subs _).trans (reach.subs (by decide))).trans (hc.subs (by decide))
  · exact ((Chip.settle_store _).trans (reach.store (by decide))).trans (hc.store (by decide))
  · exact ((Chip.settle_clock _).trans (reach.clock (by decide))).trans (hc.clock (by decide))
  · exact ((Chip.settle_pass _).trans (reach.pass (by decide))).trans (hc.pass (by decide))
  · exact ((Chip.settle_orders_quiet orders).trans (reach.orders (by decide))).trans (hc.orders (by decide))
  · exact (Chip.settle_part _).trans (reach.part (by decide))

/-- The bus blocks after a line-up event: the engine may have requested the bus for a notice. -/
theorem lineUpEvent_bus {s t : State} {c : Chip} (ht : t.chip = c.lineUpEvent.settle) (part : c.part = s.chip.part)
    (hc : Reaches [.lineUp, .part] s.chip c) : SameBus s t := by
  have reach := c.lineUpEvent_reaches
  have engine : c.lineUpEvent.engine = s.chip.engine := (reach.engine (by decide)).trans (hc.engine (by decide))
  have request := c.lineUpEvent.settle_engine
  rw [engine] at request
  refine ⟨?_, ?_, ?_, ?_⟩ <;> rw [ht]
  · exact ((Chip.settle_part _).trans (reach.part (by decide))).trans part
  · exact ((Chip.settle_path _).trans (reach.path (by decide))).trans (hc.path (by decide))
  · exact ((Chip.settle_drawn _).trans (reach.drawn (by decide))).trans (hc.drawn (by decide))
  · exact request

/-- A take shows the mirror's line-up in force, its blackouts evaluated and its effective sources those of R12. -/
theorem lineUpTaken_view {t : State} {c : Chip} (ht : t.chip = c.takeLineUp.settle) :
    t.chip.lineUp.mirror = c.lineUp.mirror ∧ t.chip.lineUp.current = mirrorLineUp c.lineUp.mirror
      ∧ t.chip.lineUp.gen = some (takeWord c.lineUp.mirror) ∧ t.chip.lineUp.outcome = .done
      ∧ t.chip.lineUp.held = c.lineUp.held ∧ t.chip.sweep = (if c.running then some 0 else c.sweep)
      ∧ BlackoutsAt t.chip c.now ∧ ∀ q, q < 64 → t.chip.effective q = t.chip.effectiveOf q := by
  have lineUp : t.chip.lineUp = c.takeLineUp.lineUp := by rw [ht, Chip.settle_lineUp]
  have sources : t.chip.sources = c.takeLineUp.sources := by rw [ht, Chip.settle_sources]
  have channel : t.chip.channel = c.takeLineUp.channel := by funext q; rw [Chip.channel, Chip.channel, lineUp]
  have sweep : t.chip.sweep = c.takeLineUp.sweep := by rw [ht, Chip.settle_sweep]
  have effective : ∀ q, q < 64 → t.chip.effective q = t.chip.effectiveOf q := fun q hq => by
    rw [Chip.effective, lineUp, ← Chip.effective, c.takeLineUp_effective hq, Chip.effectiveOf_congr channel sources]
  have blackouts : BlackoutsAt t.chip c.now := by
    apply blackoutsAt_of_lineUp <;> rw [lineUp, Chip.takeLineUp_lineUp]
  refine ⟨?_, ?_, ?_, ?_, ?_, sweep.trans c.takeLineUp_sweep, blackouts, effective⟩ <;>
    rw [lineUp, Chip.takeLineUp_lineUp]

/-- Settles O26: the word is captured in every case; what its event does is the case of R3, R4 and R10 it falls under. -/
theorem lineUpTakeChecksThenTakes : Obligations.LineUpTakeChecksThenTakes := by
  constructor
  · intro h s settled canonical free running map touched kind unheld a m fresh
    have state : s.chip.part.state = .running := by simpa [Chip.running] using running
    obtain ⟨t, run, chip, array, pending⟩ := exec_lineUpTakeRequest_eq free (.inr state) map touched kind
    generalize hc : s.chip.lineUpCaptured h = c at chip
    have quiet : c.quiet = true := by rw [← hc, Chip.lineUpCaptured_quiet]; exact settled
    have part : c.part = s.chip.part := by
      rw [← hc, Chip.lineUpCaptured, Chip.setPart_part, if_neg (by rw [state]; decide)]
    have lineUp : c.lineUp = { s.chip.lineUp with mirror := m } := by rw [← hc]; rfl
    have reach : Reaches [.lineUp, .part] s.chip c := by
      rw [← hc]; exact (Chip.setLineUp_reaches _ _).then (by rfl) (Chip.setPart_reaches _ _)
    have takes : c.takesRequests c.lineUp.gen = true := by
      rw [Chip.takesRequests, Chip.running, part, ← Chip.running, running]; rfl
    have run' : c.running = true := by rw [Chip.running, part, ← Chip.running, running]
    have new : c.lineUp.gen ≠ some (takeWord c.lineUp.mirror) := by rw [lineUp]; exact fresh
    have held : c.lineUp.held = false := by rw [lineUp]; exact unheld
    have sweep := reach.sweep (by decide)
    have now : c.now = s.chip.clock.minute := congrArg Clock.minute (reach.clock (by decide))
    obtain ⟨ports, branches, plant, subscribers, time, orders, -⟩ := lineUpEvent_frame quiet chip reach
    have still : ∀ x, c.lineUpEvent = c.setLineUp x → t.chip.lineUp = x ∧ t.chip.sweep = s.chip.sweep
        ∧ SameSupervision s t ∧ SameQueues s t ∧ t.chip.rack = s.chip.rack := fun x hx => by
      rw [hx, Chip.settle_setLineUp quiet x] at chip
      rw [SameSupervision, SameQueues, chip]
      exact ⟨rfl, sweep, ⟨reach.elements (by decide), reach.plant (by decide), reach.sources (by decide),
        reach.outages (by decide)⟩, ⟨reach.orders (by decide), reach.journal (by decide)⟩, reach.rack (by decide)⟩
    refine ⟨t, run, array ▸ halfWritten_writeHost canonical h a, fun o calm refused => ?refused,
      fun calm taken => ?taken, fun sweeping => ?noted, ports, branches, plant, subscribers, time, orders,
      lineUpEvent_bus chip part reach, pending⟩
    case refused =>
      have event : c.lineUpEvent = c.setLineUp { c.lineUp with outcome := o } :=
        (Chip.lineUpEvent_tried takes new held (sweep.trans calm)).trans
          (Chip.tryLineUp_refused (by rw [lineUp]; exact refused))
      obtain ⟨line, swept, supervision, queues, rack⟩ := still _ event
      exact ⟨by rw [line, lineUp], swept.trans calm, supervision, queues, rack⟩
    case taken =>
      have event : c.lineUpEvent = c.takeLineUp :=
        (Chip.lineUpEvent_tried takes new held (sweep.trans calm)).trans
          (Chip.tryLineUp_taken (by rw [lineUp]; exact taken))
      have view := lineUpTaken_view (event ▸ chip)
      rw [lineUp, now, run', if_pos rfl] at view
      obtain ⟨mirror, current, gen, outcome, note, start, blackouts, effective⟩ := view
      exact ⟨mirror, current, gen, outcome, note.trans unheld, start, blackouts, effective⟩
    case noted =>
      have event := Chip.lineUpEvent_held takes new held (by rw [sweep]; exact sweeping)
      obtain ⟨line, swept, supervision, queues, rack⟩ := still _ event
      exact ⟨by rw [line, lineUp], swept, supervision, queues, rack⟩
  · intro h s settled canonical free watched map touched kind marked a m
    obtain ⟨t, run, chip, array, pending⟩ := exec_lineUpTakeRequest_eq free watched map touched kind
    generalize hc : s.chip.lineUpCaptured h = c at chip
    have quiet : c.quiet = true := by rw [← hc, Chip.lineUpCaptured_quiet]; exact settled
    have lineUp : c.lineUp = { s.chip.lineUp with mirror := m } := by rw [← hc]; rfl
    have reach : Reaches [.lineUp, .part] s.chip c := by
      rw [← hc]; exact (Chip.setLineUp_reaches _ _).then (by rfl) (Chip.setPart_reaches _ _)
    have state : c.part.state = s.chip.part.state := by rw [← hc]; rfl
    have now : c.now = s.chip.clock.minute := congrArg Clock.minute (reach.clock (by decide))
    have sweep := reach.sweep (by decide)
    obtain ⟨ports, branches, plant, subscribers, time, orders, part⟩ := lineUpEvent_frame quiet chip reach
    have marks : MarksAfter s t a h := marksAfter_captured marked (by rw [part, hc])
    have partAfter : t.chip.part = { s.chip.part with marks := t.chip.part.marks } := by rw [part, ← hc]; rfl
    refine ⟨fun captured => ?captured, fun g fill gen other unheld calm => ?event⟩
    case captured =>
      have event : c.lineUpEvent = c := by
        refine Chip.lineUpEvent_none ?_
        rw [lineUp]
        refine captured.imp (fun early => ?_) id
        obtain ⟨fill, none⟩ := early
        simp [Chip.takesRequests, Chip.running, state, fill, none]
      rw [event, Chip.settle_quiet c quiet] at chip
      exact ⟨t, run, array ▸ halfWritten_writeHost canonical h a, marks, by rw [chip, ← hc]; rfl, pending⟩
    case event =>
      have stopped : c.running = false := by rw [Chip.running, state, fill]; rfl
      have takes : c.takesRequests c.lineUp.gen = true := by
        rw [lineUp]
        simp [Chip.takesRequests, state, fill, gen]
      have new : c.lineUp.gen ≠ some (takeWord c.lineUp.mirror) := by
        rw [lineUp]
        exact fun same => other (Option.some.inj (gen.symm.trans same))
      have tried := Chip.lineUpEvent_tried takes new (by rw [lineUp]; exact unheld) (sweep.trans calm)
      rw [tried] at chip
      have swept : t.chip.sweep = none := by
        rw [chip, Chip.settle_sweep]
        unfold Chip.tryLineUp
        split
        · exact sweep.trans calm
        · rw [Chip.takeLineUp_sweep, stopped]
          exact sweep.trans calm
      refine ⟨t, run, array ▸ halfWritten_writeHost canonical h a, marks, partAfter, swept, fun o refused => ?_,
        fun taken => ?_, ports, branches, plant, subscribers, time, orders, pending⟩
      · rw [Chip.tryLineUp_refused (by rw [lineUp]; exact refused), Chip.lineUpOutcome,
          Chip.settle_setLineUp quiet] at chip
        rw [chip]
        exact ⟨by rw [Chip.setLineUp_lineUp, lineUp], reach.rack (by decide)⟩
      · rw [Chip.tryLineUp_taken (by rw [lineUp]; exact taken)] at chip
        have view := lineUpTaken_view chip
        rw [lineUp, now] at view
        obtain ⟨mirror, current, gen, outcome, -, -, blackouts, effective⟩ := view
        exact ⟨mirror, current, gen, outcome, blackouts, effective⟩

end Sys2Proof.Machine

namespace Sys2Proof.Machine

/-! ### The Minute Clock over a minute event (R109, R111, R115, R116) -/

/-- State, minute number, seconds and loss timer: what of the clock a minute event leaves but for the minute. -/
def Clock.face (k : Clock) : ClockState × Option Nat × Nat × Bool := (k.state, k.minute, k.seconds, k.lossTimer)

theorem Clock.face_eq {k l : Clock} (h : k.face = l.face) :
    k.state = l.state ∧ k.minute = l.minute ∧ k.seconds = l.seconds ∧ k.lossTimer = l.lossTimer := by
  simpa only [Clock.face, Prod.mk.injEq] using h

theorem Chip.takeMinute_clock (c : Chip) :
    c.takeMinute.clock = if c.clock.backlog < 1440 then { c.clock with backlog := c.clock.backlog + 1 }
      else { c.clock with nextPass := some (c.clock.nextPass.getD 0 + 1), dropped := c.clock.dropped + 1 } := by
  unfold Chip.takeMinute
  split
  · next h => exact (if_pos (show c.clock.backlog < 1440 from h)).symm
  · next h =>
    exact ((Chip.noticeOf_reaches _ _ _).clock (by decide)).trans (if_neg (show ¬ c.clock.backlog < 1440 from h)).symm

theorem Chip.takeMinute_face (c : Chip) : c.takeMinute.clock.face = c.clock.face := by
  rw [Chip.takeMinute_clock]
  split <;> rfl

theorem Chip.startPass_clock (c : Chip) :
    c.startPass.clock = { c.clock with
      nextPass := some (c.clock.nextPass.getD 0 + 1), backlog := c.clock.backlog - 1
      cal := if c.clock.cal.due (c.clock.nextPass.getD 0) then c.clock.cal.boundary else c.clock.cal } := rfl
theorem Chip.startPass_pass (c : Chip) :
    c.startPass.pass = { state := .visiting, minute := some (c.clock.nextPass.getD 0), cursor := 0, point := none } :=
  rfl
theorem Chip.startPass_checkpoint (c : Chip) : c.startPass.engine.checkpoint.isSome = true := rfl

/-- With a pass under way, or no minute waiting, no pass starts. -/
theorem Chip.passIfDue_none {c : Chip} (h : c.pass.state ≠ .idle ∨ c.clock.backlog = 0) : c.passIfDue = c :=
  if_neg fun due => h.elim (fun busy => busy due.1) fun empty => due.2 empty
theorem Chip.passIfDue_due {c : Chip} (hp : c.pass.state = .idle) (hb : c.clock.backlog ≠ 0) :
    c.passIfDue = c.startPass := if_pos ⟨hp, hb⟩

theorem Chip.passIfDue_face (c : Chip) : c.passIfDue.clock.face = c.clock.face := by
  unfold Chip.passIfDue
  split <;> rfl

/-- A minute event up to the evaluation of the blackouts. -/
def Chip.minuteTaken (c : Chip) : Chip := c.raiseMinute.takeMinute

theorem Chip.minuteEvent_eq (c : Chip) : c.minuteEvent = c.minuteTaken.evaluateBlackouts.passIfDue.armBranches := rfl

theorem Chip.minuteTaken_reaches (c : Chip) : Reaches [.clock, .journal] c c.minuteTaken :=
  (c.setClock_reaches _).then (by rfl) (Chip.takeMinute_reaches _)
theorem Chip.minuteTaken_clock (c : Chip) :
    c.minuteTaken.clock =
      let k := { c.clock with minute := c.clock.minute.map (· + 1) }
      if c.clock.backlog < 1440 then { k with backlog := c.clock.backlog + 1 }
      else { k with nextPass := some (c.clock.nextPass.getD 0 + 1), dropped := c.clock.dropped + 1 } :=
  c.raiseMinute.takeMinute_clock
theorem Chip.minuteTaken_now (c : Chip) : c.minuteTaken.now = c.now.map (· + 1) :=
  (Clock.face_eq c.raiseMinute.takeMinute_face).2.1

/-- The blocks of a minute event after the evaluation: the clock and the pass by the pass start. -/
theorem Chip.minuteEvent_clock (c : Chip) :
    c.minuteEvent.clock = c.minuteTaken.evaluateBlackouts.passIfDue.clock :=
  (Chip.armBranches_reaches _).clock (by decide)
theorem Chip.minuteEvent_pass (c : Chip) :
    c.minuteEvent.pass = c.minuteTaken.evaluateBlackouts.passIfDue.pass :=
  (Chip.armBranches_reaches _).pass (by decide)
theorem Chip.minuteEvent_engine (c : Chip) :
    c.minuteEvent.engine = c.minuteTaken.evaluateBlackouts.passIfDue.engine := Chip.armBranches_engine _

theorem Chip.evaluateBlackouts_clock (c : Chip) : c.evaluateBlackouts.clock = c.clock :=
  c.evaluateBlackouts_reaches.clock (by decide)
theorem Chip.evaluateBlackouts_pass (c : Chip) : c.evaluateBlackouts.pass = c.pass :=
  c.evaluateBlackouts_reaches.pass (by decide)

/-- The minute number has risen by one, with the clock's state, seconds and loss timer kept. -/
theorem Chip.minuteEvent_face (c : Chip) :
    c.minuteEvent.clock.face = { c.clock with minute := c.clock.minute.map (· + 1) }.face := by
  rw [Chip.minuteEvent_clock, Chip.passIfDue_face, Chip.evaluateBlackouts_clock]
  exact c.raiseMinute.takeMinute_face

/-- With a pass under way a minute event changes neither the pass nor, but for the waiting minute, the clock. -/
theorem Chip.minuteEvent_busy {c : Chip} (h : c.pass.state ≠ .idle) :
    c.minuteEvent.clock = c.minuteTaken.clock ∧ c.minuteEvent.pass = c.pass := by
  have pass : c.minuteTaken.evaluateBlackouts.pass = c.pass :=
    (Chip.evaluateBlackouts_pass _).trans (c.minuteTaken_reaches.pass (by decide))
  have none := Chip.passIfDue_none (c := c.minuteTaken.evaluateBlackouts) (.inl (by rwa [pass]))
  rw [Chip.minuteEvent_clock, Chip.minuteEvent_pass, none]
  exact ⟨Chip.evaluateBlackouts_clock _, pass⟩

/-- With the part between passes and no minute waiting, the minute event's own minute starts the pass that was due. -/
theorem Chip.minuteEvent_starts {c : Chip} {n : Nat} (hp : c.pass.state = .idle) (hb : c.clock.backlog = 0)
    (hn : c.clock.nextPass = some n) :
    c.minuteEvent.clock.backlog = 0 ∧ c.minuteEvent.clock.nextPass = some (n + 1)
      ∧ c.minuteEvent.pass = { state := .visiting, minute := some n, cursor := 0, point := none }
      ∧ c.minuteEvent.engine.checkpoint.isSome = true
      ∧ c.minuteEvent.clock.cal = if c.clock.cal.due n then c.clock.cal.boundary else c.clock.cal := by
  have clock : c.minuteTaken.evaluateBlackouts.clock =
      { c.clock with minute := c.clock.minute.map (· + 1), backlog := c.clock.backlog + 1 } := by
    rw [Chip.evaluateBlackouts_clock, Chip.minuteTaken_clock]
    exact if_pos (by omega)
  have pass : c.minuteTaken.evaluateBlackouts.pass = c.pass :=
    (Chip.evaluateBlackouts_pass _).trans (c.minuteTaken_reaches.pass (by decide))
  have starts := Chip.passIfDue_due (c := c.minuteTaken.evaluateBlackouts) (by rwa [pass])
    (by rw [clock]; exact Nat.succ_ne_zero _)
  have next : c.minuteTaken.evaluateBlackouts.clock.nextPass.getD 0 = n := by rw [clock]; exact congrArg (·.getD 0) hn
  rw [Chip.minuteEvent_clock, Chip.minuteEvent_pass, Chip.minuteEvent_engine, starts, Chip.startPass_clock,
    Chip.startPass_pass, next, clock, hb]
  exact ⟨rfl, rfl, rfl, Chip.startPass_checkpoint _, rfl⟩

/-! ### The blackouts over minute events -/

/-- Of the Line-Up Engine the activity and the zone sets alone differ between two parts. -/
def ActivityOnly (c d : Chip) : Prop :=
  d.lineUp = { c.lineUp with active := d.lineUp.active, zones := d.lineUp.zones }

theorem ActivityOnly.refl (c : Chip) : ActivityOnly c c := rfl
theorem ActivityOnly.trans {c d e : Chip} (h : ActivityOnly c d) (h' : ActivityOnly d e) : ActivityOnly c e := by
  unfold ActivityOnly at *
  rw [h', h]

/-- What follows the evaluation in a minute event keeps what R33 reads and the desired states. -/
theorem Chip.minuteEvent_after (c : Chip) : Alike Port.desired c.minuteTaken.evaluateBlackouts c.minuteEvent :=
  (Alike.of_reaches (Chip.passIfDue_reaches _) (by decide) (by decide) (by decide)).trans
    (Chip.armBranches_alike steady_desired _)

theorem Chip.evaluateBlackouts_lineUp (c : Chip) : c.evaluateBlackouts.lineUp = c.evaluateList.lineUp :=
  (Chip.recomputeZones_reaches _ _).lineUp (by decide)

theorem Chip.minuteEvent_lineUp (c : Chip) : c.minuteEvent.lineUp = c.minuteTaken.evaluateList.lineUp :=
  c.minuteEvent_after.lineUp.trans (Chip.evaluateBlackouts_lineUp _)

theorem Chip.minuteEvent_activityOnly (c : Chip) : ActivityOnly c c.minuteEvent := by
  have before : c.minuteTaken.lineUp = c.lineUp := c.minuteTaken_reaches.lineUp (by decide)
  rw [ActivityOnly, Chip.minuteEvent_lineUp, ← before]
  rfl

theorem BlackoutsAt.congr {c d : Chip} {now : Option Nat} (h : BlackoutsAt c now) (hl : d.lineUp = c.lineUp) :
    BlackoutsAt d now := by rwa [BlackoutsAt, hl]

/-- After a minute event the blackouts stand evaluated for the new minute number (R16, R17). -/
theorem Chip.minuteEvent_blackoutsAt (c : Chip) : BlackoutsAt c.minuteEvent (c.now.map (· + 1)) := by
  have evaluated := c.minuteTaken.evaluateList_blackoutsAt
  rw [Chip.minuteTaken_now] at evaluated
  exact evaluated.congr c.minuteEvent_lineUp

/-! ### What the selections leave after an operation that reaches no element, rack or order -/

theorem Chip.settle_rack_of_running {c d : Chip} (hq : c.quiet = true) (hr : c.running = true)
    (hd : d.rack = c.rack) : d.settle.rack = c.rack := by
  have quiet := Chip.quiet_rack hq
  simp only [Chip.quietRack, hr, Bool.not_true, Bool.false_and, Bool.or_false] at quiet
  rw [Chip.settle_rack_eq, Chip.armRack_held _ (by rw [hd]; exact quiet), hd]

end Sys2Proof.Machine

namespace Sys2Proof.Machine

/-! ### Seconds, minute events and the loss of seconds (R109 to R111) -/

/-- Whether anything is left to select does not depend on the clock. -/
theorem Chip.settle_setClock {c : Chip} (h : c.quiet = true) (k : Clock) : (c.setClock k).settle = c.setClock k :=
  Chip.settle_quiet _ h

theorem Chip.clockCounts_of {c : Chip} (hr : c.running = true) (hc : c.clock.state ≠ .unset) : c.clockCounts = true := by
  rw [Chip.clockCounts, hr, bne_iff_ne.mpr hc]; rfl

theorem Chip.minuteCanRise_iff {c : Chip} {m : Nat} (h : c.clock.minute = some m) :
    c.minuteCanRise = decide (m < 4294967294) := by
  rw [Chip.minuteCanRise, h]
  rfl

theorem exec_sec1Edge_eq {s : State} (h : s.chip.clockCounts = true) :
    exec .sec1Edge s = .next (s.act Chip.secondEdge) :=
  congrArg Host.Outcome.next (State.actIf_ready (ready := Chip.clockCounts) h _)

theorem exec_minuteEvent_eq {s : State} (hc : s.chip.clockCounts = true) (hm : s.chip.minuteCanRise = true) :
    exec .minuteEvent s = .next (s.act Chip.wrapSeconds) := by
  have ready : (s.chip.clockCounts && s.chip.minuteCanRise) = true := by rw [hc, hm]; rfl
  exact congrArg Host.Outcome.next
    (State.actIf_ready (ready := fun c => c.clockCounts && c.minuteCanRise) ready _)

theorem exec_secondsLossTimeout_eq {s : State} (hr : s.chip.running = true) (hc : s.chip.clock.state = .running) :
    exec .secondsLossTimeout s = .next (s.act Chip.loseSeconds) := by
  have ready : (s.chip.running && s.chip.clock.state == .running) = true := by rw [hr, hc]; rfl
  exact congrArg Host.Outcome.next
    (State.actIf_ready (ready := fun c => c.running && c.clock.state == .running) ready _)

/-- The wrap of the seconds count, by an edge or as a command of its own: a minute event on a clock at second 0. -/
theorem exec_wrap_eq {s : State} {m : Nat} (hc : s.chip.clockCounts = true) (hm : s.chip.clock.minute = some m)
    (hlt : m < 4294967294) {i : Instr} (hi : i = .minuteEvent ∨ (i = .sec1Edge ∧ 59 ≤ s.chip.clock.seconds)) :
    ∃ f : Chip → Chip, ∃ k : Clock, exec i s = .next (s.act f) ∧ f s.chip = (s.chip.setClock k).minuteEvent
      ∧ k = { s.chip.clock with state := k.state, lossTimer := k.lossTimer, seconds := 0 }
      ∧ (i = .sec1Edge → k.state = .running) := by
  have rises : s.chip.minuteCanRise = true := by rw [Chip.minuteCanRise_iff hm]; exact decide_eq_true hlt
  obtain rfl | ⟨rfl, last⟩ := hi
  · exact ⟨Chip.wrapSeconds, { s.chip.clock with seconds := 0 }, exec_minuteEvent_eq hc rises, rfl, rfl, nofun⟩
  · refine ⟨Chip.secondEdge, { s.chip.clock with state := .running, lossTimer := true, seconds := 0 },
      exec_sec1Edge_eq hc, ?_, rfl, fun _ => rfl⟩
    unfold Chip.secondEdge
    dsimp only
    rw [if_neg (by omega), if_pos rises]
    rfl

/-- What a minute event at a clock of second 0 and the selections leave of supervision and of the rack link. -/
theorem minuteEvent_frame {s t : State} {k : Clock} (quiet : Settled s) (running : s.chip.running = true)
    (ht : t.chip = (s.chip.setClock k).minuteEvent.settle) : SameSupervision s t ∧ t.chip.rack = s.chip.rack := by
  have reach := (s.chip.setClock k).minuteEvent_reaches
  have rack : (s.chip.setClock k).minuteEvent.rack = s.chip.rack := reach.rack (by decide)
  rw [SameSupervision, ht]
  refine ⟨⟨?_, ?_, ?_, ?_⟩, Chip.settle_rack_of_running quiet running rack⟩
  · exact (Chip.settle_elements _).trans (reach.elements (by decide))
  · exact (Chip.settle_plant _).trans (reach.plant (by decide))
  · exact (Chip.settle_sources _).trans (reach.sources (by decide))
  · exact (Chip.settle_outages _).trans (reach.outages (by decide))

/-- A minute event, with the selections, evaluates the blackouts for the new minute number (R16, R17). -/
theorem minuteEvent_evaluated {s t : State} {k : Clock} {m : Nat} (hm : k.minute = some m)
    (ht : t.chip = (s.chip.setClock k).minuteEvent.settle) : BlackoutsEvaluated s t (some (m + 1)) := by
  have reach := (s.chip.setClock k).minuteTaken_reaches
  have now : (s.chip.setClock k).minuteTaken.now = some (m + 1) :=
    (s.chip.setClock k).minuteTaken_now.trans (congrArg (Option.map (· + 1)) hm)
  refine blackoutsEvaluated_of (c := (s.chip.setClock k).minuteTaken) now (reach.lineUp (by decide))
    (reach.subs (by decide)) (reach.ports (by decide)) ?_ ?_ <;> rw [ht]
  · exact (s.chip.setClock k).minuteEvent_after.trans (Chip.settle_alike steady_desired _)
  · exact (Chip.settle_sweep _).trans ((s.chip.setClock k).minuteEvent_reaches.sweep (by decide))

/-- The loss of seconds: the clock HELD, and its notice offered (R110, R153). -/
theorem Chip.loseSeconds_journal {c : Chip} {m : Nat} (hm : c.clock.minute = some m) :
    c.loseSeconds.journal =
      if c.noticeRoom then
        { c.journal with queue := c.journal.queue
            ++ [{ entry := { index := 0, minute := some m, account := 0, amount := 0, cycle := 0
                             body := .clockHeld c.clock.seconds }
                  ring := 0, writing := false }] }
      else { c.journal with dropped := c.journal.dropped + 1 } := by
  have offered := (c.setClock { c.clock with state := .held, lossTimer := false }).notice_queue
    { index := 0, minute := c.clock.minute, account := 0, amount := 0, cycle := 0, body := .clockHeld c.clock.seconds }
  rw [hm] at offered
  have notice : c.loseSeconds = (c.setClock { c.clock with state := .held, lossTimer := false }).notice
    { index := 0, minute := c.clock.minute, account := 0, amount := 0, cycle := 0, body := .clockHeld c.clock.seconds } :=
    rfl
  rw [notice, hm]
  exact offered

/-- The bus blocks after an operation that reaches none of them. -/
theorem sameBus_of_settle {s t : State} {bs : List Block} {d : Chip} (ht : t.chip = d.settle)
    (reach : Reaches bs s.chip d) (hpart : Block.part ∉ bs) (hpath : Block.path ∉ bs) (hdrawn : Block.drawn ∉ bs)
    (hengine : Block.engine ∉ bs) : SameBus s t := by
  have request := d.settle_engine
  rw [reach.engine hengine] at request
  refine ⟨?_, ?_, ?_, ?_⟩ <;> rw [ht]
  · exact (Chip.settle_part _).trans (reach.part hpart)
  · exact (Chip.settle_path _).trans (reach.path hpath)
  · exact (Chip.settle_drawn _).trans (reach.drawn hdrawn)
  · exact request

/-- The links and the orders after an operation that reaches none of them, nor what their selections rest on, from a part
with nothing to select. -/
theorem sameLinks_of_settle {s t : State} {d : Chip} (quiet : Settled s) (ht : t.chip = d.settle)
    (running : d.running = s.chip.running) (units : SameUnits s.chip d) (ports : d.ports = s.chip.ports)
    (branches : d.branches = s.chip.branches) (rack : d.rack = s.chip.rack) (orders : d.orders = s.chip.orders) :
    SameLinks s t ∧ t.chip.orders = s.chip.orders := by
  have request := Chip.settle_requestBus_of_quiet quiet running units branches rack orders
  have reach := d.requestBus_reaches
  rw [SameLinks, ht, request]
  exact ⟨⟨(reach.ports (by decide)).trans ports, (reach.branches (by decide)).trans branches,
    (reach.rack (by decide)).trans rack⟩, (reach.orders (by decide)).trans orders⟩

/-- Settles O44: the edge within a minute, the edge at the last minute number, the minute event, and the loss of
seconds. -/
theorem secondsMakeMinutes : Obligations.SecondsMakeMinutes := by
  intro m s running counting minute
  have counts := Chip.clockCounts_of running counting
  refine ⟨fun quiet early => ?edge, fun quiet late last => ?stop, fun quiet rises i command => ?event,
    fun quiet runs => ?loss⟩
  case edge =>
    refine ⟨_, exec_sec1Edge_eq counts, ?_, s.act_outside _⟩
    have counted : s.chip.secondEdge = s.chip.setClock
        { s.chip.clock with state := .running, lossTimer := true, seconds := s.chip.clock.seconds + 1 } :=
      if_pos early
    rw [State.act_chip, counted, Chip.settle_setClock quiet]
  case stop =>
    refine ⟨_, exec_sec1Edge_eq counts, ?_, s.act_outside _⟩
    have stopped : s.chip.secondEdge = s.chip.setClock { s.chip.clock with state := .running, lossTimer := true } := by
      have full : ¬ s.chip.clock.seconds < 59 := by omega
      have cannot : ¬ s.chip.minuteCanRise = true := by
        rw [Chip.minuteCanRise_iff minute]
        simp only [decide_eq_true_eq]
        omega
      unfold Chip.secondEdge
      dsimp only
      rw [if_neg full, if_neg cannot]
    rw [State.act_chip, stopped, Chip.settle_setClock quiet]
  case event =>
    obtain ⟨f, k, run, chip, clock, edge⟩ := exec_wrap_eq counts minute rises command
    have after : (s.act f).chip = (s.chip.setClock k).minuteEvent.settle := by rw [State.act_chip, chip]
    have kminute : k.minute = some m := by rw [clock]; exact minute
    obtain ⟨face, raised, seconds, -⟩ := Clock.face_eq (s.chip.setClock k).minuteEvent_face
    have taken := (s.chip.setClock k).minuteTaken_clock
    obtain ⟨supervision, rack⟩ := minuteEvent_frame quiet running after
    refine ⟨s.act f, run, ?_⟩
    have evaluated := minuteEvent_evaluated kminute after
    have outside := s.act_outside f
    generalize s.act f = t at after supervision rack evaluated outside ⊢
    rw [after, Chip.settle_clock, Chip.settle_pass]
    refine ⟨?minute, ?seconds, fun e => ?state, fun busy room => ?busy, fun busy full n next => ?full,
      fun idle empty n next => ?starts, evaluated, supervision, by rwa [after] at rack, outside⟩
    case minute =>
      exact raised.trans (congrArg (Option.map (· + 1)) kminute)
    case seconds =>
      have zero : k.seconds = 0 := by rw [clock]
      exact seconds.trans zero
    case state =>
      exact face.trans (edge e)
    case busy =>
      obtain ⟨kept, pass⟩ := Chip.minuteEvent_busy (c := s.chip.setClock k) busy
      rw [kept, taken, pass, Chip.setClock_clock, if_pos (by rw [clock]; exact room), clock]
      exact ⟨rfl, rfl, rfl, rfl⟩
    case full =>
      obtain ⟨kept, pass⟩ := Chip.minuteEvent_busy (c := s.chip.setClock k) busy
      rw [kept, taken, pass, Chip.setClock_clock, if_neg (by rw [clock]; exact not_lt.mpr full.ge), clock]
      exact ⟨full, by simp only [next, Option.getD_some], rfl, rfl⟩
    case starts =>
      obtain ⟨backlog, due, pass, checkpoint, cal⟩ := Chip.minuteEvent_starts (c := s.chip.setClock k) idle
        (by rw [Chip.setClock_clock, clock]; exact empty) (by rw [Chip.setClock_clock, clock]; exact next)
      have kept : ((s.chip.setClock k).minuteEvent.settle).engine.checkpoint = (s.chip.setClock k).minuteEvent.engine.checkpoint := by
        rw [(Chip.settle_engine _).1]
      rw [kept]
      refine ⟨backlog, due, pass, checkpoint, cal.trans ?_⟩
      rw [Chip.setClock_clock, clock]
      simp only [Calendar.due, decide_eq_true_eq]
      rfl
  case loss =>
    refine ⟨_, exec_secondsLossTimeout_eq running runs, ?_⟩
    have chip := s.act_chip Chip.loseSeconds
    have outside := s.act_outside Chip.loseSeconds
    generalize s.act Chip.loseSeconds = t at chip outside ⊢
    have reach := s.chip.loseSeconds_reaches
    have journal := s.chip.loseSeconds_journal minute
    have clock : s.chip.loseSeconds.clock = { s.chip.clock with state := .held, lossTimer := false } :=
      (Chip.noticeOf_reaches _ _ _).clock (by decide)
    obtain ⟨links, orders⟩ := sameLinks_of_settle quiet chip (Chip.running_congr (reach.part (by decide)))
      (.of_reaches reach (by decide)) (reach.ports (by decide)) (reach.branches (by decide)) (reach.rack (by decide))
      (reach.orders (by decide))
    refine ⟨?_, fun room => ?_, fun full => ?_, links, ⟨?_, ?_, ?_, ?_⟩, ⟨?_, ?_⟩, ?_, orders, ⟨?_, ?_⟩,
      sameBus_of_settle chip reach (by decide) (by decide) (by decide) (by decide), outside⟩ <;> rw [chip]
    · exact (Chip.settle_clock _).trans clock
    · rw [Chip.settle_journal, journal, if_pos room]
      exact ⟨rfl, rfl⟩
    · rw [Chip.settle_journal, journal, if_neg (by rw [full]; exact Bool.false_ne_true)]
    · exact (Chip.settle_elements _).trans (reach.elements (by decide))
    · exact (Chip.settle_plant _).trans (reach.plant (by decide))
    · exact (Chip.settle_sources _).trans (reach.sources (by decide))
    · exact (Chip.settle_outages _).trans (reach.outages (by decide))
    · exact (Chip.settle_subs _).trans (reach.subs (by decide))
    · exact (Chip.settle_store _).trans (reach.store (by decide))
    · exact (Chip.settle_pass _).trans (reach.pass (by decide))
    · exact (Chip.settle_lineUp _).trans (reach.lineUp (by decide))
    · exact (Chip.settle_sweep _).trans (reach.sweep (by decide))

end Sys2Proof.Machine

namespace Sys2Proof.Machine

/-! ### The end of an order (R150, R151) -/

/-- The order in hand ends with its code, whatever the selections take next. -/
theorem orderFinished_of_finishOrder {s t : State} {d : Chip} {o : Order} {code : OutcomeCode} (taken : OrderTaken s o)
    (orders : d.orders = s.chip.orders) (part : d.part = s.chip.part) (ht : t.chip = (d.finishOrder code).settle) :
    OrderFinished s t code := by
  obtain ⟨-, -, capacity, bounded⟩ := taken
  have slot : d.slotOf s.chip.orders.head = s.chip.orders.head.toNat % s.chip.config.orderCapacity := by
    rw [Chip.slotOf, Chip.config, part]
    rfl
  have within : s.chip.orders.head.toNat % s.chip.config.orderCapacity < 256 :=
    (Nat.mod_lt _ capacity).trans_le bounded
  have outcomes : t.chip.orders.outcomes =
      vupd s.chip.orders.outcomes (s.chip.orders.head.toNat % s.chip.config.orderCapacity) fun _ =>
        { code := code, index := s.chip.orders.head } := by
    rw [ht, Chip.settle_orders_outcomes]
    simp only [Chip.finishOrder, Chip.setOrders_orders, orders, slot]
  refine ⟨?_, fun j hj => ?_, ?_, ?_, ?_, ?_, ?_⟩
  · rw [outcomes]; exact vget_vupd_same _ _ _ within
  · rw [outcomes]; exact vget_vupd_other _ _ _ _ hj
  all_goals rw [ht]
  · rw [Chip.settle_orders_head, Chip.finishOrder, Chip.setOrders_orders, orders]
  · rw [Chip.settle_orders_tail, Chip.finishOrder, Chip.setOrders_orders, orders]
  · rw [Chip.settle_orders_mirror, Chip.finishOrder, Chip.setOrders_orders, orders]
  · rw [Chip.settle_orders_done, Chip.finishOrder, Chip.setOrders_orders, orders]
  · rw [Chip.settle_orders_refused, Chip.finishOrder, Chip.setOrders_orders, orders]

/-- The links of a RUNNING part with nothing to select, over an operation that reaches none of them. -/
theorem sameLinks_of_running {s t : State} {d : Chip} (quiet : Settled s) (running : s.chip.running = true)
    (ht : t.chip = d.settle) (part : d.part = s.chip.part) (units : SameUnits s.chip d)
    (ports : d.ports = s.chip.ports) (branches : d.branches = s.chip.branches) (rack : d.rack = s.chip.rack) :
    SameLinks s t := by
  have links := Chip.settle_ports_branches (c := d) fun b hb =>
    (units.quietBranch (Chip.running_congr part) (by simp only [Chip.branch, branches])).trans
      (Chip.quiet_branch quiet hb)
  rw [SameLinks, ht]
  exact ⟨links.1.trans ports, links.2.trans branches, Chip.settle_rack_of_running quiet running rack⟩

/-- An order refused with nothing else done (R151). -/
theorem orderRefused_of_finishOrder {s t : State} {o : Order} {code : OutcomeCode} (quiet : Settled s)
    (taken : OrderTaken s o) (ht : t.chip = (s.chip.finishOrder code).settle) (outside : SameOutside s t) :
    OrderRefused s t code := by
  have reach := s.chip.finishOrder_reaches code
  have links := sameLinks_of_running quiet taken.1 ht (reach.part (by decide)) (.of_reaches reach (by decide))
    (reach.ports (by decide)) (reach.branches (by decide)) (reach.rack (by decide))
  refine ⟨orderFinished_of_finishOrder taken rfl rfl ht, ?_, ?_, links, ⟨?_, ?_, ?_, ?_⟩, ⟨?_, ?_⟩, ⟨?_, ?_⟩,
    sameBus_of_settle ht reach (by decide) (by decide) (by decide) (by decide), ?_, outside⟩ <;> rw [ht]
  · exact (Chip.settle_subs _).trans (reach.subs (by decide))
  · rw [Chip.settle_store, reach.store (by decide)]
  · exact (Chip.settle_elements _).trans (reach.elements (by decide))
  · exact (Chip.settle_plant _).trans (reach.plant (by decide))
  · exact (Chip.settle_sources _).trans (reach.sources (by decide))
  · exact (Chip.settle_outages _).trans (reach.outages (by decide))
  · exact (Chip.settle_clock _).trans (reach.clock (by decide))
  · exact (Chip.settle_pass _).trans (reach.pass (by decide))
  · exact (Chip.settle_lineUp _).trans (reach.lineUp (by decide))
  · exact (Chip.settle_sweep _).trans (reach.sweep (by decide))
  · exact (Chip.settle_journal _).trans (reach.journal (by decide))

/-- An order that touches no record of the store, in the working copy of a RUNNING part. -/
theorem directOrder_eq {s : State} {o : Order} (taken : OrderTaken s o) {kind : Nat} (hk : o.kind = kind)
    (f : Chip → Order → Chip) : s.directOrder kind f = .next (s.act fun c => f c o) := by
  obtain ⟨running, work, -, -⟩ := taken
  have found : s.chip.workOf kind = some o := by rw [Chip.workOf, work]; simp [hk]
  rw [State.directOrder, found]
  exact congrArg Host.Outcome.next (State.actIf_ready running _)

/-! ### SET CLOCK (R112, R113) -/

theorem exec_setClock_eq {s : State} {o : Order} (taken : OrderTaken s o) (hk : o.kind = 7) :
    exec .setClock s = .next (s.act fun c => c.decideOrder (c.checkSetClock o) fun c => c.applySetClock o) :=
  directOrder_eq taken hk fun c o => c.decideOrder (c.checkSetClock o) fun c => c.applySetClock o

/-- A refused SET CLOCK does nothing but end. -/
theorem setClock_refused {s : State} {o : Order} {code : OutcomeCode} (quiet : Settled s) (taken : OrderTaken s o)
    (hk : o.kind = 7) (check : s.chip.checkSetClock o = some code) :
    ∃ t, exec .setClock s = .next t ∧ OrderRefused s t code := by
  refine ⟨_, exec_setClock_eq taken hk, orderRefused_of_finishOrder quiet taken ?_ (s.act_outside _)⟩
  rw [State.act_chip, check]
  rfl

/-- An accepted SET CLOCK has its effect and ends DONE. -/
theorem setClock_accepted {s : State} {o : Order} (taken : OrderTaken s o) (hk : o.kind = 7)
    (check : s.chip.checkSetClock o = none) :
    ∃ t, exec .setClock s = .next t ∧ t.chip = ((s.chip.applySetClock o).finishOrder .done).settle
      ∧ SameOutside s t := by
  refine ⟨_, exec_setClock_eq taken hk, ?_, s.act_outside _⟩
  rw [State.act_chip, check]
  rfl

/-- The check of the parameters, then, unless the clock is UNSET, of the step against the minute number. -/
theorem Chip.checkSetClock_range {c : Chip} {o : Order} (h : 59 < o.word8 ∨ o.word12 = 4294967295) :
    c.checkSetClock o = some .parameterRange := if_pos h
theorem Chip.checkSetClock_unset {c : Chip} {o : Order} (h : ¬ (59 < o.word8 ∨ o.word12 = 4294967295))
    (hc : c.clock.state = .unset) : c.checkSetClock o = none := by
  rw [Chip.checkSetClock, if_neg h, hc]
theorem Chip.checkSetClock_step {c : Chip} {o : Order} {m : Nat} (h : ¬ (59 < o.word8 ∨ o.word12 = 4294967295))
    (hc : c.clock.state ≠ .unset) (hm : c.clock.minute = some m) :
    c.checkSetClock o =
      if o.word12 < m then some .stepBack else if m + 1440 < o.word12 then some .stepRange else none := by
  rw [Chip.checkSetClock, if_neg h, hm]
  cases hs : c.clock.state with
  | unset => exact absurd hs hc
  | running => rfl
  | held => rfl

theorem Chip.applySetClock_unset {c : Chip} (hc : c.clock.state = .unset) (o : Order) :
    c.applySetClock o = c.setFromUnset o.word12 o.word8 := by rw [Chip.applySetClock, hc]
theorem Chip.applySetClock_step {c : Chip} {m : Nat} (hc : c.clock.state ≠ .unset) (hm : c.clock.minute = some m)
    (o : Order) : c.applySetClock o = c.stepClock (o.word12 - m) o.word8 := by
  have at_ : c.clock.minute.getD 0 = m := by rw [hm]; rfl
  rw [Chip.applySetClock, at_]
  cases hs : c.clock.state with
  | unset => exact absurd hs hc
  | running => rfl
  | held => rfl

/-- The calendar brought forward stands at the cycle that holds the minute (R113). -/
theorem Calendar.forward_before {k : Calendar} {m : Nat} (h : m < k.start + k.m) : k.forward m = k := by
  refine if_neg ?_
  rw [Calendar.due, decide_eq_true_eq]
  omega
theorem Calendar.forward_after {k : Calendar} {m : Nat} (pos : 1 ≤ k.nextM) (h : k.start + k.m ≤ m) :
    ∃ n, k.forward m = { cycle := k.cycle + 1 + BitVec.ofNat 8 n, start := k.start + k.m + n * k.nextM
                         m := k.nextM, nextM := k.nextM }
      ∧ k.start + k.m + n * k.nextM ≤ m ∧ m < k.start + k.m + n * k.nextM + k.nextM := by
  have due : k.due m = true := decide_eq_true h
  refine ⟨(m - (k.start + k.m)) / k.nextM, if_pos due, ?_, ?_⟩
  · have := Nat.div_mul_le_self (m - (k.start + k.m)) k.nextM
    omega
  · have := Nat.lt_div_mul_add (a := m - (k.start + k.m)) pos
    omega

/-- SET CLOCK from UNSET: the clock set, then the evaluation, then the checkpoint. -/
def Chip.clockSet (c : Chip) (minute second : Nat) : Chip :=
  c.setClock { c.clock with
    state := .running, minute := some minute, seconds := second, lossTimer := true
    cal := c.clock.cal.forward minute, nextPass := some (minute + 1) }

theorem Chip.setFromUnset_eq (c : Chip) (minute second : Nat) :
    c.setFromUnset minute second = (c.clockSet minute second).evaluateBlackouts.queueCheckpoint := rfl

/-- k minute events raise the minute number by k and keep state and seconds. -/
theorem Chip.minuteEvents_face (c : Chip) (k : Nat) :
    (c.minuteEvents k).clock.state = c.clock.state ∧ (c.minuteEvents k).clock.minute = c.clock.minute.map (· + k)
      ∧ (c.minuteEvents k).clock.seconds = c.clock.seconds := by
  induction k with
  | zero => exact ⟨rfl, by simp [Chip.minuteEvents], rfl⟩
  | succ k ih =>
    obtain ⟨state, minute, seconds⟩ := ih
    obtain ⟨state', minute', seconds', -⟩ := Clock.face_eq (c.minuteEvents k).minuteEvent_face
    have last : c.minuteEvents (k + 1) = (c.minuteEvents k).minuteEvent := forIndices_succ _ _ _
    rw [last]
    refine ⟨state'.trans state, minute'.trans ?_, seconds'.trans seconds⟩
    rw [minute, Option.map_map]
    rfl

theorem Chip.minuteEvents_activityOnly (c : Chip) (k : Nat) : ActivityOnly c (c.minuteEvents k) :=
  forIndices_keeps (P := ActivityOnly c) k (.refl c) fun d _ _ h => h.trans d.minuteEvent_activityOnly

/-- After one minute event or more the blackouts stand evaluated for the minute reached. -/
theorem Chip.minuteEvents_blackoutsAt (c : Chip) {k : Nat} (h : 0 < k) :
    BlackoutsAt (c.minuteEvents k) (c.now.map (· + k)) := by
  obtain ⟨j, rfl⟩ : ∃ j, k = j + 1 := ⟨k - 1, by omega⟩
  have last : c.minuteEvents (j + 1) = (c.minuteEvents j).minuteEvent := forIndices_succ _ _ _
  have evaluated := (c.minuteEvents j).minuteEvent_blackoutsAt
  have now : (c.minuteEvents j).now = c.now.map (· + j) := (c.minuteEvents_face j).2.1
  rw [now, Option.map_map] at evaluated
  rw [last]
  exact evaluated

/-- The supervision after an effect of SET CLOCK and the end of the order. -/
theorem setClock_supervision {s t : State} {d : Chip} (reach : Reaches minuteBlocks s.chip d)
    (ht : t.chip = (d.finishOrder .done).settle) : SameSupervision s t := by
  rw [SameSupervision, ht, Chip.settle_elements, Chip.settle_plant, Chip.settle_sources, Chip.settle_outages]
  exact ⟨reach.elements (by decide), reach.plant (by decide), reach.sources (by decide), reach.outages (by decide)⟩

/-- Settles O56: the checks in turn; from UNSET the clock set and evaluated, otherwise the minute events of the step. -/
theorem setClockSetsOrSteps : Obligations.SetClockSetsOrSteps := by
  intro o s quiet taken kind cal refused
  refine ⟨fun range => setClock_refused quiet taken kind (Chip.checkSetClock_range range), fun second minute => ?_⟩
  have range : ¬ (59 < o.word8 ∨ o.word12 = 4294967295) := by omega
  refine ⟨fun unset => ?unset, fun m counting now => ⟨fun back => ?back, fun far => ?far, fun low high => ?step⟩⟩
  case back =>
    exact setClock_refused quiet taken kind ((Chip.checkSetClock_step range counting now).trans (if_pos back))
  case far =>
    exact setClock_refused quiet taken kind
      ((Chip.checkSetClock_step range counting now).trans ((if_neg (by omega)).trans (if_pos far)))
  case unset =>
    obtain ⟨t, run, chip, outside⟩ := setClock_accepted taken kind (Chip.checkSetClock_unset range unset)
    rw [Chip.applySetClock_unset unset, Chip.setFromUnset_eq] at chip
    have reach : Reaches minuteBlocks s.chip
        (s.chip.clockSet o.word12 o.word8).evaluateBlackouts.queueCheckpoint :=
      s.chip.setFromUnset_reaches o.word12 o.word8
    have evaluated := (s.chip.clockSet o.word12 o.word8).evaluateBlackouts_reaches
    have finished := ((s.chip.clockSet o.word12 o.word8).evaluateBlackouts.queueCheckpoint_reaches).then
      (bs := [.engine, .orders]) (by rfl) (Chip.finishOrder_reaches _ .done)
    have after : Alike Port.desired (s.chip.clockSet o.word12 o.word8).evaluateBlackouts t.chip := by
      rw [chip]
      exact (Alike.of_reaches finished (by decide) (by decide) (by decide)).trans
        (Chip.settle_alike steady_desired _)
    have clock : t.chip.clock = (s.chip.clockSet o.word12 o.word8).clock := by
      rw [chip, Chip.settle_clock, finished.clock (by decide), evaluated.clock (by decide)]
    have calendar : t.chip.clock.cal = s.chip.clock.cal.forward o.word12 := congrArg Clock.cal clock
    refine ⟨t, run, ?_, ?_, fun before => ?_, fun pos boundary => ?_, ?_, ?_, ?_, ?_, setClock_supervision reach chip,
      outside⟩
    · exact orderFinished_of_finishOrder taken (reach.orders (by decide)) (reach.part (by decide)) chip
    · rw [calendar]
      exact clock
    · exact calendar.trans (Calendar.forward_before before)
    · obtain ⟨n, forward, low, high⟩ := Calendar.forward_after pos boundary
      rw [calendar, forward]
      exact ⟨n, rfl, low, high⟩
    · rw [chip, (Chip.settle_engine _).1]
      rfl
    · rw [chip, Chip.settle_pass, finished.pass (by decide), evaluated.pass (by decide)]
      rfl
    · refine blackoutsEvaluated_of (c := s.chip.clockSet o.word12 o.word8) rfl rfl rfl rfl after ?_
      rw [chip, Chip.settle_sweep]
      exact reach.sweep (by decide)
    · rw [chip, Chip.settle_journal, finished.journal (by decide), evaluated.journal (by decide)]
      rfl
  case step =>
    have check : s.chip.checkSetClock o = none :=
      (Chip.checkSetClock_step range counting now).trans ((if_neg (by omega)).trans (if_neg (by omega)))
    obtain ⟨t, run, chip, outside⟩ := setClock_accepted taken kind check
    rw [Chip.applySetClock_step counting now] at chip
    have reach := s.chip.stepClock_reaches (o.word12 - m) o.word8
    have finish := Chip.finishOrder_reaches (s.chip.stepClock (o.word12 - m) o.word8) .done
    have clock : t.chip.clock = (s.chip.stepClock (o.word12 - m) o.word8).clock := by
      rw [chip, Chip.settle_clock]
      rfl
    have lineUp : t.chip.lineUp = (s.chip.stepClock (o.word12 - m) o.word8).lineUp := by
      rw [chip, Chip.settle_lineUp]
      rfl
    have sweep : t.chip.sweep = s.chip.sweep := by
      rw [chip, Chip.settle_sweep]
      exact reach.sweep (by decide)
    obtain ⟨state, reached, seconds⟩ :=
      (s.chip.setClock { s.chip.clock with seconds := o.word8 }).minuteEvents_face (o.word12 - m)
    have arrive : s.chip.clock.minute.map (· + (o.word12 - m)) = some o.word12 := by
      rw [now, Option.map_some]
      congr 1
      omega
    refine ⟨t, run, ?_, ?_, ?_, ?_, fun same => ?_, fun forward => ⟨?_, ?_, sweep⟩, setClock_supervision reach chip,
      outside⟩
    · exact orderFinished_of_finishOrder taken (reach.orders (by decide)) (reach.part (by decide)) chip
    · rw [clock]
      exact reached.trans arrive
    · rw [clock]
      exact seconds
    · rw [clock]
      exact state
    · have still : s.chip.stepClock (o.word12 - m) o.word8 =
          s.chip.setClock { s.chip.clock with seconds := o.word8 } := by
        rw [same, Nat.sub_self]
        rfl
      rw [SameLineUp, clock, lineUp, still]
      refine ⟨rfl, ?_, rfl, sweep⟩
      rw [chip, Chip.settle_pass, still]
      rfl
    · have evaluated := (s.chip.setClock { s.chip.clock with seconds := o.word8 }).minuteEvents_blackoutsAt
        (k := o.word12 - m) (by omega)
      have at_ : (s.chip.setClock { s.chip.clock with seconds := o.word8 }).now.map (· + (o.word12 - m)) =
          some o.word12 := arrive
      rw [at_] at evaluated
      exact evaluated.congr lineUp
    · have only := (s.chip.setClock { s.chip.clock with seconds := o.word8 }).minuteEvents_activityOnly (o.word12 - m)
      rw [lineUp]
      exact only

end Sys2Proof.Machine

namespace Sys2Proof.Machine

/-! ### A valid GROUP REPLY (R95, R96, R189) -/

theorem byteSum_append (l m : List Byte) : byteSum (l ++ m) = byteSum l + byteSum m := by
  induction l with
  | nil => exact (BitVec.zero_add _).symm
  | cons b l ih => rw [List.cons_append, byteSum, ih, byteSum, BitVec.add_assoc]

/-- The check byte brings the sum of a frame's body to zero (R189). -/
theorem byteSum_check (l : List Byte) : byteSum (l ++ [0 - byteSum l]) = 0 := by
  rw [byteSum_append]
  simp [byteSum]

/-- The received form of a GROUP REPLY frame of the router: a sum of zero behind the lead byte. -/
theorem frameAfterLead_groupReply (g a b c d : Byte) :
    ∃ body, frameOf 1 0x84 [g, a, b, c, d] = leadByte :: body ∧ frameAfterLead body =
      some { addr := 1, kind := 0x84, length := 5, payload := [g, a, b, c, d], sum := 0 } := by
  have sum := byteSum_check [1, 0, 0x84, 5, g, a, b, c, d]
  generalize hk : 0 - byteSum [1, 0, 0x84, 5, g, a, b, c, d] = check at sum
  refine ⟨[1, 0, 0x84, 5, g, a, b, c, d] ++ [check], by rw [← hk]; rfl, ?_⟩
  have whole : frameAfterLead ([1, 0, 0x84, 5, g, a, b, c, d] ++ [check]) =
      some { addr := 1, kind := 0x84, length := 5, payload := [g, a, b, c, d]
             sum := byteSum ([1, 0, 0x84, 5, g, a, b, c, d] ++ [check]) } := by rfl
  rw [whole, sum]

theorem RackExchange.accepts_query {x : RackExchange} {g : Nat} (hj : x.job = .query g) (h : g < 8) (l : List Byte) :
    x.accepts { addr := 1, kind := 0x84, length := 5, payload := BitVec.ofNat 8 g :: l, sum := 0 } = true := by
  have back : (BitVec.ofNat 8 g).toNat = g := by rw [BitVec.toNat_ofNat]; omega
  simp [RackExchange.accepts, hj, Frame.fits, payloadByte, back, routerAddress, groupReply]

/-- The scan finds the GROUP REPLY at once and discards nothing. -/
theorem scanFrames_groupReply {x : RackExchange} {g : Nat} (hj : x.job = .query g) (h : g < 8) (a b c d : Byte) :
    scanFrames x.accepts 0 (frameOf 1 0x84 [BitVec.ofNat 8 g, a, b, c, d]) =
      (0, some { addr := 1, kind := 0x84, length := 5, payload := [BitVec.ofNat 8 g, a, b, c, d], sum := 0 }) := by
  obtain ⟨body, framed, parsed⟩ := frameAfterLead_groupReply (BitVec.ofNat 8 g) a b c d
  rw [framed, scanFrames, if_pos rfl, parsed]
  exact if_pos (RackExchange.accepts_query hj h _)

/-- The rack link with an answered exchange counted (R94). -/
def Chip.rackAnswered (c : Chip) : Chip := c.setRack { c.rack with exchanges := c.rack.exchanges + 1 }

/-- The rack link without an exchange: what the end of one leaves before the next selection. -/
def Chip.rackReleased (c : Chip) : Chip := c.setRack { c.rack with hold := none }

/-- A valid reply found at once ends the exchange. -/
theorem Chip.rackReceives_found {c : Chip} {x : RackExchange} {bs : List Byte} {f : Frame}
    (hold : c.rack.hold = some x) (found : scanFrames x.accepts 0 bs = (0, some f)) :
    c.rackReceives bs = c.endRack (some f.payload) := by
  have counted : c.setRack { c.rack with rejected := c.rack.rejected + BitVec.ofNat 32 0 } = c := by
    rw [show c.rack.rejected + BitVec.ofNat 32 0 = c.rack.rejected from BitVec.add_zero _]
    rfl
  unfold Chip.rackReceives
  split
  · next none => rw [hold] at none; cases none
  · next y held =>
    obtain rfl : x = y := Option.some.inj (hold.symm.trans held)
    rw [found]
    exact congrArg (fun d : Chip => d.endRack (some f.payload)) counted

/-- The end of an answered GROUP QUERY (R96). -/
theorem Chip.endRack_query {c : Chip} {x : RackExchange} {g : Nat} (hold : c.rack.hold = some x)
    (hj : x.job = .query g) (l : List Byte) :
    c.endRack (some l) = (c.rackAnswered.sampleGroup g (some l)).rackReleased.armRack := by
  unfold Chip.endRack
  split
  · next none => rw [hold] at none; cases none
  · next y held =>
    obtain rfl : x = y := Option.some.inj (hold.symm.trans held)
    rw [hj]
    rfl

/-- A GROUP REPLY to the query under way ends the exchange with its four levels (R96). -/
theorem Chip.rackReceives_groupReply {c : Chip} {x : RackExchange} {g : Nat} (hold : c.rack.hold = some x)
    (hj : x.job = .query g) (h : g < 8) (l : Fin 4 → Byte) :
    c.rackReceives (frameOf 1 0x84 [BitVec.ofNat 8 g, l 0, l 1, l 2, l 3]) =
      (c.rackAnswered.sampleGroup g (some [BitVec.ofNat 8 g, l 0, l 1, l 2, l 3])).rackReleased.armRack :=
  (Chip.rackReceives_found hold (scanFrames_groupReply hj h _ _ _ _)).trans (Chip.endRack_query hold hj _)

theorem exec_rackReplyReceived_eq {s : State} (h : s.chip.rackListening = true) (bytes : List Byte) :
    exec (.rackReplyReceived bytes) s = .next (s.act fun c => c.rackReceives bytes) :=
  congrArg Host.Outcome.next (State.actIf_ready (ready := Chip.rackListening) h _)

theorem Chip.sampleGroup_units (c : Chip) (g : Nat) (r : Option (List Byte)) : SameUnits c (c.sampleGroup g r) := by
  unfold Chip.sampleGroup
  refine .loop (fun d k => ?_) 4 c
  cases r <;> exact d.sampleSource_units _ _ _
theorem Chip.endRack_units (c : Chip) (r : Option (List Byte)) : SameUnits c (c.endRack r) := by
  have set := fun (d : Chip) (k : Rack) => SameUnits.of_reaches (d.setRack_reaches k) (by decide)
  have armed := fun d : Chip => SameUnits.of_reaches (bs := [.rack]) d.armRack_reaches (by decide)
  have settled := fun (d : Chip) q k v => SameUnits.of_reaches (d.settlePoint_reaches q k v) (by decide)
  have lost := fun (d : Chip) q => SameUnits.of_reaches (d.loseSet_reaches q) (by decide)
  unfold Chip.endRack
  cases c.rack.hold with
  | none => exact .refl c
  | some x =>
    refine SameUnits.trans (SameUnits.trans (SameUnits.trans (set c { c.rack with
      exchanges := c.rack.exchanges + 1
      unanswered := if r.isSome then c.rack.unanswered else c.rack.unanswered + 1 }) ?_) (set _ _)) (armed _)
    cases x.job with
    | set q k =>
      cases r with
      | some l => exact settled _ q k _
      | none => exact lost _ q
    | query g => exact Chip.sampleGroup_units _ g r
theorem Chip.rackReceives_units (c : Chip) (l : List Byte) : SameUnits c (c.rackReceives l) := by
  have counted := fun x => SameUnits.of_reaches (c.setRack_reaches x) (by decide)
  unfold Chip.rackReceives
  split
  · exact .refl c
  · dsimp only
    split
    · exact (counted _).trans (Chip.endRack_units _ _)
    · exact counted _

/-! ### The level counting of a source (R104) -/

/-- The last low sample of a run trips the record and clears both counts. -/
theorem LevelRun.sample_trips {r : LevelRun} {arm trigger nTrip nClear v : Nat} {now : Option Nat}
    (hl : trigger < arm) (hc : 1 ≤ nClear) (hs : r.state ≠ .tripped) (hv : v ≤ trigger) (hn : r.low + 1 = nTrip) :
    (r.sample arm trigger nTrip nClear v now).state = .tripped ∧ (r.sample arm trigger nTrip nClear v now).low = 0
      ∧ (r.sample arm trigger nTrip nClear v now).high = 0 := by
  have below : ¬ arm ≤ v := by omega
  have unfilled : 0 ≠ nClear := by omega
  simp [LevelRun.sample, LevelRun.count, LevelRun.change, hv, below, hn, hs, unfilled]

/-- The last high sample of a run clears a TRIPPED record and both counts. -/
theorem LevelRun.sample_clears {r : LevelRun} {arm trigger nTrip nClear v : Nat} {now : Option Nat}
    (hl : trigger < arm) (hs : r.state = .tripped) (hv : arm ≤ v) (hn : r.high + 1 = nClear) :
    (r.sample arm trigger nTrip nClear v now).state = .armed ∧ (r.sample arm trigger nTrip nClear v now).low = 0
      ∧ (r.sample arm trigger nTrip nClear v now).high = 0 := by
  have above : ¬ v ≤ trigger := by omega
  simp [LevelRun.sample, LevelRun.count, LevelRun.change, hv, above, hn, hs]

/-- A source record after a change of state by a heard level: its counts cleared, no low-run start, the level kept. -/
structure Source.Turned (y : Source) (st : Hysteresis) (v : Byte) : Prop where
  state : y.state = st
  low : y.low = 0
  high : y.high = 0
  lowStart : y.lowStart = none
  lastLevel : y.lastLevel = some v

theorem Source.sample_trips {r : Source} {g : SourceSetting} {v : Byte} {u : Bool} {now : Option Nat}
    (hg : g.supervised = true) (hl : g.trigger < g.arm) (hc : 1 ≤ g.nClear) (hs : r.state ≠ .tripped)
    (hv : v.toNat ≤ g.trigger) (hn : r.low + 1 = g.nTrip) : (r.sample g v u now).Turned .tripped v := by
  obtain ⟨state, low, high⟩ := LevelRun.sample_trips (r := r.run) (now := now) hl hc hs hv hn
  constructor <;> simp [Source.sample, hg, state, low, high, hs.symm]

theorem Source.sample_clears {r : Source} {g : SourceSetting} {v : Byte} {u : Bool} {now : Option Nat}
    (hg : g.supervised = true) (hl : g.trigger < g.arm) (hs : r.state = .tripped)
    (hv : g.arm ≤ v.toNat) (hn : r.high + 1 = g.nClear) : (r.sample g v u now).Turned .armed v := by
  obtain ⟨state, low, high⟩ := LevelRun.sample_clears (r := r.run) (now := now) (nTrip := g.nTrip) hl hs hv hn
  constructor <;> simp [Source.sample, hg, state, low, high, hs]

/-- An unsupervised source keeps its hysteresis (R104). -/
theorem Source.sample_unsupervised {r : Source} {g : SourceSetting} (hg : g.supervised = false) (v : Byte) (u : Bool)
    (now : Option Nat) : (r.sample g v u now).state = r.state := by
  simp [Source.sample, hg]

end Sys2Proof.Machine

namespace Sys2Proof.Machine

/-! ### What decides how a source outage opens and closes (R84, R86) -/

/-- Two parts with the same Outage Table, journal, minute and line-up in force: a source outage opens and closes in them
alike. -/
structure SameBooks (c d : Chip) : Prop where
  outages : d.outages = c.outages
  journal : d.journal = c.journal
  clock : d.clock = c.clock
  current : d.lineUp.current = c.lineUp.current

theorem SameBooks.symm {c d : Chip} (h : SameBooks c d) : SameBooks d c :=
  ⟨h.outages.symm, h.journal.symm, h.clock.symm, h.current.symm⟩
theorem SameBooks.trans {c d e : Chip} (h : SameBooks c d) (h' : SameBooks d e) : SameBooks c e :=
  ⟨h'.outages.trans h.outages, h'.journal.trans h.journal, h'.clock.trans h.clock, h'.current.trans h.current⟩
theorem SameBooks.of_reaches {bs : List Block} {c d : Chip} (h : Reaches bs c d)
    (hb : Block.outages ∉ bs ∧ Block.journal ∉ bs ∧ Block.clock ∉ bs ∧ Block.lineUp ∉ bs) : SameBooks c d := by
  obtain ⟨outages, journal, clock, lineUp⟩ := hb
  exact ⟨h.outages outages, h.journal journal, h.clock clock, by rw [h.lineUp lineUp]⟩

/-- The same operation on the Outage Table, then the same notice. -/
theorem SameBooks.setOutages {c d : Chip} (h : SameBooks c d) (x : OutageTable) :
    SameBooks (c.setOutages x) (d.setOutages x) := ⟨rfl, h.journal, h.clock, h.current⟩
theorem Chip.noticeRoom_congr {c d : Chip} (h : d.journal = c.journal) : d.noticeRoom = c.noticeRoom := by
  rw [Chip.noticeRoom, Chip.noticeRoom, h]
theorem Chip.noticeOf_journal_congr {c d : Chip} (hj : d.journal = c.journal) (hc : d.clock = c.clock) (i : Nat)
    (b : EntryBody) : (d.noticeOf i b).journal = (c.noticeOf i b).journal := by
  simp only [Chip.noticeOf, Chip.notice, Chip.noticeRoom_congr hj, Chip.now, hc, Chip.join]
  split <;> simp only [Chip.setJournal_journal, hj]
theorem SameBooks.noticeOf {c d : Chip} (h : SameBooks c d) (i : Nat) (b : EntryBody) :
    SameBooks (c.noticeOf i b) (d.noticeOf i b) := by
  have left := c.noticeOf_reaches i b
  have right := d.noticeOf_reaches i b
  refine ⟨?_, Chip.noticeOf_journal_congr h.journal h.clock i b, ?_, ?_⟩
  · rw [right.outages (by decide), left.outages (by decide), h.outages]
  · rw [right.clock (by decide), left.clock (by decide), h.clock]
  · rw [right.lineUp (by decide), left.lineUp (by decide), h.current]

theorem SameBooks.ite {c d c' d' : Chip} {p : Prop} [Decidable p] (h : SameBooks c d) (h' : SameBooks c' d') :
    SameBooks (if p then c else c') (if p then d else d') := by split <;> assumption

theorem SameBooks.setMark {c d : Chip} (h : SameBooks c d) (k : Nat) (m : Option Mark) :
    SameBooks (c.setMark .source k m) (d.setMark .source k m) := by
  simp only [Chip.setMark, h.outages]
  exact h.setOutages _
theorem SameBooks.affected {c d : Chip} (h : SameBooks c d) (k : Nat) : d.affected .source k = c.affected .source k := by
  simp only [Chip.affected, Chip.channel, h.current]
theorem SameBooks.recordOf {c d : Chip} (h : SameBooks c d) (k : Nat) (p : OutageState → Bool) :
    d.recordOf .source k p = c.recordOf .source k p := by simp only [Chip.recordOf, h.outages]

theorem SameBooks.appendRecord {c d : Chip} (h : SameBooks c d) (l : List Outage) (k : Nat) (m : Option Nat) :
    SameBooks (c.appendRecord l { kind := .source, object := k, start := m })
      (d.appendRecord l { kind := .source, object := k, start := m }) := by
  simp only [Chip.appendRecord, h.outages, h.affected]
  exact (h.setOutages _).noticeOf _ _
theorem SameBooks.openNow {c d : Chip} (h : SameBooks c d) (k : Nat) (m : Option Nat) :
    SameBooks (c.openNow { kind := .source, object := k, start := m })
      (d.openNow { kind := .source, object := k, start := m }) := by
  have cleared := fun l => (h.setMark k none).appendRecord l k m
  have marked := (h.setMark k (some { start := m })).noticeOf k (.outageUnrecorded .source m)
  simp only [Chip.openNow, Chip.markOf, h.outages]
  exact .ite (cleared _) (.ite (cleared _) (.ite h marked))
theorem SameBooks.openRequest {c d : Chip} (h : SameBooks c d) (k : Nat) (m : Option Nat) :
    SameBooks (c.openRequest { kind := .source, object := k, start := m })
      (d.openRequest { kind := .source, object := k, start := m }) := by
  simp only [Chip.openRequest, h.recordOf, h.outages]
  exact .ite (h.setOutages _) (h.openNow k m)

/-- While the queue has room for a notice a source outage closes by its record and its notice alone. -/
theorem SameBooks.closeOf {c d : Chip} (h : SameBooks c d) (room : c.noticeRoom = true) (k : Nat)
    (p : OutageState → Bool) (w : CloseCause) : SameBooks (c.closeOf .source k p w) (d.closeOf .source k p w) := by
  have room' : d.noticeRoom = true := (Chip.noticeRoom_congr h.journal).trans room
  have now : d.now = c.now := by rw [Chip.now, Chip.now, h.clock]
  simp only [Chip.closeOf, h.recordOf]
  cases c.recordOf .source k p with
  | none => exact h
  | some r =>
    simp only [Chip.closeRecord, room, room', if_true, Chip.updRecord, h.outages, now]
    exact (h.setOutages _).noticeOf _ _

/-! ### The positions of one source (R13) -/

/-- A loop whose step is a relation of the reflexive kind but for one index goes, up to it, through that index's step
alone. -/
theorem forIndices_around {α : Type} {P : α → Prop} {R : α → α → Prop} {f : α → Nat → α} {j n : Nat} {x : α}
    (refl : ∀ y, R y y) (trans : ∀ {a b c}, R a b → R b c → R a c) (hj : j < n)
    (other : ∀ y i, i < n → i ≠ j → P y → R y (f y i)) (keeps : ∀ y i, i < n → P y → P (f y i)) (hx : P x) :
    ∃ y, P y ∧ R x y ∧ R (f y j) (forIndices n f x) := by
  induction n with
  | zero => exact absurd hj (Nat.not_lt_zero j)
  | succ n ih =>
    rw [forIndices_succ]
    have reached : P (forIndices n f x) := forIndices_keeps n hx fun y i hi => keeps y i (by omega)
    by_cases here : j = n
    · subst here
      have before : P (forIndices j f x) ∧ R x (forIndices j f x) :=
        forIndices_keeps (P := fun y => P y ∧ R x y) j ⟨hx, refl x⟩ fun y i hi ⟨hp, hr⟩ =>
          ⟨keeps y i (by omega) hp, trans hr (other y i (by omega) (by omega) hp)⟩
      exact ⟨_, reached, before.2, refl _⟩
    · obtain ⟨y, hp, before, after⟩ := ih (by omega) (fun y i hi => other y i (by omega)) fun y i hi => keeps y i (by omega)
      exact ⟨y, hp, before, trans after (other _ n (by omega) (by omega) reached)⟩

/-- A source that one position alone names moves that position alone (R13). -/
theorem Chip.recomputeUsing_single {c : Chip} {k q : Nat} (hq : q < 64)
    (mine : (c.channel q).used = true ∧ (c.channel q).primary = k)
    (others : ∀ i, i < 64 → i ≠ q → (c.channel i).used = true →
      (c.channel i).primary ≠ k ∧ (c.channel i).backup ≠ some k) :
    c.recomputeUsing k = c.recomputeEffective .source q := by
  obtain ⟨y, same, start, finish⟩ := forIndices_around (n := 64) (j := q) (x := c)
    (P := fun d : Chip => d.channel = c.channel) (R := Eq)
    (f := fun c q => if (c.channel q).used && ((c.channel q).primary == k || (c.channel q).backup == some k)
      then c.recomputeEffective .source q else c)
    (fun _ => rfl) Eq.trans hq
    (fun d i hi ne same => by
      refine (if_neg fun named => ?_).symm
      simp only [same, Bool.and_eq_true, Bool.or_eq_true, beq_iff_eq] at named
      obtain ⟨used, primary | backup⟩ := named
      · exact (others i hi ne used).1 primary
      · exact (others i hi ne used).2 backup)
    (fun d i _ same => ((EffectiveOnly.ite (d.recomputeEffective_only .source i) (.refl d)).channel).trans same) rfl
  subst start
  refine finish.symm.trans (if_pos ?_)
  simp [mine]

/-! ### The moves of a position (R12, R14, R100) -/

/-- The position moves on: its effective source changed, the SUBSTITUTION notice offered, the position offered. -/
theorem Chip.recomputeEffective_moves {c : Chip} {q : Nat} {old new : Option Nat} {m n : Bool}
    (was : c.effective q = { source := old, onBackup := m }) (now : c.effectiveOf q = { source := new, onBackup := n })
    (moved : old ≠ new) (backup : (m || n) = true) (some : new.isSome = true) (k : SubstCause) :
    c.recomputeEffective k q =
      ((c.setEffective q { source := new, onBackup := n }).noticeOf q
        (.substitution k old new (c.channel q).primary)).offerPoint q true := by
  have channel : ∀ e, (c.setEffective q e).channel q = c.channel q := fun _ => rfl
  simp only [Chip.recomputeEffective, was, now, moved, if_false, some, if_true, Chip.substitution, backup, channel]

end Sys2Proof.Machine

namespace Sys2Proof.Machine

/-! ### The four samples of a group (R96, R104) -/

/-- Other sources than k have been heard, none changing its state. -/
structure Heard (k : Nat) (c d : Chip) : Prop where
  reaches : Reaches [.sources] c d
  source : d.source k = c.source k
  state : ∀ s, (d.source s).state = (c.source s).state

theorem Heard.refl (k : Nat) (c : Chip) : Heard k c c := ⟨.same _ c, rfl, fun _ => rfl⟩
theorem Heard.trans {k : Nat} {c d e : Chip} (h : Heard k c d) (h' : Heard k d e) : Heard k c e :=
  ⟨fun x hx => (h.reaches x hx).trans (h'.reaches x hx), h'.source.trans h.source,
    fun s => (h'.state s).trans (h.state s)⟩
theorem Heard.sourceOut {k : Nat} {c d : Chip} (h : Heard k c d) (s : Nat) : d.sourceOut s = c.sourceOut s := by
  rw [Chip.sourceOut, Chip.sourceOut, h.state]

/-- A sample that changes no state is the sample alone. -/
theorem Chip.sampleSource_still {c : Chip} {s : Nat} {v : Byte} {u : Bool}
    (h : ((c.source s).sample (vget c.lineUp.current.sources s) v u c.now).state = (c.source s).state) :
    c.sampleSource s v u =
      c.updSource s fun _ => (c.source s).sample (vget c.lineUp.current.sources s) v u c.now := by
  simp only [Chip.sampleSource, h, ne_eq]
  rw [if_neg (fun x => x.1 x.2), if_neg (fun x => x.2 x.1)]
theorem Chip.sampleSource_opens {c : Chip} {s : Nat} {v : Byte} {u : Bool} (was : (c.source s).state ≠ .tripped)
    (h : ((c.source s).sample (vget c.lineUp.current.sources s) v u c.now).state = .tripped) :
    c.sampleSource s v u =
      (c.updSource s fun _ => (c.source s).sample (vget c.lineUp.current.sources s) v u c.now).sourceOpens s
        ((c.source s).runStart c.now) := if_pos ⟨was, h⟩
theorem Chip.sampleSource_closes {c : Chip} {s : Nat} {v : Byte} {u : Bool} (was : (c.source s).state = .tripped)
    (h : ((c.source s).sample (vget c.lineUp.current.sources s) v u c.now).state ≠ .tripped) :
    c.sampleSource s v u =
      (c.updSource s fun _ => (c.source s).sample (vget c.lineUp.current.sources s) v u c.now).sourceCloses s :=
  (if_neg fun x => x.1 was).trans (if_pos ⟨was, h⟩)

/-- An unsupervised source is only heard (R104). -/
theorem Chip.sampleSource_unsupervised {c : Chip} {s k : Nat} (hg : (vget c.lineUp.current.sources s).supervised = false)
    (hk : s ≠ k) (v : Byte) (u : Bool) : Heard k c (c.sampleSource s v u) := by
  have still := Source.sample_unsupervised (r := c.source s) hg v u c.now
  rw [Chip.sampleSource_still still]
  by_cases hs : s < 32
  · refine ⟨c.updSource_reaches s _, vget_vupd_other _ _ _ _ hk.symm, fun x => ?_⟩
    by_cases here : x = s
    · subst here
      exact (congrArg Source.state (vget_vupd_same c.sources x _ hs)).trans still
    · exact congrArg Source.state (vget_vupd_other c.sources s x _ here)
  · have same : c.updSource s (fun _ => (c.source s).sample (vget c.lineUp.current.sources s) v u c.now) = c := by
      rw [Chip.updSource, vupd_outside _ _ (Nat.le_of_not_lt hs)]
      rfl
    rw [same]
    exact .refl k c

/-- In a group whose other sources are unsupervised the samples are that of one source, and others only heard. -/
theorem Chip.sampleGroup_around {c : Chip} {g j : Nat} (hj : j < 4) (l : List Byte)
    (others : ∀ i, i < 4 → i ≠ j → (vget c.lineUp.current.sources (4 * g + i)).supervised = false) :
    ∃ y, Heard (4 * g + j) c y
      ∧ Heard (4 * g + j) (y.sampleSource (4 * g + j) (payloadByte l (j + 1)) false) (c.sampleGroup g (some l)) := by
  obtain ⟨y, -, before, after⟩ := forIndices_around (x := c) (P := fun d : Chip => d.lineUp.current = c.lineUp.current)
    (R := Heard (4 * g + j)) (f := fun c k => c.sampleSource (4 * g + k) (payloadByte l (k + 1)) false)
    (Heard.refl _) Heard.trans hj
    (fun d i hi ne same => d.sampleSource_unsupervised (by rw [same]; exact others i hi ne) (by omega) _ _)
    (fun d i _ same => (d.sampleSource_only _ _ _).current.trans same) rfl
  exact ⟨y, before, after⟩

/-! ### The end of the exchange -/

/-- Behind the samples of a group only the links, the orders and the engine select. -/
theorem Chip.groupEnd_reaches (c : Chip) :
    Reaches [.rack] c c.rackReleased.armRack := (c.setRack_reaches _).then (by rfl) (Chip.armRack_reaches _)

/-- The rack link without an exchange selects the head of its pending list when no query is owed (R101). -/
theorem Chip.armRack_set {c : Chip} {q : Nat} {rest : List Nat} (runs : c.running = true) (free : c.rack.hold = none)
    (pending : c.rack.pendingList = q :: rest) (owed : c.rack.owed = false) :
    ∃ y, c.armRack.rack.hold = some y ∧ y.job = .set q ((c.effective q).source.getD 0) ∧ y.attempt = 1 := by
  have select : c.armRack = c.selectRack := by simp [Chip.armRack, runs, free]
  rw [select]
  unfold Chip.selectRack
  split
  · next p l head =>
    obtain ⟨rfl, rfl⟩ := List.cons.inj (pending.symm.trans head)
    rw [owed]
    exact ⟨_, rfl, rfl, rfl⟩
  · next empty => rw [pending] at empty; cases empty

/-- What joins the queue with a notice, or the count of those dropped. -/
theorem noticeOffered_noticeOf {c d e : Chip} {i : Nat} {b : EntryBody} (hj : e.journal = c.journal)
    (hc : e.clock = c.clock) (hd : d.journal = (e.noticeOf i b).journal) : NoticeOffered c d i b := by
  rw [Chip.noticeOf_journal_congr hj hc] at hd
  rw [NoticeOffered, hd]
  refine ⟨fun room => ?_, fun full => ?_⟩
  · have room : c.noticeRoom = true := decide_eq_true room
    simp only [Chip.noticeOf, Chip.notice, room, if_true, Chip.join, Chip.setJournal_journal, Chip.now]
  · have full : c.noticeRoom = false := decide_eq_false (Nat.not_lt.mpr full)
    simp [Chip.noticeOf, Chip.notice, full]

end Sys2Proof.Machine

namespace Sys2Proof.Machine

/-! ### A source that trips or clears moves its position (R12 to R14, R105, R106) -/

/-- Every effective source but that of position q is as before, and of the Line-Up Engine nothing else. -/
structure OnlyMoved (q : Nat) (c d : Chip) : Prop where
  others : ∀ i, i < 64 → i ≠ q → d.effective i = c.effective i
  lineUp : d.lineUp = { c.lineUp with effective := d.lineUp.effective }

/-- The end of a group's exchange behind a source that moved position q: of what the move left the links alone
select. -/
theorem Chip.groupEnd_moved {c e x t : Chip} {k q a b : Nat} {m n : Bool}
    (heard : Heard k (e.recomputeUsing k) x) (ht : t = x.rackReleased.armRack.settle) (lineUp : e.lineUp = c.lineUp)
    (hq : q < 64) (mine : (c.channel q).used = true ∧ (c.channel q).primary = k)
    (others : ∀ i, i < 64 → i ≠ q → (c.channel i).used = true →
      (c.channel i).primary ≠ k ∧ (c.channel i).backup ≠ some k)
    (was : c.effective q = { source := some a, onBackup := m })
    (now : e.effectiveOf q = { source := some b, onBackup := n }) (moved : a ≠ b) (backup : (m || n) = true) :
    t.source k = e.source k ∧ OnlyMoved q c t ∧ t.effective q = { source := some b, onBackup := n }
      ∧ t.outages = e.outages
      ∧ (∀ d, e.journal = d.journal → e.clock = d.clock →
          NoticeOffered d t q (.substitution .source (some a) (some b) k)) := by
  have channel : e.channel = c.channel := by funext i; rw [Chip.channel, Chip.channel, lineUp]
  have effective : e.effective = c.effective := by funext i; rw [Chip.effective, Chip.effective, lineUp]
  have single : e.recomputeUsing k = e.recomputeEffective .source q :=
    Chip.recomputeUsing_single hq (by rwa [channel]) (by rwa [channel])
  have moves := Chip.recomputeEffective_moves (was := (congrFun effective q).trans was) now
    (fun same => moved (Option.some.inj same)) backup rfl .source
  rw [channel, mine.2] at moves
  rw [single] at heard
  have ended := x.groupEnd_reaches
  have reach := heard.reaches
  have recomputed := e.recomputeEffective_reaches .source q
  have lineUps : t.lineUp = (e.recomputeEffective .source q).lineUp := by
    rw [ht, Chip.settle_lineUp, ended.lineUp (by decide), reach.lineUp (by decide)]
  have effectives : t.effective = (e.recomputeEffective .source q).effective := by
    funext i; rw [Chip.effective, Chip.effective, lineUps]
  refine ⟨?_, ⟨fun i _ ne => ?_, ?_⟩, ?_, ?_, fun d hj hc => ?_⟩
  · have sources : t.sources = x.sources := by rw [ht, Chip.settle_sources, ended.sources (by decide)]
    rw [Chip.source, sources, ← Chip.source, heard.source, Chip.source, recomputed.sources (by decide), ← Chip.source]
  · rw [effectives, Chip.recomputeEffective_other _ _ ne, effective]
  · rw [lineUps, e.recomputeEffective_only .source q, lineUp]
  · rw [effectives, Chip.recomputeEffective_same _ _ hq, now]
  · rw [ht, Chip.settle_outages, ended.outages (by decide), reach.outages (by decide),
      recomputed.outages (by decide)]
  · refine noticeOffered_noticeOf (e := e.setEffective q { source := some b, onBackup := n }) hj hc ?_
    rw [ht, Chip.settle_journal, ended.journal (by decide), reach.journal (by decide), moves,
      (Chip.offerPoint_reaches _ _ _).journal (by decide)]

/-- An IDLE position that moves away from its confirmed crosspoint joins the pending list (R100). -/
theorem Chip.offerPoint_joins {c : Chip} {q a b : Nat} {v : Bool} (idle : (c.point q).condition = .idle)
    (used : (c.channel q).used = true) (confirmed : (c.point q).confirmed = .source a)
    (effective : (c.effective q).source = some b) (ne : a ≠ b) :
    (c.offerPoint q v).rack.pendingList = appendNew c.rack.pendingList q
      ∧ (c.offerPoint q v).rack.owed = c.rack.owed := by
  have needs : c.needsSet q = true := by simp [Chip.needsSet, used, confirmed, effective, ne]
  have offer : c.offerPoint q v = c.markPoint q := by
    simp only [Chip.offerPoint, idle, Chip.testPoint, needs, if_true]
  rw [offer]
  exact ⟨rfl, rfl⟩

/-- Its CROSSPOINT SET is then the next exchange of an empty list (R101). -/
theorem Chip.groupEnd_sets {c e x t : Chip} {k q a b : Nat} {m n : Bool}
    (heard : Heard k (e.recomputeUsing k) x) (ht : t = x.rackReleased.armRack.settle) (lineUp : e.lineUp = c.lineUp)
    (hq : q < 64) (mine : (c.channel q).used = true ∧ (c.channel q).primary = k)
    (others : ∀ i, i < 64 → i ≠ q → (c.channel i).used = true →
      (c.channel i).primary ≠ k ∧ (c.channel i).backup ≠ some k)
    (was : c.effective q = { source := some a, onBackup := m })
    (now : e.effectiveOf q = { source := some b, onBackup := n }) (moved : a ≠ b) (backup : (m || n) = true)
    (runs : e.running = true) (rack : e.rack = c.rackAnswered.rack) (empty : c.rack.pendingList = [])
    (owed : c.rack.owed = false) (idle : (c.point q).condition = .idle)
    (confirmed : (c.point q).confirmed = .source a) :
    ∃ y, t.rack.hold = some y ∧ y.job = .set q b ∧ y.attempt = 1 := by
  have channel : e.channel = c.channel := by funext i; rw [Chip.channel, Chip.channel, lineUp]
  have effective : e.effective = c.effective := by funext i; rw [Chip.effective, Chip.effective, lineUp]
  have single : e.recomputeUsing k = e.recomputeEffective .source q :=
    Chip.recomputeUsing_single hq (by rwa [channel]) (by rwa [channel])
  have moves := Chip.recomputeEffective_moves (was := (congrFun effective q).trans was) now
    (fun same => moved (Option.some.inj same)) backup rfl .source
  have recomputed := Chip.recomputeEffective_same e .source hq
  rw [now] at recomputed
  rw [single] at heard
  rw [moves] at heard recomputed
  generalize hf : (e.setEffective q { source := some b, onBackup := n }).noticeOf q
    (.substitution .source (some a) (some b) (e.channel q).primary) = f at heard recomputed
  have reach : Reaches [.lineUp, .journal] e f := by
    rw [← hf]
    exact (e.setEffective_reaches q _).then (by rfl) (Chip.noticeOf_reaches _ _ _)
  have offered := f.offerPoint_reaches q true
  have racks : f.rack = c.rackAnswered.rack := (reach.rack (by decide)).trans rack
  have point : f.point q = c.point q := by rw [Chip.point, racks]; rfl
  have channels : f.channel q = c.channel q := by
    rw [← hf, Chip.channel, (Chip.noticeOf_reaches _ _ _).lineUp (by decide)]
    exact congrFun channel q
  have effectives : f.effective q = { source := some b, onBackup := n } := by
    rwa [Chip.effective, offered.lineUp (by decide), ← Chip.effective] at recomputed
  obtain ⟨joins, unowed⟩ := Chip.offerPoint_joins (c := f) (v := true) (by rw [point, idle]) (by rw [channels, mine.1])
    (by rw [point, confirmed]) (by rw [effectives]) moved
  have selected := Chip.armRack_set (c := x.rackReleased) (q := q) (rest := []) ?runs rfl ?pending ?owed
  case runs =>
    have part : x.rackReleased.part = e.part := (heard.reaches.part (by decide)).trans
      ((offered.part (by decide)).trans (reach.part (by decide)))
    rw [Chip.running_congr part, runs]
  case pending =>
    have list : f.rack.pendingList = [] := by rw [racks]; exact empty
    have listed : x.rack.pendingList = [q] := by
      rw [heard.reaches.rack (by decide), joins, list]; rfl
    exact listed
  case owed =>
    have free : f.rack.owed = false := by rw [racks]; exact owed
    have freed : x.rack.owed = false := by rw [heard.reaches.rack (by decide), unowed, free]
    exact freed
  obtain ⟨y, hold, job, attempt⟩ := selected
  refine ⟨y, ?_, ?_, attempt⟩
  · rw [ht, Chip.settle_rack_eq, Chip.armRack_held _ (by rw [hold]; rfl), hold]
  · have source : x.rackReleased.effective q = { source := some b, onBackup := n } := by
      have lineUps : x.rackReleased.lineUp = (f.offerPoint q true).lineUp := heard.reaches.lineUp (by decide)
      rw [Chip.effective, lineUps, offered.lineUp (by decide), ← Chip.effective, effectives]
    rw [job, source]
    rfl

/-! ### What the exchange leaves alone -/

/-- What a rack reply leaves alone (R95, R96). -/
theorem State.rackReply_leaves (s : State) (l : List Byte) :
    let t := s.act fun c => c.rackReceives l
    SamePlant s t ∧ SameSubscribers s t ∧ SameTime s t ∧ SameOutside s t := by
  have reach := s.chip.rackReceives_reaches l
  refine ⟨samePlant_of ?_ ?_, ?_, ?_, s.act_outside _⟩
  · rw [State.act_chip, Chip.settle_plant, reach.plant (by decide)]
  · rw [State.act_chip]
    exact (s.chip.rackReceives_units l).trans (.of_elements (Chip.settle_elements _))
  · rw [SameSubscribers, State.act_chip, Chip.settle_subs, Chip.settle_store]
    exact ⟨reach.subs (by decide), reach.store (by decide)⟩
  · rw [SameTime, State.act_chip, Chip.settle_clock, Chip.settle_pass]
    exact ⟨reach.clock (by decide), reach.pass (by decide)⟩

end Sys2Proof.Machine

namespace Sys2Proof.Machine

/-! ### The effective source of a position (R12) -/

theorem Chip.effectiveOf_unused {c : Chip} {q : Nat} (h : (c.channel q).used = false) :
    c.effectiveOf q = { source := none, onBackup := false } := if_pos h
/-- On the backup: the primary is out and the backup is not. -/
theorem Chip.effectiveOf_backup {c : Chip} {q b : Nat} (used : (c.channel q).used = true)
    (backup : (c.channel q).backup = some b) (out : c.sourceOut (c.channel q).primary = true)
    (healthy : c.sourceOut b = false) : c.effectiveOf q = { source := some b, onBackup := true } := by
  simp [Chip.effectiveOf, used, backup, out, healthy]
/-- On the primary: no backup is set, the primary is not out, or the backup is out too. -/
theorem Chip.effectiveOf_primary {c : Chip} {q : Nat} (used : (c.channel q).used = true)
    (stays : (c.channel q).backup = none ∨ c.sourceOut (c.channel q).primary = false
      ∨ ∃ b, (c.channel q).backup = some b ∧ c.sourceOut b = true) :
    c.effectiveOf q = { source := some (c.channel q).primary, onBackup := false } := by
  obtain none | healthy | ⟨b, backup, out⟩ := stays
  · simp [Chip.effectiveOf, used, none]
  · cases hb : (c.channel q).backup <;> simp [Chip.effectiveOf, used, healthy, hb]
  · simp [Chip.effectiveOf, used, backup, out]

/-! ### The source that a group's exchange samples -/

/-- A part with an answered exchange counted, source k sampled to a record r, and other sources only heard. -/
structure Sampled (k : Nat) (r : Source) (c d : Chip) : Prop where
  reaches : Reaches [.rack, .sources] c d
  rack : d.rack = c.rackAnswered.rack
  source : d.source k = r
  out : ∀ b, b ≠ k → d.sourceOut b = c.sourceOut b

theorem Sampled.of_heard {k : Nat} {c y : Chip} (h : Heard k c.rackAnswered y) (hk : k < 32) (r : Source) :
    Sampled k r c (y.updSource k fun _ => r) := by
  have counted : Reaches [.rack, .sources] c c.rackAnswered := (c.setRack_reaches _).wider (by rfl)
  refine ⟨?_, h.reaches.rack (by decide), vget_vupd_same _ _ _ hk, fun b hb => ?_⟩
  · exact (counted.then (by rfl) h.reaches (bs := [.rack, .sources])).then (by rfl) (y.updSource_reaches k _)
  · have other : (y.updSource k fun _ => r).source b = y.source b := vget_vupd_other _ _ _ _ hb
    rw [Chip.sourceOut, other]
    exact h.sourceOut b
theorem Sampled.books {k : Nat} {r : Source} {c d : Chip} (h : Sampled k r c d) : SameBooks c d :=
  .of_reaches h.reaches (by decide)
theorem Sampled.lineUp {k : Nat} {r : Source} {c d : Chip} (h : Sampled k r c d) : d.lineUp = c.lineUp :=
  h.reaches.lineUp (by decide)

/-- What an operation of the Outage Table keeps of a part whose source k was sampled. -/
theorem Sampled.book {bs : List Block} {k : Nat} {r : Source} {c d e : Chip} (h : Sampled k r c d)
    (reach : Reaches bs d e)
    (hb : Block.lineUp ∉ bs ∧ Block.sources ∉ bs ∧ Block.rack ∉ bs ∧ Block.part ∉ bs) :
    e.lineUp = c.lineUp ∧ e.channel = c.channel ∧ e.source k = r ∧ (∀ b, b ≠ k → e.sourceOut b = c.sourceOut b)
      ∧ e.rack = c.rackAnswered.rack ∧ e.running = c.running := by
  obtain ⟨lineUp, sources, rack, part⟩ := hb
  have lineUps : e.lineUp = c.lineUp := (reach.lineUp lineUp).trans h.lineUp
  have source : ∀ b, e.source b = d.source b := fun b => by rw [Chip.source, reach.sources sources, ← Chip.source]
  refine ⟨lineUps, ?_, (source k).trans h.source, fun b hb => ?_, (reach.rack rack).trans h.rack, ?_⟩
  · funext q; rw [Chip.channel, Chip.channel, lineUps]
  · rw [Chip.sourceOut, source]; exact h.out b hb
  · exact Chip.running_congr ((reach.part part).trans (h.reaches.part (by decide)))

theorem payloadByte_level (g : Byte) (l : Fin 4 → Byte) (j : Fin 4) :
    payloadByte [g, l 0, l 1, l 2, l 3] (j + 1) = l j := by
  fin_cases j <;> rfl

/-- Settles O42: the rule of the effective source by its cases; of the four samples of the group one changes its source's
state, and the recompute behind it moves the one position that names the source. -/
theorem sourcesMoveTheirPositions : Obligations.SourcesMoveTheirPositions := by
  refine ⟨fun c q => ⟨fun unused => by rw [Chip.effectiveOf_unused unused], fun used =>
    ⟨fun b backup out healthy => by rw [Chip.effectiveOf_backup used backup out healthy],
      fun stays => by rw [Chip.effectiveOf_primary used stays]⟩⟩, ?_⟩
  intro g j l q b x s quiet runs listening hold job hg k r setting supervised levels trips clears alone hq used primary
    backup hb healthy others moved
  have hk : k < 32 := by have := j.isLt; omega
  have ready : s.chip.rackListening = true := by simp [Chip.rackListening, listening]
  obtain ⟨y, before, after⟩ := Chip.sampleGroup_around (c := s.chip.rackAnswered) (g := g) j.isLt
    [BitVec.ofNat 8 g, l 0, l 1, l 2, l 3] fun i hi ne => alone ⟨i, hi⟩ (by simpa [Fin.ext_iff] using ne)
  rw [payloadByte_level] at after
  change Heard k _ _ at before
  change Heard k (y.sampleSource k (l j) false) _ at after
  have record : y.source k = r := before.source
  have settings : vget y.lineUp.current.sources k = setting := by rw [before.reaches.lineUp (by decide)]; rfl
  have now : y.now = s.chip.now := by rw [Chip.now, before.reaches.clock (by decide)]; rfl
  have sampled := fun f => Sampled.of_heard before hk f
  refine ⟨_, exec_rackReplyReceived_eq ready _, ?trip, ?clear⟩
  all_goals
    have left := s.rackReply_leaves (frameOf 1 0x84 [BitVec.ofNat 8 g, l 0, l 1, l 2, l 3])
    have chip := s.act_chip fun c => c.rackReceives (frameOf 1 0x84 [BitVec.ofNat 8 g, l 0, l 1, l 2, l 3])
    rw [Chip.rackReceives_groupReply hold job hg l] at chip
    generalize (s.act fun c => c.rackReceives (frameOf 1 0x84 [BitVec.ofNat 8 g, l 0, l 1, l 2, l 3])) = t at left chip ⊢
  case trip =>
    intro untripped low run was d
    have turned : (r.sample setting (l j) false s.chip.now).Turned .tripped (l j) :=
      Source.sample_trips supervised levels clears untripped low run
    have opens := y.sampleSource_opens (s := k) (v := l j) (u := false) (by rw [record]; exact untripped)
      (by rw [record, settings, now, turned.state])
    rw [record, settings, now] at opens
    rw [opens, Chip.sourceOpens] at after
    have mine := sampled (r.sample setting (l j) false s.chip.now)
    have books := mine.books.openRequest k (r.runStart s.chip.now)
    obtain ⟨lineUp, channel, source, out, rack, run⟩ := mine.book
      (Chip.openRequest_reaches _ { kind := .source, object := k, start := r.runStart s.chip.now }) (by decide)
    generalize (y.updSource k fun _ => r.sample setting (l j) false s.chip.now).openRequest _ = e at *
    have onBackup : e.effectiveOf q = { source := some b, onBackup := true } :=
      Chip.effectiveOf_backup (by rw [channel, used]) (by rw [channel, backup])
        (by rw [channel, primary, Chip.sourceOut, source, turned.state]; rfl) (by rw [out b hb, healthy])
    obtain ⟨kept, only, effective, outages, notice⟩ := Chip.groupEnd_moved after chip lineUp hq ⟨used, primary⟩ others was
      onBackup hb.symm rfl
    rw [← source, ← kept] at turned
    refine ⟨⟨turned.state, turned.low, turned.high, turned.lowStart, turned.lastLevel, only.others, only.lineUp, left⟩,
      effective, outages.trans books.outages, notice d books.journal books.clock, fun empty owed idle confirmed => ?_⟩
    exact Chip.groupEnd_sets after chip lineUp hq ⟨used, primary⟩ others was onBackup hb.symm rfl (run.trans runs) rack
      empty owed idle confirmed
  case clear =>
    intro tripped high run was room d
    have turned : (r.sample setting (l j) false s.chip.now).Turned .armed (l j) :=
      Source.sample_clears supervised levels tripped high run
    have closes := y.sampleSource_closes (s := k) (v := l j) (u := false) (by rw [record]; exact tripped)
      (by rw [record, settings, now, turned.state]; decide)
    rw [record, settings, now] at closes
    rw [closes, Chip.sourceCloses] at after
    have mine := sampled (r.sample setting (l j) false s.chip.now)
    have unmarked := mine.books.setMark k none
    have books := unmarked.closeOf (decide_eq_true room) k (· == .opened) .recovered
    obtain ⟨lineUp, channel, source, out, -, -⟩ := mine.book
      ((Chip.setMark_reaches _ .source k none).then (by rfl)
        (Chip.closeOf_reaches _ .source k (· == .opened) .recovered) (bs := outageBlocks)) (by decide)
    generalize ((y.updSource k fun _ => r.sample setting (l j) false s.chip.now).setMark .source k none).closeOf
      .source k (· == .opened) .recovered = e at *
    have onPrimary : e.effectiveOf q = { source := some (e.channel q).primary, onBackup := false } :=
      Chip.effectiveOf_primary (by rw [channel, used])
        (.inr (.inl (by rw [channel, primary, Chip.sourceOut, source, turned.state]; rfl)))
    rw [channel, primary] at onPrimary
    obtain ⟨kept, only, effective, outages, notice⟩ := Chip.groupEnd_moved after chip lineUp hq ⟨used, primary⟩ others was
      onPrimary hb rfl
    rw [← source, ← kept] at turned
    exact ⟨⟨turned.state, turned.low, turned.high, turned.lowStart, turned.lastLevel, only.others, only.lineUp, left⟩,
      effective, outages.trans books.outages, notice d books.journal books.clock⟩

end Sys2Proof.Machine

namespace Sys2Proof.Machine

/-! ### A burst delivered to a mirror (R183) -/

/-- The bytes a mirror holds after the first n bytes of a burst: those delivered, and the others as before. -/
theorem Chip.deliverTo_upTo (c : Chip) (array : Memory) {mirror : Memory} (w : Memory.wf mirror = true) (base off n : Nat)
    (owned : Nat → Bool) :
    let m := forIndices n (fun m j =>
      if owned (off + j) || c.marked (base + off + j) then m
      else Memory.write m (off + j) (Memory.read array (base + off + j))) mirror
    Memory.wf m = true ∧ ∀ x, Memory.read m x =
      if off ≤ x ∧ x < off + n ∧ owned x = false ∧ Memory.read c.part.marks (base + x) ≠ 1 then
        Memory.read array (base + x)
      else Memory.read mirror x := by
  induction n with
  | zero => exact ⟨w, fun x => (if_neg (by omega)).symm⟩
  | succ n ih =>
    obtain ⟨wf, read⟩ := ih
    dsimp only
    rw [forIndices_succ]
    generalize forIndices n _ mirror = m at wf read ⊢
    by_cases kept : (owned (off + n) || c.marked (base + off + n)) = true
    · rw [if_pos kept]
      refine ⟨wf, fun x => (read x).trans ?_⟩
      by_cases here : x = off + n
      · subst here
        have : ¬ (owned (off + n) = false ∧ Memory.read c.part.marks (base + (off + n)) ≠ 1) := by
          rw [Nat.add_assoc] at kept
          simp [Chip.marked] at kept
          grind
        rw [if_neg (by omega), if_neg (by tauto)]
      · have : off ≤ x ∧ x < off + n ↔ off ≤ x ∧ x < off + (n + 1) := by omega
        simp only [← and_assoc, this]
    · rw [if_neg kept]
      refine ⟨Memory.write_wf _ _ wf, fun x => ?_⟩
      rw [Memory.read_write wf]
      by_cases here : x = off + n
      · subst here
        have free : owned (off + n) = false ∧ Memory.read c.part.marks (base + (off + n)) ≠ 1 := by
          rw [Nat.add_assoc] at kept
          simpa [Chip.marked] using kept
        rw [if_pos rfl, if_pos ⟨by omega, by omega, free⟩, Nat.add_assoc]
      · have : off ≤ x ∧ x < off + n ↔ off ≤ x ∧ x < off + (n + 1) := by omega
        rw [if_neg here, read x]
        simp only [← and_assoc, this]

/-- A delivery depends on the part's valid marks alone. -/
theorem Chip.deliverTo_congr {c d : Chip} (h : d.part = c.part) : d.deliverTo = c.deliverTo := by
  funext array mirror base off owned
  simp only [Chip.deliverTo, Chip.marked, h]
  rfl

/-! ### The end of a tenure of fill reads (R174) -/

/-- A tenure of n fill reads alone. -/
abbrev readTenure (n : Nat) : Tenure := { fillReads := n, entries := 0, checkpoint := none, writeBack := false }

/-- The part whose tenure has ended, before its owners take what was transferred. -/
def Chip.tenureEnded (c : Chip) : Chip :=
  (c.setPath { c.path with banks := Vector.replicate 4 none }).setEngine
    { c.engine with request := .idle, tenure := none, count := c.engine.count + 1 }

theorem Chip.tenureEnded_reaches (c : Chip) : Reaches [.path, .engine] c c.tenureEnded :=
  (c.setPath_reaches _).then (by rfl) (Chip.setEngine_reaches _ _)

theorem applyTransfers_reads (m : Memory) (l : List Transfer) (h : ∀ x ∈ l, x.writing = false) :
    applyTransfers m l = m := by
  induction l with
  | nil => rfl
  | cons x l ih =>
    have reads := h x (List.mem_cons_self ..)
    exact (congrArg (fun y => applyTransfers y l) (by simp [reads])).trans
      (ih fun y hy => h y (List.mem_cons_of_mem _ hy))

/-- A tenure of fill reads writes nothing. -/
theorem Chip.transfers_reads (c : Chip) (n : Nat) : ∀ x ∈ c.transfers (readTenure n), x.writing = false := by
  simp [Chip.transfers]

theorem Chip.complete_reads (c : Chip) (n : Nat) (array : Memory) :
    c.complete (readTenure n) array = c.tenureEnded.deliverReads array n := rfl

theorem State.endTenure_chip (s : State) (k : Tenure) :
    (s.endTenure k).chip = (s.chip.complete k (applyTransfers s.array (s.chip.transfers k))).settle := by
  rw [State.endTenure]
theorem State.endTenure_array (s : State) (k : Tenure) :
    (s.endTenure k).array = applyTransfers s.array (s.chip.transfers k) := by
  rw [State.endTenure]
theorem State.endTenure_pending (s : State) (k : Tenure) : (s.endTenure k).pending = s.pending := by
  rw [State.endTenure]

/-- The end of a tenure of fill reads: they are delivered to the part, the selections follow, the array stands. -/
theorem exec_tenureComplete_reads {s : State} {n : Nat} (holding : s.chip.engine.request = .holding)
    (tenure : s.chip.engine.tenure = some (readTenure n)) :
    ∃ t, exec .tenureComplete s = .next t ∧ t.chip = (s.chip.tenureEnded.deliverReads s.array n).settle
      ∧ t.array = s.array ∧ t.pending = s.pending := by
  have unwritten : applyTransfers s.array (s.chip.transfers (readTenure n)) = s.array :=
    applyTransfers_reads _ _ (s.chip.transfers_reads n)
  have ends : exec .tenureComplete s = .next (s.endTenure (readTenure n)) := by
    have unfolded : exec .tenureComplete s = execTenureComplete s := rfl
    rw [unfolded, execTenureComplete, tenure]
    exact congrArg Host.Outcome.next (if_pos holding)
  refine ⟨_, ends, ?_, ?_, s.endTenure_pending _⟩
  · rw [State.endTenure_chip, unwritten, Chip.complete_reads]
  · rw [State.endTenure_array, unwritten]

/-- The reads of a stage delivered, and the place of the next one moved. -/
def Chip.delivered (c : Chip) (array : Memory) (n : Nat) : Chip :=
  let d := forIndices n (fun d k => d.deliver array (c.part.fillNext + k)) c
  d.setPart { d.part with fillNext := c.part.fillNext + n }

theorem Chip.deliverReads_eq {c : Chip} {n : Nat} (fill : c.part.state = .fill) (some : 1 ≤ n) (array : Memory) :
    c.deliverReads array n =
      if (c.delivered array n).fillReads = 0 then (c.delivered array n).endStage array else c.delivered array n :=
  if_neg (by simp [fill]; omega)

/-- The blocks a stage's reads reach. -/
abbrev deliveryBlocks : List Block := [.plant, .lineUp, .store, .subs, .orders]

theorem Chip.deliveries_reaches (c : Chip) (array : Memory) (k n : Nat) :
    Reaches deliveryBlocks c (forIndices n (fun d j => d.deliver array (k + j)) c) :=
  forIndices_reaches (fun d j => d.deliver_reaches array (k + j)) n c

theorem Chip.delivered_part (c : Chip) (array : Memory) (n : Nat) :
    (c.delivered array n).part = { c.part with fillNext := c.part.fillNext + n } := by
  unfold Chip.delivered
  dsimp only
  rw [Chip.setPart_part, (c.deliveries_reaches array _ n).part (by decide)]
theorem Chip.delivered_reaches (c : Chip) (array : Memory) (n : Nat) :
    Reaches (.part :: deliveryBlocks) c (c.delivered array n) :=
  (c.deliveries_reaches array _ n).then (by rfl) (Chip.setPart_reaches _ _)

theorem Chip.fillReads_congr {c d : Chip} (state : d.part.state = c.part.state) (stage : d.part.stage = c.part.stage)
    (config : d.part.config = c.part.config) :
    d.fillReads = if c.part.state = .fill then c.stageReads c.part.stage - d.part.fillNext else 0 := by
  simp only [Chip.fillReads, Chip.stageReads, Chip.config, state, stage, config]

/-- The fill reads still offered behind a delivery. -/
theorem Chip.delivered_fillReads (c : Chip) (array : Memory) (n : Nat) :
    (c.delivered array n).fillReads = c.fillReads - n := by
  have part := c.delivered_part array n
  rw [Chip.fillReads_congr (c := c) (by rw [part]) (by rw [part]) (by rw [part]), part, Chip.fillReads]
  dsimp only
  split <;> omega

theorem Chip.tenureEnded_fillReads (c : Chip) : c.tenureEnded.fillReads = c.fillReads := rfl

/-- The last reads of a stage end it (R181). -/
theorem exec_tenureComplete_last {s : State} {n : Nat} (h : LastReads s n) :
    ∃ t, exec .tenureComplete s = .next t
      ∧ t.chip = ((s.chip.tenureEnded.delivered s.array n).endStage s.array).settle
      ∧ t.array = s.array ∧ t.pending = s.pending := by
  obtain ⟨fill, reads, some, holding, tenure⟩ := h
  obtain ⟨t, ends, chip, array, pending⟩ := exec_tenureComplete_reads holding tenure
  refine ⟨t, ends, ?_, array, pending⟩
  have done : (s.chip.tenureEnded.delivered s.array n).fillReads = 0 := by
    rw [Chip.delivered_fillReads, Chip.tenureEnded_fillReads, reads, Nat.sub_self]
  rw [chip, Chip.deliverReads_eq (c := s.chip.tenureEnded) fill some, if_pos done]

end Sys2Proof.Machine

namespace Sys2Proof.Machine

/-! ### The selections of a part that is not RUNNING -/

/-- The repoll lists are the same in two parts. -/
def SameLists (c d : Chip) : Prop := ∀ b, (d.branch b).repoll = (c.branch b).repoll

theorem SameLists.refl (c : Chip) : SameLists c c := fun _ => rfl
theorem SameLists.trans {c d e : Chip} (h : SameLists c d) (h' : SameLists d e) : SameLists c e :=
  fun b => (h' b).trans (h b)
theorem SameLists.of_reaches {bs : List Block} {c d : Chip} (h : Reaches bs c d) (hb : Block.branches ∉ bs) :
    SameLists c d := fun b => by rw [Chip.branch, Chip.branch, h.branches hb]
theorem SameLists.ite {c d e : Chip} {p : Prop} [Decidable p] (h : SameLists c d) (h' : SameLists c e) :
    SameLists c (if p then d else e) := by split <;> assumption
theorem SameLists.loop {f : Chip → Nat → Chip} (hf : ∀ c k, SameLists c (f c k)) (n : Nat) (c : Chip) :
    SameLists c (forIndices n f c) :=
  forIndices_keeps (P := SameLists c) n (.refl c) fun d k _ h => h.trans (hf d k)
theorem Chip.updBranch_lists (c : Chip) (b : Nat) {f : Branch → Branch} (hf : ∀ r, (f r).repoll = r.repoll) :
    SameLists c (c.updBranch b f) := fun k => vget_vupd_kept Branch.repoll hf c.branches b k

/-- A link that may make no exchange falls SILENT and touches nothing else. -/
theorem Chip.armBranch_stopped {c : Chip} (h : c.running = false) (b : Nat) :
    Reaches [.branches] c (c.armBranch b) ∧ SameLists c (c.armBranch b) := by
  have closed : c.linkOpen b = false := by simp [Chip.linkOpen, h]
  have shut : ¬ c.linkOpen b = true := by simp [closed]
  unfold Chip.armBranch
  rw [if_neg shut]
  exact ⟨.ite (.same _ c) (.ite (.same _ c) (c.updBranch_reaches b _)),
    .ite (.refl c) (.ite (.refl c) (c.updBranch_lists b fun _ => rfl))⟩
theorem Chip.armBranches_stopped {c : Chip} (h : c.running = false) :
    Reaches [.branches] c c.armBranches ∧ SameLists c c.armBranches :=
  forIndices_keeps (P := fun d => Reaches [.branches] c d ∧ SameLists c d) 4 ⟨.same _ c, .refl c⟩
    fun d b _ ⟨reach, lists⟩ => by
      obtain ⟨reach', lists'⟩ := Chip.armBranch_stopped ((Chip.running_congr (reach.part (by decide))).trans h) b
      exact ⟨reach.then (by rfl) reach', lists.trans lists'⟩

theorem Chip.armRack_stopped {c : Chip} (h : c.running = false) :
    c.armRack.rack.pendingList = c.rack.pendingList := by
  simp only [Chip.armRack, h, Bool.false_eq_true, if_false]
  split
  · rfl
  · split <;> rfl

/-- The selections of a part that is not RUNNING keep the ports, the orders and every list. -/
theorem Chip.settle_stopped {c : Chip} (h : c.running = false) :
    c.settle.ports = c.ports ∧ c.settle.orders = c.orders ∧ SameLists c c.settle
      ∧ c.settle.rack.pendingList = c.rack.pendingList := by
  obtain ⟨reach, lists⟩ := Chip.armBranches_stopped h
  have behind : Reaches [.rack, .orders, .engine] c.armBranches c.settle :=
    (((Chip.armRack_reaches _).then (by rfl) (Chip.armOrders_reaches _) (bs := [.rack, .orders])).then (by rfl)
      (Chip.requestBus_reaches _))
  refine ⟨?_, Chip.settle_orders_quiet (Chip.quietOrders_stopped h), lists.trans (.of_reaches behind (by decide)), ?_⟩
  · rw [behind.ports (by decide), reach.ports (by decide)]
  · rw [Chip.settle_rack_eq, Chip.armRack_stopped h]

/-- A part in FILL or in CONFIG FAULT is not RUNNING. -/
theorem Chip.running_fill {c : Chip} (h : c.part.state = .fill) : c.running = false := by simp [Chip.running, h]
theorem Chip.running_fault {c : Chip} (h : c.part.state = .configFault) : c.running = false := by
  simp [Chip.running, h]

/-! ### CHECKPOINT (R184) -/

/-- The reads of CHECKPOINT deliver nothing: its record is read at the end of the stage. -/
theorem Chip.deliveries_checkpoint {c : Chip} (h : c.part.stage = .checkpoint) (array : Memory) (k n : Nat) :
    forIndices n (fun d j => d.deliver array (k + j)) c = c :=
  forIndices_keeps (P := fun d => d = c) n rfl fun d j _ same => by rw [same, Chip.deliver, h]

theorem Chip.delivered_checkpoint {c : Chip} (h : c.part.stage = .checkpoint) (array : Memory) (n : Nat) :
    c.delivered array n = c.setPart { c.part with fillNext := c.part.fillNext + n } := by
  rw [Chip.delivered, Chip.deliveries_checkpoint h]

theorem CheckpointFields.blank_iff (f : CheckpointFields) :
    f.blank = true ↔ f.mark ≠ 0x4820 ∨ (f.m < 1440 ∨ 44640 < f.m) ∨ (f.nextM < 1440 ∨ 44640 < f.nextM) := by
  simp only [CheckpointFields.blank, cycleLengthOk, Bool.or_eq_true, bne_iff_ne, Bool.not_eq_true', Bool.and_eq_false_iff,
    decide_eq_false_iff_not, Nat.not_le]
  tauto

theorem Chip.endCheckpoint_clock (c : Chip) (array : Memory) :
    (c.endCheckpoint array).clock =
      { c.clock with cal := (checkpointAt array (c.configBase + 128)).calendar c.config } := rfl
theorem Chip.endCheckpoint_part (c : Chip) (array : Memory) :
    (c.endCheckpoint array).part = { c.part with
      stage := .plant, fillNext := 0, startView := Memory.bytes array (c.configBase + 128) 32
      startBlank := (checkpointAt array (c.configBase + 128)).blank
      heldHead := ((checkpointAt array (c.configBase + 128)).indices c.config).1
      heldTail := ((checkpointAt array (c.configBase + 128)).indices c.config).2 } := rfl

theorem CheckpointFields.indices_blank {f : CheckpointFields} (h : f.blank = true) (v : ConfigValues) :
    f.indices v = (0, 0) := if_pos h
theorem CheckpointFields.indices_near {f : CheckpointFields} (h : f.blank = false) {v : ConfigValues}
    (near : (f.tail - f.head).toNat ≤ v.journalCapacity) : f.indices v = (f.head, f.tail) := by
  rw [CheckpointFields.indices, if_neg (by simp [h]), if_pos near]
theorem CheckpointFields.indices_far {f : CheckpointFields} (h : f.blank = false) {v : ConfigValues}
    (far : v.journalCapacity < (f.tail - f.head).toNat) : f.indices v = (f.tail, f.tail) := by
  rw [CheckpointFields.indices, if_neg (by simp [h]), if_neg (Nat.not_le.mpr far)]
theorem CheckpointFields.indices_tail {f : CheckpointFields} (h : f.blank = false) (v : ConfigValues) :
    (f.indices v).2 = f.tail := by
  rcases Nat.lt_or_ge v.journalCapacity (f.tail - f.head).toNat with far | near
  · rw [CheckpointFields.indices_far h far]
  · rw [CheckpointFields.indices_near h near]

end Sys2Proof.Machine

namespace Sys2Proof.Machine

/-! ### The reads of PLANT and LINE-UP (R183) -/

theorem Chip.deliver_plant {c : Chip} (h : c.part.stage = .plant) (array : Memory) (k : Nat) :
    c.deliver array k = c.setPlant
      { c.plant with mirror := c.deliverTo array c.plant.mirror c.config.plant.base (16 * k) headerOutcome } := by
  rw [Chip.deliver, h]
theorem Chip.deliver_lineUp {c : Chip} (h : c.part.stage = .lineUp) (array : Memory) (k : Nat) :
    c.deliver array k = c.setLineUp
      { c.lineUp with mirror := c.deliverTo array c.lineUp.mirror c.config.lineUp.base (16 * k) headerOutcome } := by
  rw [Chip.deliver, h]

/-- A mirror of a region behind n of its reads. -/
def Chip.readMirror (c : Chip) (array mirror : Memory) (base k n : Nat) : Memory :=
  forIndices n (fun m j => c.deliverTo array m base (16 * (k + j)) headerOutcome) mirror

theorem Chip.readMirror_succ (c : Chip) (array mirror : Memory) (base k n : Nat) :
    c.readMirror array mirror base k (n + 1) =
      c.deliverTo array (c.readMirror array mirror base k n) base (16 * (k + n)) headerOutcome := forIndices_succ _ _ _

theorem Chip.deliveries_plant {c : Chip} (h : c.part.stage = .plant) (array : Memory) (k n : Nat) :
    forIndices n (fun d j => d.deliver array (k + j)) c =
      c.setPlant { c.plant with mirror := c.readMirror array c.plant.mirror c.config.plant.base k n } := by
  induction n with
  | zero => rfl
  | succ n ih =>
    rw [forIndices_succ, ih, Chip.deliver_plant (by exact h), Chip.readMirror_succ,
      Chip.deliverTo_congr (c := c) rfl]
    rfl
theorem Chip.deliveries_lineUp {c : Chip} (h : c.part.stage = .lineUp) (array : Memory) (k n : Nat) :
    forIndices n (fun d j => d.deliver array (k + j)) c =
      c.setLineUp { c.lineUp with mirror := c.readMirror array c.lineUp.mirror c.config.lineUp.base k n } := by
  induction n with
  | zero => rfl
  | succ n ih =>
    rw [forIndices_succ, ih, Chip.deliver_lineUp (by exact h), Chip.readMirror_succ,
      Chip.deliverTo_congr (c := c) rfl]
    rfl

theorem headerOutcome_eq : headerOutcome = fun x => decide (4 ≤ x ∧ x < 8) := by
  funext x
  exact (Bool.decide_and _ _).symm

/-! ### What a plant take leaves alone (R71) -/

/-- The table of the mirror in force, its outcome shown: the first steps of a take (R70, R71). -/
def Chip.plantInForce (c : Chip) : Chip :=
  (c.setElements c.mirrorElements).setPlant
    { c.plant with gen := some (takeWord c.plant.mirror), outcome := .done }

section
variable (c : Chip) (e : Nat)

theorem Chip.withdraw_unit : Reaches unitBlocks c (c.withdraw e) :=
  (c.setMark_reaches _ _ _).then (by rfl) (Chip.closeOf_reaches _ _ _ _ _)
theorem Chip.resetElement_unit (k : Class) (o n : ElementRecord) : Reaches [.elements] c (c.resetElement k o n e) := by
  unfold Chip.resetElement
  exact .ite (c.updElement_reaches _ _) (.ite (c.updSup_reaches _ _) (.same _ c))
theorem Chip.resuppress_unit : Reaches unitBlocks c (c.resuppress e) := by
  unfold Chip.resuppress
  exact .ite (.same _ c) (.ite (.ite (.same _ c) (c.suppress_reaches e)) (.ite ((c.updSup_reaches _ _).wider (by rfl))
    (.same _ c)))
theorem Chip.relist_unit (k : Class) (m : Bool) (w : Supervision) : Reaches [.branches] c (c.relist k m w e) := by
  have h : Reaches [.branches] c (if k = .removed ∨ m = true then c.offRepoll e else c) :=
    .ite (c.offRepoll_reaches e) (.same _ c)
  unfold Chip.relist
  exact .ite (h.then (by rfl) (Chip.repollAppend_reaches _ _)) h
theorem Chip.repark_unit : Reaches portBlocks c (c.repark e) := by
  unfold Chip.repark
  exact .ite (.same _ c) ((c.parkElement_reaches e).wider (by rfl))
theorem Chip.cutExchange_unit (k : Nat → Class) (b : Nat) : Reaches portBlocks c (c.cutExchange k b) := by
  unfold Chip.cutExchange
  split
  · exact .same _ c
  · next x _ =>
    have h := c.updBranch_reaches b fun r => { r with hold := some { x with last := true, discard := true } }
    refine .ite (.same _ c) ?_
    dsimp only
    split
    · exact (h.then (by rfl) (Chip.updPort_reaches _ _ _) (bs := portBlocks)).then (by rfl)
        (Chip.copySummary_reaches _ _)
    · exact h.wider (by rfl)

end

end Sys2Proof.Machine

namespace Sys2Proof.Machine

/-! ### The steps of a plant take (R71) -/

theorem Chip.plantInForce_reaches (c : Chip) : Reaches [.elements, .plant] c c.plantInForce :=
  (c.setElements_reaches _).then (by rfl) (Chip.setPlant_reaches _ _)

/-- Steps 3 to 5: records withdrawn, elements reset, suppression by the new table. -/
def Chip.plantUnits (c : Chip) : Chip :=
  forIndices 640 Chip.resuppress
    (forIndices 640 (fun d e => d.resetElement (classOf c.elements c.mirrorElements e) (vget c.elements e).record
        (vget c.mirrorElements e).record e)
      (forIndices 640 (fun d e => if (classOf c.elements c.mirrorElements e).lost then d.withdraw e else d)
        c.plantInForce))

/-- Step 6 at the repoll lists. -/
def Chip.plantListed (c : Chip) : Chip :=
  forIndices 640 (fun d e => d.relist (classOf c.elements c.mirrorElements e)
    (classOf c.elements c.mirrorElements e == .changed && rootFrom c.elements e != rootFrom c.mirrorElements e)
    (vget c.elements e).sup.state e) c.plantUnits

/-- Step 6 at the ports and the exchanges. -/
def Chip.plantCut (c : Chip) : Chip :=
  forIndices 4 (fun d b => d.cutExchange (classOf c.elements c.mirrorElements) b)
    (forIndices 640 Chip.repark c.plantListed)

/-- A take is these steps, and while RUNNING the hand-over of the carrier states. -/
theorem Chip.takePlant_eq (c : Chip) :
    c.takePlant = if c.plantCut.running then c.plantCut.handCarriers else c.plantCut := rfl

theorem Chip.plantListed_unit (c : Chip) : Reaches [.branches] c.plantUnits c.plantListed :=
  forIndices_reaches (fun d e => d.relist_unit e _ _ _) 640 _
theorem Chip.plantCut_unit (c : Chip) : Reaches portBlocks c.plantListed c.plantCut :=
  (forIndices_reaches Chip.repark_unit 640 _).then (by rfl) (forIndices_reaches (fun d b => d.cutExchange_unit _ b) 4 _)
theorem Chip.takePlant_unit (c : Chip) : Reaches unitBlocks c.plantInForce c.takePlant := by
  have withdrawn := forIndices_reaches (bs := unitBlocks)
    (f := fun d e => if (classOf c.elements c.mirrorElements e).lost then d.withdraw e else d)
    (fun d e => .ite (d.withdraw_unit e) (.same _ d)) 640 c.plantInForce
  have reset := withdrawn.then (by rfl) (forIndices_reaches (fun d e => d.resetElement_unit e
    (classOf c.elements c.mirrorElements e) (vget c.elements e).record (vget c.mirrorElements e).record) 640 _)
    (bs := unitBlocks)
  have units : Reaches unitBlocks c.plantInForce c.plantUnits :=
    reset.then (by rfl) (forIndices_reaches Chip.resuppress_unit 640 _)
  have cut : Reaches unitBlocks c.plantInForce c.plantCut :=
    (units.then (by rfl) c.plantListed_unit (bs := unitBlocks)).then (by rfl) c.plantCut_unit
  rw [Chip.takePlant_eq]
  exact .ite (cut.then (by rfl) (Chip.handCarriers_reaches _)) cut

/-- The Plant Monitor's own words after a take (R70). -/
theorem Chip.takePlant_plant (c : Chip) :
    c.takePlant.plant = { c.plant with gen := some (takeWord c.plant.mirror), outcome := .done } :=
  c.takePlant_unit.plant (by decide)

/-- The checks depend on the mirror, the elements and the owners of the ports (R69). -/
theorem Chip.checkPlant_congr {c d : Chip} (hm : d.plant.mirror = c.plant.mirror) (he : d.elements = c.elements)
    (ho : d.ports = c.ports) : d.checkPlant = c.checkPlant := by
  have owned : d.ownedOk = c.ownedOk := by funext e; simp only [Chip.ownedOk, Chip.port, hm, ho]
  have mirrored : d.mirrorElements = c.mirrorElements := by simp only [Chip.mirrorElements, Chip.element, hm, he]
  rw [Chip.checkPlant, Chip.checkPlant, hm, mirrored, owned]

theorem Chip.tryPlant_refused {c : Chip} {o : OutcomeCode} (h : c.checkPlant = some o) :
    c.tryPlant = c.plantOutcome o := by rw [Chip.tryPlant, h]
theorem Chip.tryPlant_taken {c : Chip} (h : c.checkPlant = none) : c.tryPlant = c.takePlant := by
  rw [Chip.tryPlant, h]

/-- No refusal code is that of a region never taken. -/
theorem Chip.checkPlant_ne_notTaken (c : Chip) : c.checkPlant ≠ some .notTaken := by
  unfold Chip.checkPlant
  dsimp only
  repeat' split
  all_goals simp

/-! ### The first take, of a plant no element of which was in use (R72) -/

/-- Every element stands under the mirror's record, fresh. -/
def FreshPlant (m : Memory) (d : Chip) : Prop :=
  ∀ e, e < 640 → d.element e = { Element.reset with record := mirrorElement m e }

theorem FreshPlant.of_elements {m : Memory} {c d : Chip} (h : FreshPlant m c) (he : d.elements = c.elements) :
    FreshPlant m d := fun e hi => by rw [Chip.element, he]; exact h e hi

theorem Chip.mirrorElements_record (c : Chip) {e : Nat} (h : e < 640) :
    (vget c.mirrorElements e).record = mirrorElement c.plant.mirror e := by
  simp [Chip.mirrorElements, vget, h]

/-- Against a table with no element in use every element of the new table is new. -/
theorem Chip.classOf_first {c : Chip} (fresh : ∀ e, e < 640 → c.element e = Element.reset) {e : Nat} (h : e < 640) :
    classOf c.elements c.mirrorElements e = if (mirrorElement c.plant.mirror e).inUse then .added else .absent := by
  have old : (vget c.elements e).record.inUse = false := by
    have := fresh e h
    rw [Chip.element] at this
    rw [this]; rfl
  rw [classOf, old, c.mirrorElements_record h]
  cases (mirrorElement c.plant.mirror e).inUse <;> rfl

theorem Chip.resetElement_fresh {m : Memory} {d : Chip} (h : FreshPlant m d) {e : Nat} (he : e < 640) {k : Class}
    (hk : k = .added ∨ k = .absent) (o n : ElementRecord) : d.resetElement k o n e = d := by
  obtain rfl | rfl := hk
  · have same : vupd d.elements e (fun el => { el with sup := SupRecord.fresh, heard := none, doubt := false }) =
        d.elements := vupd_id _ _ _ (by
      have := h e he
      rw [Chip.element] at this
      rw [this]; rfl)
    simp only [Chip.resetElement, Class.fresh, Chip.updElement, same]
    rfl
  · rfl

theorem FreshPlant.failingAbove {m : Memory} {d : Chip} (h : FreshPlant m d) (e : Nat) : d.failingAbove e = false := by
  simp only [Chip.failingAbove, List.any_eq_false]
  intro a _
  by_cases ha : a < 640
  · rw [h a ha]; simp [Element.reset, SupRecord.fresh]
  · rw [Chip.element, vget_outside _ (Nat.le_of_not_lt ha)]; decide

theorem Chip.resuppress_fresh {m : Memory} {d : Chip} (h : FreshPlant m d) {e : Nat} (he : e < 640) :
    d.resuppress e = d := by
  simp only [Chip.resuppress, h.failingAbove, h e he]
  split
  · rfl
  · rfl

/-- Steps 3 to 5 of the first take only bring the mirror's records into force. -/
theorem Chip.plantUnits_first {c : Chip} (fresh : ∀ e, e < 640 → c.element e = Element.reset) :
    c.plantUnits = c.plantInForce ∧ FreshPlant c.plant.mirror c.plantInForce := by
  have mirrored : FreshPlant c.plant.mirror c.plantInForce := fun e he => by
    have record : c.plantInForce.element e = { c.element e with record := mirrorElement c.plant.mirror e } := by
      simp [Chip.plantInForce, Chip.element, Chip.mirrorElements, vget, he]
    rw [record, fresh e he]
  have withdrawn : forIndices 640 (fun d e => if (classOf c.elements c.mirrorElements e).lost then d.withdraw e else d)
      c.plantInForce = c.plantInForce :=
    forIndices_keeps (P := fun d => d = c.plantInForce) 640 rfl fun d e he same => by
      rw [Chip.classOf_first fresh he, same]
      cases (mirrorElement c.plant.mirror e).inUse <;> rfl
  have reset : forIndices 640 (fun d e => d.resetElement (classOf c.elements c.mirrorElements e)
      (vget c.elements e).record (vget c.mirrorElements e).record e) c.plantInForce = c.plantInForce :=
    forIndices_keeps (P := fun d => d = c.plantInForce) 640 rfl fun d e he same => by
      rw [same]
      refine Chip.resetElement_fresh mirrored he ?_ _ _
      rw [Chip.classOf_first fresh he]
      cases (mirrorElement c.plant.mirror e).inUse <;> simp
  have suppressed : forIndices 640 Chip.resuppress c.plantInForce = c.plantInForce :=
    forIndices_keeps (P := fun d => d = c.plantInForce) 640 rfl fun d e he same => by
      rw [same, Chip.resuppress_fresh mirrored he]
  exact ⟨by rw [Chip.plantUnits, withdrawn, reset, suppressed], mirrored⟩

/-- The elements of branch b that the first take puts on its repoll list. -/
def Chip.firstPolled (c : Chip) (b e : Nat) : Bool :=
  decide (4 ≤ e) && (mirrorElement c.plant.mirror e).inUse && c.plantInForce.branchOf e == b

theorem Chip.relist_first {c d : Chip} (fresh : ∀ e, e < 640 → c.element e = Element.reset)
    (same : d.elements = c.plantInForce.elements) {e : Nat} (he : e < 640) :
    d.relist (classOf c.elements c.mirrorElements e)
        (classOf c.elements c.mirrorElements e == .changed && rootFrom c.elements e != rootFrom c.mirrorElements e)
        (vget c.elements e).sup.state e =
      if decide (4 ≤ e) && (mirrorElement c.plant.mirror e).inUse then d.repollAppend e else d := by
  have mirrored := ((Chip.plantUnits_first fresh).2.of_elements same) e he
  rw [Chip.classOf_first fresh he]
  cases used : (mirrorElement c.plant.mirror e).inUse
  · simp [Chip.relist, mirrored, used]
  · simp [Chip.relist, mirrored, used, Element.reset, SupRecord.fresh, Class.fresh]

theorem appendNew_new {l : List Nat} {x : Nat} (h : x ∉ l) : appendNew l x = l ++ [x] := by
  simp [appendNew, h]

theorem filter_range_succ (p : Nat → Bool) (n : Nat) :
    (List.range (n + 1)).filter p = (List.range n).filter p ++ if p n then [n] else [] := by
  rw [List.range_succ, List.filter_append]
  cases h : p n <;> simp [h]

/-- An element joins the repoll list of its own branch alone. -/
theorem Chip.repollAppend_repoll (c : Chip) (e : Nat) {b : Nat} (hb : b < 4) :
    ((c.repollAppend e).branch b).repoll =
      if c.branchOf e == b then appendNew (c.branch b).repoll e else (c.branch b).repoll := by
  by_cases here : c.branchOf e = b
  · rw [if_pos (by simp [here]), Chip.repollAppend, here]
    exact congrArg Branch.repoll (vget_vupd_same c.branches b _ hb)
  · rw [if_neg (by simp [here]), Chip.repollAppend]
    exact congrArg Branch.repoll (vget_vupd_other c.branches _ b _ (Ne.symm here))

/-- After the first take every unit in use is on its branch's repoll list, in index order (R58). -/
theorem Chip.plantListed_first {c : Chip} (fresh : ∀ e, e < 640 → c.element e = Element.reset)
    (empty : ∀ b, b < 4 → (c.branch b).repoll = []) {b : Nat} (hb : b < 4) :
    (c.plantListed.branch b).repoll = (List.range 640).filter (c.firstPolled b) := by
  have loop : ∀ n, n ≤ 640 →
      let d := forIndices n (fun d e => d.relist (classOf c.elements c.mirrorElements e)
        (classOf c.elements c.mirrorElements e == .changed && rootFrom c.elements e != rootFrom c.mirrorElements e)
        (vget c.elements e).sup.state e) c.plantInForce
      d.elements = c.plantInForce.elements ∧ (d.branch b).repoll = (List.range n).filter (c.firstPolled b) := by
    intro n
    induction n with
    | zero =>
      have branch : c.plantInForce.branch b = c.branch b := by
        rw [Chip.branch, c.plantInForce_reaches.branches (by decide), ← Chip.branch]
      exact fun _ => ⟨rfl, by rw [forIndices_zero, branch, empty b hb]; rfl⟩
    | succ n ih =>
      intro hn
      obtain ⟨same, list⟩ := ih (by omega)
      dsimp only
      rw [forIndices_succ, Chip.relist_first fresh same (by omega), filter_range_succ]
      generalize forIndices n _ c.plantInForce = d at same list ⊢
      have branchOf : d.branchOf n = c.plantInForce.branchOf n := by rw [Chip.branchOf, same, ← Chip.branchOf]
      have new : n ∉ (List.range n).filter (c.firstPolled b) := fun mem => by
        have := List.mem_range.mp (List.mem_filter.mp mem).1
        omega
      split
      · next joins =>
        refine ⟨((d.repollAppend_reaches n).elements (by decide)).trans same, ?_⟩
        rw [Chip.repollAppend_repoll d n hb, list, branchOf, Chip.firstPolled, joins, Bool.true_and]
        split
        · rw [appendNew_new new]
        · rw [List.append_nil]
      · next stays =>
        refine ⟨same, ?_⟩
        rw [list, Chip.firstPolled, Bool.eq_false_iff.mpr stays, Bool.false_and]
        simp
  rw [Chip.plantListed, (Chip.plantUnits_first fresh).1]
  exact (loop 640 (Nat.le_refl _)).2

/-! ### Parked ports and cut exchanges keep the repoll lists -/

theorem Chip.parkPort_lists (c : Chip) (p : Nat) : SameLists c (c.parkPort p) := by
  have port := fun (d : Chip) k => SameLists.of_reaches (d.setCondition_reaches p k) (by decide)
  have off : SameLists c (c.offDirty p) := .loop
    (fun d b => d.updBranch_lists b (f := fun r => { r with dirty := r.dirty.filter (· != p) }) fun _ => rfl) 4 c
  unfold Chip.parkPort
  split
  · exact port c _
  · exact off.trans (port _ _)
  · exact (port c _).trans (.of_reaches (Chip.copySummary_reaches _ p) (by decide))
  · exact .refl c
  · exact .refl c
theorem Chip.repark_lists (c : Chip) (e : Nat) : SameLists c (c.repark e) := by
  unfold Chip.repark Chip.parkElement Chip.eachPort
  exact .ite (.refl c) (.loop (fun d k => d.parkPort_lists _) 4 c)
theorem Chip.cutExchange_lists (c : Chip) (k : Nat → Class) (b : Nat) : SameLists c (c.cutExchange k b) := by
  unfold Chip.cutExchange
  split
  · exact .refl c
  · next x _ =>
    have cut := c.updBranch_lists b (f := fun r => { r with hold := some { x with last := true, discard := true } })
      fun _ => rfl
    refine .ite (.refl c) ?_
    dsimp only
    split
    · exact (cut.trans (.of_reaches (Chip.updPort_reaches _ _ _) (by decide))).trans
        (.of_reaches (Chip.copySummary_reaches _ _) (by decide))
    · exact cut
theorem Chip.plantCut_lists (c : Chip) : SameLists c.plantListed c.plantCut :=
  (SameLists.loop Chip.repark_lists 640 _).trans (.loop (fun d b => d.cutExchange_lists _ b) 4 _)

/-- What the first take leaves of a part that is not RUNNING (R72). -/
theorem Chip.takePlant_first {c : Chip} (stopped : c.running = false)
    (fresh : ∀ e, e < 640 → c.element e = Element.reset) (empty : ∀ b, b < 4 → (c.branch b).repoll = []) :
    FreshPlant c.plant.mirror c.takePlant ∧ ∀ b, b < 4 →
      (c.takePlant.branch b).repoll = (List.range 640).filter fun e =>
        decide (4 ≤ e) && (mirrorElement c.plant.mirror e).inUse && c.takePlant.branchOf e == b := by
  have reach : Reaches unitBlocks c.plantInForce c.plantCut := by
    have units := (Chip.plantUnits_first fresh).1
    have listed := c.plantListed_unit
    rw [units] at listed
    exact listed.then (by rfl) c.plantCut_unit
  have part : c.plantCut.part = c.part := (reach.part (by decide)).trans (c.plantInForce_reaches.part (by decide))
  have idle : c.plantCut.running = false := (Chip.running_congr part).trans stopped
  have cut : c.takePlant = c.plantCut := by rw [Chip.takePlant_eq, if_neg (by simp [idle])]
  obtain ⟨units, mirrored⟩ := Chip.plantUnits_first fresh
  have elements : c.plantCut.elements = c.plantInForce.elements := by
    rw [c.plantCut_unit.elements (by decide), c.plantListed_unit.elements (by decide), units]
  rw [cut]
  refine ⟨mirrored.of_elements elements, fun b hb => ?_⟩
  rw [c.plantCut_lists b, Chip.plantListed_first fresh empty hb]
  have branchOf : c.plantCut.branchOf = c.plantInForce.branchOf := by
    funext e; rw [Chip.branchOf, Chip.branchOf, elements]
  rw [branchOf]
  rfl

end Sys2Proof.Machine

namespace Sys2Proof.Machine

/-! ### The first line-up take, with no source outage open (R11, R12) -/

/-- No source outage is open. -/
def NoSourceOut (c : Chip) : Prop := ∀ k, k < 32 → (c.source k).state ≠ .tripped

theorem NoSourceOut.of_sources {c d : Chip} (h : NoSourceOut c) (hs : d.sources = c.sources) : NoSourceOut d :=
  fun k hk => by rw [Chip.source, hs]; exact h k hk

theorem NoSourceOut.sourceOut {c : Chip} (h : NoSourceOut c) (k : Nat) : c.sourceOut k = false := by
  by_cases hk : k < 32
  · simp [Chip.sourceOut, h k hk]
  · rw [Chip.sourceOut, Chip.source, vget_outside _ (Nat.le_of_not_lt hk)]; decide

/-- Without a source outage every position is on its primary. -/
theorem NoSourceOut.effectiveOf {c : Chip} (h : NoSourceOut c) (q : Nat) :
    c.effectiveOf q =
      { source := if (c.channel q).used = true then some (c.channel q).primary else none, onBackup := false } := by
  cases used : (c.channel q).used
  · rw [Chip.effectiveOf_unused used]; rfl
  · rw [Chip.effectiveOf_primary used (.inr (.inl (h.sourceOut _)))]; rfl

theorem Source.retake_untripped {r : Source} (h : r.state ≠ .tripped) (b : Bool) : (r.retake b).state ≠ .tripped := by
  cases b
  · exact h
  · exact nofun

/-- A take at a source that is not out only sets its record. -/
theorem Chip.takeSource_first {c : Chip} (h : NoSourceOut c) (old : Vector SourceSetting 32) (s : Nat) :
    Reaches [.sources] c (c.takeSource old s) ∧ NoSourceOut (c.takeSource old s) := by
  have out : c.sourceOut s = false := h.sourceOut s
  by_cases same : vget old s = vget c.lineUp.current.sources s
  · have stays : c.takeSource old s = c := if_pos same
    rw [stays]
    exact ⟨.same _ c, h⟩
  · have retaken : c.takeSource old s =
        c.updSource s fun r => r.retake ((vget old s).supervised != (vget c.lineUp.current.sources s).supervised) := by
      simp [Chip.takeSource, same, out]
    rw [retaken]
    refine ⟨c.updSource_reaches s _, fun k hk => ?_⟩
    by_cases hs : k = s
    · subst hs
      rw [Chip.source, Chip.updSource, Chip.setSources_sources, vget_vupd_same _ _ _ hk]
      exact Source.retake_untripped (h k hk) _
    · rw [Chip.source, Chip.updSource, Chip.setSources_sources, vget_vupd_other _ _ _ _ hs]
      exact h k hk

theorem Chip.takeSources_first {c : Chip} (h : NoSourceOut c) (old : Vector SourceSetting 32) (n : Nat) :
    Reaches [.sources] c (forIndices n (fun d s => d.takeSource old s) c)
      ∧ NoSourceOut (forIndices n (fun d s => d.takeSource old s) c) :=
  forIndices_keeps (P := fun d => Reaches [.sources] c d ∧ NoSourceOut d) n ⟨.same _ c, h⟩
    fun d s _ ⟨reach, healthy⟩ => by
      obtain ⟨reach', healthy'⟩ := Chip.takeSource_first healthy old s
      exact ⟨reach.then (by rfl) reach', healthy'⟩

/-- An IDLE position never set joins the pending list with its primary, unless it is UNUSED. -/
theorem Chip.recomputeEffective_first {c : Chip} {q : Nat} (hq : q < 64) (h : NoSourceOut c)
    (was : c.effective q = { source := none, onBackup := false }) (idle : (c.point q).condition = .idle)
    (unknown : (c.point q).confirmed = .unknown) :
    c.recomputeEffective .take q =
      if (c.channel q).used = true then (c.setEffective q (c.effectiveOf q)).markPoint q
      else c.setEffective q (c.effectiveOf q) := by
  have now := h.effectiveOf q
  have channel : ∀ e, (c.setEffective q e).channel q = c.channel q := fun _ => rfl
  have point : ∀ e, (c.setEffective q e).point q = c.point q := fun _ => rfl
  have effective : ∀ e, (c.setEffective q e).effective q = e := fun e => vget_vupd_same _ _ _ hq
  cases used : (c.channel q).used
  · simp [Chip.recomputeEffective, was, now, used, Chip.needsSet, channel]
  · simp [Chip.recomputeEffective, was, now, used, Chip.substitution, Chip.offerPoint, Chip.testPoint, Chip.needsSet,
      point, idle, channel, effective, unknown]

/-- No position has been set or offered: none has an effective source, every one is IDLE, its crosspoint unknown, and
the pending list is empty. -/
structure Unset (c : Chip) : Prop where
  effective : ∀ q, q < 64 → c.effective q = { source := none, onBackup := false }
  points : ∀ q, q < 64 → (c.point q).condition = .idle ∧ (c.point q).confirmed = .unknown
  list : c.rack.pendingList = []

/-- Behind the recompute of every position the USED ones are on the pending list, in position order, and no notice was
raised. -/
theorem Chip.recomputeAll_first {c : Chip} (h : NoSourceOut c) (u : Unset c) :
    let d := forIndices 64 (fun d q => d.recomputeEffective .take q) c
    d.rack.pendingList = (List.range 64).filter (fun q => (c.channel q).used) ∧ d.journal = c.journal := by
  have loop : ∀ n, n ≤ 64 →
      let d := forIndices n (fun d q => d.recomputeEffective .take q) c
      d.rack.pendingList = (List.range n).filter (fun q => (c.channel q).used) ∧ d.journal = c.journal
        ∧ EffectiveOnly c d ∧ d.sources = c.sources
        ∧ ∀ q, n ≤ q → d.effective q = c.effective q ∧ d.point q = c.point q := by
    intro n
    induction n with
    | zero => exact fun _ => ⟨u.list, rfl, .refl c, rfl, fun _ _ => ⟨rfl, rfl⟩⟩
    | succ n ih =>
      intro hn
      obtain ⟨list, journal, only, sources, rest⟩ := ih (by omega)
      dsimp only
      rw [forIndices_succ, filter_range_succ]
      generalize forIndices n (fun d q => Chip.recomputeEffective d .take q) c = d at list journal only sources rest ⊢
      obtain ⟨effective, point⟩ := rest n (Nat.le_refl n)
      obtain ⟨idle, unknown⟩ := u.points n (by omega)
      have step := Chip.recomputeEffective_first (by omega) (h.of_sources sources)
        (effective.trans (u.effective n (by omega))) (by rw [point, idle]) (by rw [point, unknown])
      have kept : ∀ q, n + 1 ≤ q → (d.recomputeEffective .take n).effective q = c.effective q := fun q hq =>
        (Chip.recomputeEffective_other d .take (by omega)).trans (rest q (by omega)).1
      have only' := only.trans (d.recomputeEffective_only .take n)
      have sources' := (Chip.recomputeEffective_sources d .take n).trans sources
      have new : n ∉ (List.range n).filter (fun q => (c.channel q).used) := fun mem => by
        have := List.mem_range.mp (List.mem_filter.mp mem).1
        omega
      rw [only.channel] at step
      split at step
      · next used =>
        have points : ∀ q, q ≠ n → (d.recomputeEffective .take n).point q = d.point q := fun q hq => by
          rw [step]; exact vget_vupd_other _ _ _ _ hq
        have joins : (d.recomputeEffective .take n).rack.pendingList = appendNew d.rack.pendingList n := by
          rw [step]; rfl
        have unsaid : (d.recomputeEffective .take n).journal = d.journal := by rw [step]; rfl
        refine ⟨?_, unsaid.trans journal, only', sources', fun q hq =>
          ⟨kept q hq, (points q (by omega)).trans (rest q (by omega)).2⟩⟩
        rw [joins, list, appendNew_new new, used, if_pos rfl]
      · next unused =>
        have racks : (d.recomputeEffective .take n).rack = d.rack := by rw [step]; rfl
        have unsaid : (d.recomputeEffective .take n).journal = d.journal := by rw [step]; rfl
        refine ⟨?_, unsaid.trans journal, only', sources', fun q hq => ⟨kept q hq, ?_⟩⟩
        · rw [racks, list, if_neg unused, List.append_nil]
        · rw [Chip.point, racks]; exact (rest q (by omega)).2
  obtain ⟨list, journal, -⟩ := loop 64 (Nat.le_refl _)
  exact ⟨list, journal⟩

theorem Chip.lineUpInForce_reaches (c : Chip) : Reaches [.lineUp] c c.lineUpInForce := c.setLineUp_reaches _

theorem Chip.lineUpInForce_channel (c : Chip) {q : Nat} (h : q < 64) :
    c.lineUpInForce.channel q = mirrorChannel c.lineUp.mirror q := by
  simp [Chip.lineUpInForce, Chip.channel, mirrorLineUp, vget, h]

/-- The first take of a line-up, in FILL: every USED position on its primary and on the pending list, no notice
raised (R11). -/
theorem Chip.takeLineUp_first {c : Chip} (h : NoSourceOut c) (u : Unset c) :
    (∀ q, q < 64 → c.takeLineUp.effective q =
        { source := if (mirrorChannel c.lineUp.mirror q).used = true then some (mirrorChannel c.lineUp.mirror q).primary
            else none
          onBackup := false })
      ∧ c.takeLineUp.rack.pendingList = (List.range 64).filter (fun q => (mirrorChannel c.lineUp.mirror q).used)
      ∧ c.takeLineUp.journal = c.journal := by
  have inForce := c.lineUpInForce_reaches
  obtain ⟨reach, healthy⟩ := Chip.takeSources_first (c := c.lineUpInForce)
    (h.of_sources (inForce.sources (by decide))) c.lineUp.current.sources 32
  have applied : c.lineUpApplied = forIndices 64 (fun d q => d.recomputeEffective .take q)
    (forIndices 32 (fun d s => d.takeSource c.lineUp.current.sources s) c.lineUpInForce) := rfl
  generalize forIndices 32 (fun d s => Chip.takeSource d c.lineUp.current.sources s) c.lineUpInForce = d
    at reach healthy applied
  have lineUp : d.lineUp = c.lineUpInForce.lineUp := reach.lineUp (by decide)
  have rack : d.rack = c.rack := (reach.rack (by decide)).trans (inForce.rack (by decide))
  have channel : d.channel = c.lineUpInForce.channel := by funext q; rw [Chip.channel, Chip.channel, lineUp]
  have untouched : Unset d := by
    refine ⟨fun q hq => ?_, fun q hq => ?_, by rw [rack, u.list]⟩
    · rw [Chip.effective, lineUp]; exact u.effective q hq
    · rw [Chip.point, rack]; exact u.points q hq
  obtain ⟨list, journal⟩ := Chip.recomputeAll_first healthy untouched
  rw [← applied] at list journal
  have evaluated : Reaches [.lineUp, .sweep] c.lineUpApplied c.takeLineUp := by
    rw [Chip.takeLineUp_eq]
    exact .ite ((Chip.evaluateList_reaches _).then (by rfl) (Chip.setSweep_reaches _ _))
      ((Chip.evaluateList_reaches _).wider (by rfl))
  have sources : c.lineUpApplied.sources = d.sources := by
    rw [applied]
    exact (forIndices_reaches (fun e q => e.recomputeEffective_reaches .take q) 64 d).sources (by decide)
  have channels : ∀ q, q < 64 → c.takeLineUp.channel q = mirrorChannel c.lineUp.mirror q := fun q hq => by
    rw [Chip.channel, Chip.takeLineUp_lineUp]
    simp [mirrorLineUp, vget, hq]
  refine ⟨fun q hq => ?_, ?_, ?_⟩
  · have inService : NoSourceOut c.takeLineUp :=
      healthy.of_sources ((evaluated.sources (by decide)).trans sources)
    rw [c.takeLineUp_effective hq, inService.effectiveOf, channels q hq]
  · rw [evaluated.rack (by decide), list]
    refine List.filter_congr fun q hq => ?_
    rw [channel, c.lineUpInForce_channel (List.mem_range.mp hq)]
  · rw [evaluated.journal (by decide), journal, reach.journal (by decide), inForce.journal (by decide)]

end Sys2Proof.Machine

namespace Sys2Proof.Machine

/-! ### The ends of PLANT and LINE-UP (R11, R72, R182) -/

theorem Chip.delivered_plant {c : Chip} (h : c.part.stage = .plant) (array : Memory) (n : Nat) :
    c.delivered array n =
      (c.setPlant { c.plant with
        mirror := c.readMirror array c.plant.mirror c.config.plant.base c.part.fillNext n }).setPart
        { c.part with fillNext := c.part.fillNext + n } := by
  rw [Chip.delivered, Chip.deliveries_plant h]
  rfl
theorem Chip.delivered_lineUp {c : Chip} (h : c.part.stage = .lineUp) (array : Memory) (n : Nat) :
    c.delivered array n =
      (c.setLineUp { c.lineUp with
        mirror := c.readMirror array c.lineUp.mirror c.config.lineUp.base c.part.fillNext n }).setPart
        { c.part with fillNext := c.part.fillNext + n } := by
  rw [Chip.delivered, Chip.deliveries_lineUp h]
  rfl

theorem Chip.endPlant_refused {c : Chip} {o : OutcomeCode} (hg : c.plant.gen = none) (h : c.checkPlant = some o) :
    c.endPlant = (c.plantOutcome o).configFault .plantTake := by
  have gen : (c.plantOutcome o).plant.gen = none := hg
  rw [Chip.endPlant, Chip.tryPlant_refused h, gen]
  rfl
theorem Chip.endPlant_taken {c : Chip} (h : c.checkPlant = none) : c.endPlant = c.takePlant.nextStage .lineUp := by
  rw [Chip.endPlant, Chip.tryPlant_taken h, c.takePlant_plant]
  rfl
theorem Chip.endLineUp_refused {c : Chip} {o : OutcomeCode} (hg : c.lineUp.gen = none)
    (h : checkLineUp c.lineUp.mirror = some o) :
    c.endLineUp = (c.lineUpOutcome o).configFault .lineUpTake := by
  have gen : (c.lineUpOutcome o).lineUp.gen = none := hg
  rw [Chip.endLineUp, Chip.tryLineUp_refused h, gen]
  rfl
theorem Chip.endLineUp_taken {c : Chip} (h : checkLineUp c.lineUp.mirror = none) :
    c.endLineUp = c.takeLineUp.nextStage .subscriber := by
  rw [Chip.endLineUp, Chip.tryLineUp_taken h, c.takeLineUp_lineUp]
  rfl

theorem checkLineUp_ne_notTaken (m : Memory) : checkLineUp m ≠ some .notTaken := by
  unfold checkLineUp
  repeat' split
  all_goals simp

/-- The outcome word of a take never done shows the refusal code alone. -/
theorem headerWord_refused (o : OutcomeCode) : headerWord o none = o.byte.setWidth 32 := by
  rw [headerWord_eq]
  apply BitVec.eq_of_toNat_eq
  simp [num, flag]

/-- A part in CONFIG FAULT calls the host. -/
theorem Chip.attn_fault {c : Chip} (h : c.part.state = .configFault) : c.attn = true := by
  simp [Chip.attn, h]

/-- What the selections behind an operation of the part leave of the blocks other stages speak of. -/
theorem sameTime_of_reaches {bs : List Block} {s t : State} {d : Chip} (reach : Reaches bs s.chip d)
    (ht : t.chip = d.settle) (hb : Block.clock ∉ bs ∧ Block.pass ∉ bs) : SameTime s t := by
  rw [SameTime, ht, Chip.settle_clock, Chip.settle_pass]
  exact ⟨reach.clock hb.1, reach.pass hb.2⟩
theorem sameSubscribers_of_reaches {bs : List Block} {s t : State} {d : Chip} (reach : Reaches bs s.chip d)
    (ht : t.chip = d.settle) (hb : Block.subs ∉ bs ∧ Block.store ∉ bs) : SameSubscribers s t := by
  rw [SameSubscribers, ht, Chip.settle_subs, Chip.settle_store]
  exact ⟨reach.subs hb.1, reach.store hb.2⟩
theorem sameLineUp_of_reaches {bs : List Block} {s t : State} {d : Chip} (reach : Reaches bs s.chip d)
    (ht : t.chip = d.settle) (hb : Block.lineUp ∉ bs ∧ Block.sweep ∉ bs) : SameLineUp s t := by
  rw [SameLineUp, ht, Chip.settle_lineUp, Chip.settle_sweep]
  exact ⟨reach.lineUp hb.1, reach.sweep hb.2⟩
theorem sameSupervision_of_reaches {bs : List Block} {s t : State} {d : Chip} (reach : Reaches bs s.chip d)
    (ht : t.chip = d.settle)
    (hb : Block.elements ∉ bs ∧ Block.plant ∉ bs ∧ Block.sources ∉ bs ∧ Block.outages ∉ bs) : SameSupervision s t := by
  rw [SameSupervision, ht, Chip.settle_elements, Chip.settle_plant, Chip.settle_sources, Chip.settle_outages]
  obtain ⟨elements, plant, sources, outages⟩ := hb
  exact ⟨reach.elements elements, reach.plant plant, reach.sources sources, reach.outages outages⟩
/-- The orders and the journal of a part that is not RUNNING. -/
theorem sameQueues_of_reaches {bs : List Block} {s t : State} {d : Chip} (reach : Reaches bs s.chip d)
    (ht : t.chip = d.settle) (stopped : d.running = false) (hb : Block.orders ∉ bs ∧ Block.journal ∉ bs) :
    SameQueues s t := by
  rw [SameQueues, ht, Chip.settle_journal]
  exact ⟨(Chip.settle_stopped stopped).2.1.trans (reach.orders hb.1), reach.journal hb.2⟩

/-- The end of the CHECKPOINT stage (R184). -/
theorem checkpoint_ends {s : State} {n : Nat} (last : LastReads s n) (stage : s.chip.part.stage = .checkpoint) :
    let f := checkpointAt s.array (s.chip.configBase + 128)
    ∃ t, exec .tenureComplete s = .next t
      ∧ t.chip.clock = { s.chip.clock with cal := f.calendar s.chip.config }
      ∧ t.chip.part = { s.chip.part with
          stage := .plant, fillNext := 0, startView := Memory.bytes s.array (s.chip.configBase + 128) 32
          startBlank := f.blank, heldHead := (f.indices s.chip.config).1, heldTail := (f.indices s.chip.config).2 }
      ∧ SameSupervision s t ∧ SameSubscribers s t ∧ SameLineUp s t ∧ SameQueues s t ∧ t.chip.pass = s.chip.pass
      ∧ t.array = s.array ∧ t.pending = s.pending := by
  obtain ⟨t, ends, chip, array, pending⟩ := exec_tenureComplete_last last
  have staged : s.chip.tenureEnded.part.stage = .checkpoint := stage
  have delivered := Chip.delivered_checkpoint staged s.array n
  have reach : Reaches [.path, .engine, .part] s.chip (s.chip.tenureEnded.delivered s.array n) := by
    rw [delivered]
    exact s.chip.tenureEnded_reaches.then (by rfl) (Chip.setPart_reaches _ _)
  have part : (s.chip.tenureEnded.delivered s.array n).part =
      { s.chip.part with fillNext := s.chip.part.fillNext + n } := by rw [delivered]; rfl
  generalize s.chip.tenureEnded.delivered s.array n = d at chip reach part
  have endStage : d.endStage s.array = d.endCheckpoint s.array := by rw [Chip.endStage, part, stage]
  rw [endStage] at chip
  have base : d.configBase = s.chip.configBase := by rw [Chip.configBase, part, ← Chip.configBase]
  have config : d.config = s.chip.config := by rw [Chip.config, part, ← Chip.config]
  have whole : Reaches [.path, .engine, .part, .clock] s.chip (d.endCheckpoint s.array) :=
    reach.then (by rfl) (Chip.endCheckpoint_reaches _ _)
  have ended := d.endCheckpoint_part s.array
  rw [base, config, part] at ended
  have stopped : (d.endCheckpoint s.array).running = false :=
    Chip.running_fill (by rw [ended]; exact last.1)
  refine ⟨t, ends, ?_, ?_, sameSupervision_of_reaches whole chip (by decide),
    sameSubscribers_of_reaches whole chip (by decide), sameLineUp_of_reaches whole chip (by decide),
    sameQueues_of_reaches whole chip stopped (by decide), ?_, array, pending⟩
  · rw [chip, Chip.settle_clock, Chip.endCheckpoint_clock, base, config, reach.clock (by decide)]
  · rw [chip, Chip.settle_part, ended]
  · rw [chip, Chip.settle_pass]; exact whole.pass (by decide)

end Sys2Proof.Machine

namespace Sys2Proof.Machine

theorem Chip.nextStage_part (c : Chip) (g : FillStage) :
    (c.nextStage g).part = { c.part with stage := g, fillNext := 0 } := rfl

theorem Chip.readMirror_congr {c d : Chip} (h : d.part = c.part) : d.readMirror = c.readMirror := by
  funext array mirror base k n
  rw [Chip.readMirror, Chip.readMirror, Chip.deliverTo_congr h]

/-- The part at the end of the PLANT reads: the mirror read, and the place of the next read moved. -/
theorem Chip.plantRead {c : Chip} (stage : c.part.stage = .plant) (array : Memory) (n : Nat) :
    let d := c.tenureEnded.delivered array n
    Reaches [.path, .engine, .part, .plant] c d ∧ d.part = { c.part with fillNext := c.part.fillNext + n }
      ∧ d.plant = { c.plant with
          mirror := c.readMirror array c.plant.mirror c.config.plant.base c.part.fillNext n } := by
  have staged : c.tenureEnded.part.stage = .plant := stage
  dsimp only
  rw [Chip.delivered_plant staged, Chip.readMirror_congr (c := c) rfl]
  exact ⟨(c.tenureEnded_reaches.then (by rfl) (Chip.setPlant_reaches _ _) (bs := [.path, .engine, .plant])).then
    (by rfl) (Chip.setPart_reaches _ _), rfl, rfl⟩
theorem Chip.lineUpRead {c : Chip} (stage : c.part.stage = .lineUp) (array : Memory) (n : Nat) :
    let d := c.tenureEnded.delivered array n
    Reaches [.path, .engine, .part, .lineUp] c d ∧ d.part = { c.part with fillNext := c.part.fillNext + n }
      ∧ d.lineUp = { c.lineUp with
          mirror := c.readMirror array c.lineUp.mirror c.config.lineUp.base c.part.fillNext n } := by
  have staged : c.tenureEnded.part.stage = .lineUp := stage
  dsimp only
  rw [Chip.delivered_lineUp staged, Chip.readMirror_congr (c := c) rfl]
  exact ⟨(c.tenureEnded_reaches.then (by rfl) (Chip.setLineUp_reaches _ _) (bs := [.path, .engine, .lineUp])).then
    (by rfl) (Chip.setPart_reaches _ _), rfl, rfl⟩

/-- The refused automatic take of PLANT (R72, R182). -/
theorem plantStage_refused {s t : State} {d : Chip} {n : Nat} {o : OutcomeCode} {m : Memory}
    (part : d.part = { s.chip.part with fillNext := s.chip.part.fillNext + n })
    (plant : d.plant = { s.chip.plant with mirror := m }) (gen : s.chip.plant.gen = none)
    (elements : d.elements = s.chip.elements) (refused : d.checkPlant = some o) (chip : t.chip = d.endPlant.settle) :
    (t.chip.part = { s.chip.part with
        state := .configFault, fault := .plantTake, fillNext := s.chip.part.fillNext + n, marks := [] }
      ∧ t.chip.attn = true) ∧ t.chip.plant = { mirror := m, gen := none, outcome := o }
      ∧ t.chip.elements = s.chip.elements ∧ t.chip.merged .plantOutcome = some (o.byte.setWidth 32) := by
  have none : d.plant.gen = none := by rw [plant]; exact gen
  have code : o ≠ .notTaken := fun e => d.checkPlant_ne_notTaken (e ▸ refused)
  rw [Chip.endPlant_refused none refused] at chip
  have parts : t.chip.part = { s.chip.part with
      state := .configFault, fault := .plantTake, fillNext := s.chip.part.fillNext + n, marks := [] } := by
    have set : ((d.plantOutcome o).configFault .plantTake).part =
        { d.part with state := .configFault, fault := .plantTake, marks := [] } := rfl
    rw [chip, Chip.settle_part, set, part]
  have plants : t.chip.plant = { mirror := m, gen := .none, outcome := o } := by
    have set : ((d.plantOutcome o).configFault .plantTake).plant = { d.plant with outcome := o } := rfl
    rw [chip, Chip.settle_plant, set, plant]
    simp only [gen]
  have fault : t.chip.part.state = .configFault := by rw [parts]
  refine ⟨⟨parts, Chip.attn_fault fault⟩, plants, ?_, ?_⟩
  · have set : ((d.plantOutcome o).configFault .plantTake).elements = d.elements := rfl
    rw [chip, Chip.settle_elements, set, elements]
  · rw [(Chip.merged_outcomes_fault fault).2 (by rw [plants]) (by rw [plants]; exact code), plants, headerWord_refused]

/-- The automatic take of PLANT (R72). -/
theorem plantStage_taken {s t : State} {d : Chip} {n : Nat} {m : Memory}
    (part : d.part = { s.chip.part with fillNext := s.chip.part.fillNext + n }) (fill : s.chip.part.state = .fill)
    (plant : d.plant = { s.chip.plant with mirror := m })
    (elements : d.elements = s.chip.elements) (branches : d.branches = s.chip.branches) (taken : d.checkPlant = none)
    (chip : t.chip = d.endPlant.settle) :
    t.chip.part = { s.chip.part with stage := .lineUp, fillNext := 0 }
      ∧ t.chip.plant = { mirror := m, gen := some (takeWord m), outcome := .done }
      ∧ ((∀ e, e < 640 → s.chip.element e = Element.reset) → (∀ b, b < 4 → (s.chip.branch b).repoll = []) →
        (∀ e, e < 640 → t.chip.element e = { Element.reset with record := mirrorElement m e })
          ∧ ∀ b, b < 4 → (t.chip.branch b).repoll = (List.range 640).filter fun e =>
              decide (4 ≤ e) && (mirrorElement m e).inUse && t.chip.branchOf e == b) := by
  rw [Chip.endPlant_taken taken] at chip
  have stopped : d.running = false := Chip.running_fill (by rw [part]; exact fill)
  have parts : d.takePlant.part = d.part := d.takePlant_reaches.part (by decide)
  have next : Reaches [.part] d.takePlant (d.takePlant.nextStage .lineUp) := Chip.nextStage_reaches _ _
  have idle : (d.takePlant.nextStage .lineUp).running = false := by
    refine Chip.running_fill ?_
    rw [Chip.nextStage_part, parts, part]; exact fill
  have mirror : d.plant.mirror = m := by rw [plant]
  refine ⟨?_, ?_, fun fresh empty => ?_⟩
  · rw [chip, Chip.settle_part, Chip.nextStage_part, parts, part]
  · rw [chip, Chip.settle_plant, next.plant (by decide), d.takePlant_plant, plant]
  · obtain ⟨mirrored, lists⟩ := Chip.takePlant_first stopped
      (fun e he => by rw [Chip.element, elements]; exact fresh e he)
      (fun b hb => by rw [Chip.branch, branches]; exact empty b hb)
    rw [mirror] at mirrored lists
    have units : t.chip.elements = d.takePlant.elements := by
      rw [chip, Chip.settle_elements, next.elements (by decide)]
    have branchOf : t.chip.branchOf = d.takePlant.branchOf := by
      funext e; rw [Chip.branchOf, Chip.branchOf, units]
    refine ⟨mirrored.of_elements units, fun b hb => ?_⟩
    rw [branchOf, ← lists b hb, chip, (Chip.settle_stopped idle).2.2.1 b, Chip.branch, next.branches (by decide),
      ← Chip.branch]

/-- The refused automatic take of LINE-UP (R11, R182). -/
theorem lineUpStage_refused {s t : State} {d : Chip} {n : Nat} {o : OutcomeCode} {m : Memory}
    (part : d.part = { s.chip.part with fillNext := s.chip.part.fillNext + n })
    (lineUp : d.lineUp = { s.chip.lineUp with mirror := m }) (gen : s.chip.lineUp.gen = none)
    (refused : checkLineUp m = some o) (chip : t.chip = d.endLineUp.settle) :
    (t.chip.part = { s.chip.part with
        state := .configFault, fault := .lineUpTake, fillNext := s.chip.part.fillNext + n, marks := [] }
      ∧ t.chip.attn = true) ∧ t.chip.lineUp = { s.chip.lineUp with mirror := m, outcome := o }
      ∧ t.chip.merged .lineUpOutcome = some (o.byte.setWidth 32) := by
  have none : d.lineUp.gen = none := by rw [lineUp]; exact gen
  have code : o ≠ .notTaken := fun e => checkLineUp_ne_notTaken m (e ▸ refused)
  rw [Chip.endLineUp_refused none (by rw [lineUp]; exact refused)] at chip
  have parts : t.chip.part = { s.chip.part with
      state := .configFault, fault := .lineUpTake, fillNext := s.chip.part.fillNext + n, marks := [] } := by
    have set : ((d.lineUpOutcome o).configFault .lineUpTake).part =
        { d.part with state := .configFault, fault := .lineUpTake, marks := [] } := rfl
    rw [chip, Chip.settle_part, set, part]
  have lineUps : t.chip.lineUp = { s.chip.lineUp with mirror := m, outcome := o } := by
    have set : ((d.lineUpOutcome o).configFault .lineUpTake).lineUp = { d.lineUp with outcome := o } := rfl
    rw [chip, Chip.settle_lineUp, set, lineUp]
  have fault : t.chip.part.state = .configFault := by rw [parts]
  refine ⟨⟨parts, Chip.attn_fault fault⟩, lineUps, ?_⟩
  rw [(Chip.merged_outcomes_fault fault).1 (by rw [lineUps]; exact gen) (by rw [lineUps]; exact code), lineUps,
    headerWord_refused]

/-- The automatic take of LINE-UP (R11). -/
theorem lineUpStage_taken {s t : State} {d : Chip} {n : Nat} {m : Memory}
    (part : d.part = { s.chip.part with fillNext := s.chip.part.fillNext + n }) (fill : s.chip.part.state = .fill)
    (lineUp : d.lineUp = { s.chip.lineUp with mirror := m }) (sources : d.sources = s.chip.sources)
    (rack : d.rack = s.chip.rack) (journal : d.journal = s.chip.journal) (sweep : d.sweep = s.chip.sweep)
    (taken : checkLineUp m = none) (chip : t.chip = d.endLineUp.settle) :
    t.chip.part = { s.chip.part with stage := .subscriber, fillNext := 0 } ∧ t.chip.lineUp.mirror = m
      ∧ t.chip.lineUp.current = mirrorLineUp m ∧ t.chip.lineUp.gen = some (takeWord m)
      ∧ t.chip.lineUp.outcome = .done ∧ t.chip.sweep = s.chip.sweep
      ∧ (NoSourceOut s.chip → Unset s.chip →
        (∀ q, q < 64 → t.chip.effective q =
            { source := if (mirrorChannel m q).used = true then some (mirrorChannel m q).primary else none
              onBackup := false })
          ∧ t.chip.rack.pendingList = (List.range 64).filter (fun q => (mirrorChannel m q).used)
          ∧ t.chip.journal = s.chip.journal) := by
  have mirror : d.lineUp.mirror = m := by rw [lineUp]
  rw [Chip.endLineUp_taken (by rw [mirror]; exact taken)] at chip
  have stopped : d.running = false := Chip.running_fill (by rw [part]; exact fill)
  have parts : d.takeLineUp.part = d.part := d.takeLineUp_reaches.part (by decide)
  have next : Reaches [.part] d.takeLineUp (d.takeLineUp.nextStage .subscriber) := Chip.nextStage_reaches _ _
  have idle : (d.takeLineUp.nextStage .subscriber).running = false := by
    refine Chip.running_fill ?_
    rw [Chip.nextStage_part, parts, part]; exact fill
  have lineUps : t.chip.lineUp = d.takeLineUp.lineUp := by rw [chip, Chip.settle_lineUp, next.lineUp (by decide)]
  refine ⟨?_, ?_, ?_, ?_, ?_, ?_, fun healthy unset => ?_⟩
  · rw [chip, Chip.settle_part, Chip.nextStage_part, parts, part]
  iterate 3
    · rw [lineUps, Chip.takeLineUp_lineUp]
      simp only [mirror]
  · rw [lineUps, Chip.takeLineUp_lineUp]
  · rw [chip, Chip.settle_sweep, next.sweep (by decide), Chip.takeLineUp_sweep, stopped, sweep]; rfl
  · obtain ⟨effective, list, unsaid⟩ := Chip.takeLineUp_first (healthy.of_sources sources)
      (⟨fun q hq => by rw [Chip.effective, lineUp]; exact unset.effective q hq,
        fun q hq => by rw [Chip.point, rack]; exact unset.points q hq, by rw [rack, unset.list]⟩ : Unset d)
    rw [mirror] at effective list
    refine ⟨fun q hq => ?_, ?_, ?_⟩
    · rw [Chip.effective, lineUps]; exact effective q hq
    · rw [chip, (Chip.settle_stopped idle).2.2.2, next.rack (by decide), list]
    · rw [chip, Chip.settle_journal, next.journal (by decide), unsaid, journal]

end Sys2Proof.Machine

namespace Sys2Proof.Machine

/-- The ends of PLANT and LINE-UP leave the part in FILL, or in CONFIG FAULT. -/
theorem Chip.endPlant_stopped {c : Chip} (fill : c.part.state = .fill) (gen : c.plant.gen = none) :
    c.endPlant.running = false := by
  cases checked : c.checkPlant with
  | none =>
    have parts : c.takePlant.part = c.part := c.takePlant_reaches.part (by decide)
    exact Chip.running_fill (by rw [Chip.endPlant_taken checked, Chip.nextStage_part, parts]; exact fill)
  | some o => exact Chip.running_fault (by rw [Chip.endPlant_refused gen checked]; rfl)
theorem Chip.endLineUp_stopped {c : Chip} (fill : c.part.state = .fill) (gen : c.lineUp.gen = none) :
    c.endLineUp.running = false := by
  cases checked : checkLineUp c.lineUp.mirror with
  | none =>
    have parts : c.takeLineUp.part = c.part := c.takeLineUp_reaches.part (by decide)
    exact Chip.running_fill (by rw [Chip.endLineUp_taken checked, Chip.nextStage_part, parts]; exact fill)
  | some o => exact Chip.running_fault (by rw [Chip.endLineUp_refused gen checked]; rfl)

theorem Chip.endLineUp_units (c : Chip) : SameUnits c c.endLineUp := by
  unfold Chip.endLineUp
  exact .ite (c.tryLineUp_units.trans (.of_reaches (Chip.nextStage_reaches _ _) (by decide)))
    (c.tryLineUp_units.trans (.of_reaches (Chip.configFault_reaches _ _) (by decide)))

/-- Settles O23: the bytes of a burst one by one; then each stage by what its reads deliver and what its end does. -/
theorem fillTakesAndChecks : Obligations.FillTakesAndChecks := by
  refine ⟨fun c array mirror base off owned w => c.deliverTo_upTo array w base off 16 owned, ?_⟩
  intro s n last v reads stopped next
  have fill : s.chip.part.state = .fill := last.1
  have mirrored : ∀ mirror base, reads mirror base = s.chip.readMirror s.array mirror base s.chip.part.fillNext n :=
    fun mirror base => by rw [Chip.readMirror, headerOutcome_eq]
  refine ⟨fun stage => ?_, fun stage gen => ?_, fun stage gen => ?_⟩
  · intro a f bad blank head tail
    obtain ⟨t, ends, clock, part, supervision, subscribers, lineUp, queues, pass, array, pending⟩ :=
      checkpoint_ends last stage
    have blanks : (checkpointAt s.array a).blank = true ↔ blank := CheckpointFields.blank_iff _
    refine ⟨t, ends, fun isBlank => ?_, fun filled => ?_, by rw [part], supervision, subscribers, lineUp, queues, pass,
      array, pending⟩
    · have yes := blanks.mpr isBlank
      rw [clock, part, CheckpointFields.calendar, if_pos yes]
      exact ⟨rfl, yes, by rw [CheckpointFields.indices_blank yes], by rw [CheckpointFields.indices_blank yes]⟩
    · have no : (checkpointAt s.array a).blank = false := Bool.eq_false_iff.mpr fun h => filled (blanks.mp h)
      rw [clock, part, CheckpointFields.calendar, if_neg (by exact ne_true_of_eq_false no)]
      exact ⟨rfl, no, CheckpointFields.indices_tail no _,
        fun near => congrArg Prod.fst (CheckpointFields.indices_near no near),
        fun far => congrArg Prod.fst (CheckpointFields.indices_far no far)⟩
  · intro m d
    obtain ⟨t, ends, chip, array, pending⟩ := exec_tenureComplete_last last
    obtain ⟨reach, part, plant⟩ := s.chip.plantRead stage s.array n
    generalize s.chip.tenureEnded.delivered s.array n = x at chip reach part plant
    rw [← mirrored] at plant
    have endStage : x.endStage s.array = x.endPlant := by rw [Chip.endStage, part, stage]
    rw [endStage] at chip
    have elements := reach.elements (by decide)
    have checks : x.checkPlant = d.checkPlant :=
      Chip.checkPlant_congr (by rw [plant]; rfl) elements (reach.ports (by decide))
    have whole := reach.then (by rfl) x.endPlant_reaches
      (bs := [.path, .engine, .part, .subs, .ports, .branches, .elements, .plant, .outages, .journal])
    have idle := Chip.endPlant_stopped (by rw [part]; exact fill) (by rw [plant]; exact gen)
    refine ⟨t, ends, fun o refused => ?_, fun taken => ?_, sameTime_of_reaches whole chip (by decide),
      sameLineUp_of_reaches whole chip (by decide), ?_, ?_, ?_, array, pending⟩
    · exact plantStage_refused part plant gen elements (checks.trans refused) chip
    · exact plantStage_taken part fill plant elements (reach.branches (by decide)) (checks.trans taken) chip
    · rw [chip, Chip.settle_sources, whole.sources (by decide)]
    · rw [chip, Chip.settle_store, whole.store (by decide)]
    · rw [chip, (Chip.settle_stopped idle).2.1, whole.orders (by decide)]
  · intro m
    obtain ⟨t, ends, chip, array, pending⟩ := exec_tenureComplete_last last
    obtain ⟨reach, part, lineUp⟩ := s.chip.lineUpRead stage s.array n
    generalize s.chip.tenureEnded.delivered s.array n = x at chip reach part lineUp
    rw [← mirrored] at lineUp
    have endStage : x.endStage s.array = x.endLineUp := by rw [Chip.endStage, part, stage]
    rw [endStage] at chip
    have whole := reach.then (by rfl) x.endLineUp_reaches
      (bs := [.path, .engine, .part, .lineUp, .rack, .sources, .outages, .elements, .journal, .sweep])
    have idle := Chip.endLineUp_stopped (by rw [part]; exact fill) (by rw [lineUp]; exact gen)
    have units : SameUnits s.chip x.endLineUp := SameUnits.trans (.of_reaches reach (by decide)) x.endLineUp_units
    refine ⟨t, ends, fun o refused => lineUpStage_refused part lineUp gen refused chip, fun taken => ?_,
      sameTime_of_reaches whole chip (by decide), samePlant_of ?_ ?_, sameSubscribers_of_reaches whole chip (by decide),
      ?_, ?_, array, pending⟩
    · obtain ⟨parts, mirrors, current, gens, outcome, sweep, first⟩ := lineUpStage_taken part fill lineUp
        (reach.sources (by decide)) (reach.rack (by decide)) (reach.journal (by decide)) (reach.sweep (by decide)) taken chip
      exact ⟨parts, mirrors, current, gens, outcome, sweep, fun healthy effective points list =>
        first healthy ⟨effective, points, list⟩⟩
    · rw [chip, Chip.settle_plant, whole.plant (by decide)]
    · rw [chip]
      exact units.trans (.of_elements (Chip.settle_elements _))
    · rw [chip, (Chip.settle_stopped idle).1, whole.ports (by decide)]
    · rw [chip, (Chip.settle_stopped idle).2.1, whole.orders (by decide)]

end Sys2Proof.Machine

namespace Sys2Proof.Machine

/-! ### The reads of SUBSCRIBER (R38, R183) -/

/-- The intent mirrors behind n reads of the SUBSCRIBER region from read k on: the first two of a record's eight hold its
intent. -/
def Chip.readIntents (c : Chip) (array mirror : Memory) (k n : Nat) : Memory :=
  forIndices n (fun m j =>
    if (k + j) % 8 < 2 then
      c.deliverTo array m c.config.subscriber.base (16 * (k + j)) (fun _ => false)
    else m) mirror

theorem Chip.readIntents_succ (c : Chip) (array mirror : Memory) (k n : Nat) :
    c.readIntents array mirror k (n + 1) =
      if (k + n) % 8 < 2 then
        c.deliverTo array (c.readIntents array mirror k n) c.config.subscriber.base (16 * (k + n)) (fun _ => false)
      else c.readIntents array mirror k n := forIndices_succ _ _ _

/-- Record i as its eighth read fills it. -/
def Chip.filledSub (c : Chip) (array : Memory) (i : Nat) (r : Subscriber) : Subscriber :=
  let a := c.config.subscriber.base + 128 * i + 32
  { r with
    live := if c.store.queue.contains i then { liveAt array a with outcome := .pending } else liveAt array a
    dirty := c.store.queue.contains i || purchasesOdd array (a + 32)
    filled := true
    oddState := oddStateAt array a }

/-- Does a read from k to k + n - 1 fill record i? -/
def endsIn (k n i : Nat) : Prop := k ≤ 8 * i + 7 ∧ 8 * i + 7 < k + n

theorem Chip.deliver_subscriber {c : Chip} (h : c.part.stage = .subscriber) (array : Memory) (k : Nat) :
    c.deliver array k =
      if k % 8 < 2 then c.setStore
        { c.store with
          mirror := c.deliverTo array c.store.mirror c.config.subscriber.base (16 * k) fun _ => false }
      else if k % 8 = 7 then c.updSub (k / 8) (c.filledSub array (k / 8)) else c := by
  rw [Chip.deliver, h]
  rfl

/-- The reads of SUBSCRIBER reach the intent mirrors and the records they fill. -/
theorem Chip.deliveries_subscriber {c : Chip} (h : c.part.stage = .subscriber) (array : Memory) (k n : Nat)
    (hn : k + n ≤ 16384) :
    let d := forIndices n (fun d j => d.deliver array (k + j)) c
    Reaches [.store, .subs] c d
      ∧ d.store = { c.store with mirror := c.readIntents array c.store.mirror k n }
      ∧ (∀ i, endsIn k n i → d.sub i = c.filledSub array i (c.sub i))
      ∧ ∀ i, ¬ endsIn k n i → d.sub i = c.sub i := by
  induction n with
  | zero =>
    refine ⟨.same _ c, rfl, fun i hi => ?_, fun _ _ => rfl⟩
    have := hi.1
    have := hi.2
    omega
  | succ n ih =>
    obtain ⟨reach, store, filled, kept⟩ := ih (by omega)
    dsimp only
    rw [forIndices_succ, Chip.readIntents_succ]
    generalize forIndices n _ c = d at reach store filled kept ⊢
    have part : d.part = c.part := reach.part (by decide)
    have config : d.config = c.config := by rw [Chip.config, part, ← Chip.config]
    rw [Chip.deliver_subscriber (by rw [part]; exact h)]
    by_cases intent : (k + n) % 8 < 2
    · rw [if_pos intent, if_pos intent]
      refine ⟨reach.then (by rfl) (d.setStore_reaches _), ?_, fun i hi => filled i ?_, fun i hi => kept i ?_⟩
      · rw [Chip.setStore_store, store, config, Chip.deliverTo_congr part]
      · exact ⟨hi.1, by have := hi.2; omega⟩
      · exact fun hi' => hi ⟨hi'.1, by have := hi'.2; omega⟩
    · rw [if_neg intent, if_neg intent]
      by_cases ends : (k + n) % 8 = 7
      · rw [if_pos ends]
        have sub : ∀ i, (d.updSub ((k + n) / 8) (d.filledSub array ((k + n) / 8))).sub i =
            if i = (k + n) / 8 then c.filledSub array i (d.sub i) else d.sub i := fun i => by
          rw [Chip.sub, Chip.updSub, Chip.setSubs_subs, vget_vupd _ _ _ _ (by omega)]
          split
          · next here =>
            subst here
            rw [← Chip.sub, Chip.filledSub, Chip.filledSub, store, config]
          · rfl
        refine ⟨reach.then (by rfl) (d.updSub_reaches _ _), store, fun i hi => ?_, fun i hi => ?_⟩
        · rw [sub]
          obtain ⟨lower, upper⟩ := hi
          split
          · next here => rw [kept i fun hi' => by have := hi'.2; omega]
          · exact filled i ⟨lower, by omega⟩
        · rw [sub, if_neg fun here => hi ⟨by omega, by omega⟩]
          exact kept i fun hi' => hi ⟨hi'.1, by have := hi'.2; omega⟩
      · rw [if_neg ends]
        refine ⟨reach, store, fun i hi => filled i ⟨hi.1, ?_⟩, fun i hi => kept i fun hi' => hi ⟨hi'.1, ?_⟩⟩
        · have := hi.2; omega
        · have := hi'.2; omega

end Sys2Proof.Machine

namespace Sys2Proof.Machine

/-! ### A live section as the fill reads it (R38, R171) -/

theorem Memory.nat_one (m : Memory) (a : Nat) : m.nat a 1 = (m.read a).toNat := by
  simp [Memory.nat, Memory.bytes, natOfBytes]

theorem RecordState.ofCode_isNone_iff (n : Nat) : (RecordState.ofCode n).isNone = true ↔ 3 < n := by
  match n with
  | 0 | 1 | 2 | 3 => simp [RecordState.ofCode]
  | n + 4 => simp [RecordState.ofCode]
theorem RecordState.code_of_ofCode {n : Nat} {st : RecordState} (h : RecordState.ofCode n = some st) : st.code = n := by
  match n with
  | 0 | 1 | 2 | 3 => simp [RecordState.ofCode] at h; subst h; rfl
  | n + 4 => simp [RecordState.ofCode] at h

theorem oddStateAt_eq (m : Memory) (a : Nat) :
    oddStateAt m a = if 3 < m.nat (a + 1) 1 then some (m.read (a + 1)) else none := by
  simp only [oddStateAt, RecordState.ofCode_isNone_iff]

theorem Live.bytes_one (l : Live) : l.bytes[1]? = some (BitVec.ofNat 8 l.state.code) := rfl
theorem Live.bytes_set_one (l : Live) (b : Byte) : (l.bytes.set 1 b)[1]? = some b := rfl

/-- The state code shown is the one read, known or not. -/
theorem liveBytes_state {r : Subscriber} {m : Memory} {a : Nat} (live : r.live.state = (liveAt m a).state)
    (odd : r.oddState = oddStateAt m a) : r.liveBytes[1]? = some (m.read (a + 1)) := by
  unfold Subscriber.liveBytes
  cases known : RecordState.ofCode (m.nat (a + 1) 1) with
  | none =>
    have code : r.oddState = some (m.read (a + 1)) := by rw [odd, oddStateAt, known]; rfl
    rw [code]
    exact r.live.bytes_set_one _
  | some st =>
    have code : r.oddState = none := by rw [odd, oddStateAt, known]; rfl
    have state : r.live.state = st := by rw [live, liveAt, known]; rfl
    rw [code]
    refine (r.live.bytes_one).trans ?_
    rw [state, RecordState.code_of_ofCode known, Memory.nat_one, BitVec.ofNat_toNat, BitVec.setWidth_eq]

theorem purchasesOdd_iff (m : Memory) (a : Nat) :
    purchasesOdd m a = true ↔ ∃ k, k < 4 ∧ 4 < m.nat (a + 16 * k + 1) 1 := by
  simp [purchasesOdd]

/-- What a filled record holds. -/
theorem Chip.filledSub_spec (c : Chip) (array : Memory) (i : Nat) (r : Subscriber) :
    let a := c.config.subscriber.base + 128 * i + 32
    let x := c.filledSub array i r
    x.filled = true ∧ x.taken = r.taken
      ∧ (i ∈ c.store.queue → x.live = { liveAt array a with outcome := .pending })
      ∧ (i ∉ c.store.queue → x.live = liveAt array a) ∧ x.oddState = oddStateAt array a
      ∧ x.liveBytes[1]? = some (Memory.read array (a + 1))
      ∧ (x.dirty = true ↔ i ∈ c.store.queue ∨ ∃ k, k < 4 ∧ 4 < array.nat (a + 32 + 16 * k + 1) 1) := by
  refine ⟨rfl, rfl, fun queued => if_pos (by simpa using queued), fun free => if_neg (by simpa using free), rfl, ?_, ?_⟩
  · refine liveBytes_state ?_ rfl
    unfold Chip.filledSub
    dsimp only
    split <;> rfl
  · have dirty : (c.filledSub array i r).dirty =
        (c.store.queue.contains i || purchasesOdd array (c.config.subscriber.base + 128 * i + 32 + 32)) := rfl
    rw [dirty, Bool.or_eq_true, purchasesOdd_iff, List.contains_iff_mem]

/-- A filling part that still offers reads requests the bus at once where the memory state is NORMAL (R172). -/
theorem Chip.settle_requests {c : Chip} (fill : c.part.state = .fill) (reads : 0 < c.fillReads)
    (idle : c.engine.request = .idle) :
    c.settle.engine.request = if c.path.mem = .normal then .requesting else .idle := by
  have stopped := Chip.running_fill fill
  have before : Reaches [.branches, .rack] c c.armBranches.armRack :=
    (Chip.armBranches_stopped stopped).1.then (by rfl) (Chip.armRack_reaches _)
  have part := before.part (by decide)
  have path := before.path (by decide)
  have engine := before.engine (by decide)
  rw [Chip.settle, Chip.armOrders_quiet (Chip.quietOrders_stopped ((Chip.running_congr part).trans stopped))]
  generalize c.armBranches.armRack = d at part path engine
  have pending : d.transferPending = true := by
    have same : d.fillReads = c.fillReads := by
      rw [Chip.fillReads_congr (c := c) (by rw [part]) (by rw [part]) (by rw [part]), part, ← Chip.fillReads]
    simp [Chip.transferPending, same, reads]
  have active : d.active = true := by simp [Chip.active, part, fill]
  rw [← path]
  unfold Chip.requestBus
  by_cases normal : d.path.mem = .normal
  · rw [if_pos ⟨by rw [engine, idle], pending, active, normal⟩, if_pos normal]
    rfl
  · rw [if_neg fun h => normal h.2.2.2, if_neg normal, engine, idle]

end Sys2Proof.Machine

namespace Sys2Proof.Machine

theorem Chip.readIntents_congr {c d : Chip} (h : d.part = c.part) : d.readIntents = c.readIntents := by
  funext array mirror k n
  rw [Chip.readIntents, Chip.readIntents, Chip.deliverTo_congr h, Chip.config, h, ← Chip.config]
theorem Chip.filledSub_congr {c d : Chip} (h : d.part = c.part) (hs : d.store = c.store) :
    d.filledSub = c.filledSub := by
  funext array i r
  rw [Chip.filledSub, Chip.filledSub, Chip.config, h, hs, ← Chip.config]

theorem Chip.stageReads_subscriber (c : Chip) : c.stageReads .subscriber = 16384 := rfl

/-- The part behind n reads of SUBSCRIBER. -/
theorem Chip.subscriberRead {c : Chip} (stage : c.part.stage = .subscriber) (array : Memory) (n : Nat)
    (hn : c.part.fillNext + n ≤ 16384) :
    let d := c.tenureEnded.delivered array n
    Reaches [.path, .engine, .part, .store, .subs] c d ∧ d.part = { c.part with fillNext := c.part.fillNext + n }
      ∧ d.path.mem = c.path.mem ∧ d.engine.request = .idle
      ∧ d.store = { c.store with mirror := c.readIntents array c.store.mirror c.part.fillNext n }
      ∧ (∀ i, endsIn c.part.fillNext n i → d.sub i = c.filledSub array i (c.sub i))
      ∧ ∀ i, ¬ endsIn c.part.fillNext n i → d.sub i = c.sub i := by
  have staged : c.tenureEnded.part.stage = .subscriber := stage
  obtain ⟨reach, store, filled, kept⟩ := Chip.deliveries_subscriber staged array c.part.fillNext n hn
  rw [Chip.readIntents_congr (d := c.tenureEnded) (c := c) rfl] at store
  rw [Chip.filledSub_congr (d := c.tenureEnded) (c := c) rfl rfl] at filled
  have part := c.tenureEnded.delivered_part array n
  have next : Reaches [.part] (forIndices n (fun d j => d.deliver array (c.part.fillNext + j)) c.tenureEnded)
      (c.tenureEnded.delivered array n) := Chip.setPart_reaches _ _
  generalize forIndices n (fun d j => d.deliver array (c.part.fillNext + j)) c.tenureEnded = x
    at reach store filled kept next
  generalize c.tenureEnded.delivered array n = d at part next
  have sub : ∀ i, d.sub i = x.sub i := fun i => by rw [Chip.sub, next.subs (by decide), ← Chip.sub]
  refine ⟨(c.tenureEnded_reaches.then (by rfl) reach (bs := [.path, .engine, .store, .subs])).then (by rfl) next, part,
    ?_, ?_, ?_, fun i hi => (sub i).trans (filled i hi), fun i hi => (sub i).trans (kept i hi)⟩
  · rw [next.path (by decide), reach.path (by decide)]; rfl
  · rw [next.engine (by decide), reach.engine (by decide)]; rfl
  · rw [next.store (by decide), store]; rfl

/-- A tenure of reads that does not end the SUBSCRIBER stage. -/
theorem subscriberStage_continues {s : State} {n : Nat} (fill : s.chip.part.state = .fill)
    (stage : s.chip.part.stage = .subscriber) (some : 1 ≤ n) (more : s.chip.part.fillNext + n < 16384)
    (holding : s.chip.engine.request = .holding) (tenure : s.chip.engine.tenure = Option.some (readTenure n)) :
    ∃ t, exec .tenureComplete s = .next t
      ∧ t.chip.part = { s.chip.part with fillNext := s.chip.part.fillNext + n }
      ∧ t.chip.store = { s.chip.store with
          mirror := s.chip.readIntents s.array s.chip.store.mirror s.chip.part.fillNext n }
      ∧ (∀ i, endsIn s.chip.part.fillNext n i → t.chip.sub i = s.chip.filledSub s.array i (s.chip.sub i))
      ∧ (∀ i, ¬ endsIn s.chip.part.fillNext n i → t.chip.sub i = s.chip.sub i)
      ∧ t.chip.ports = s.chip.ports ∧ t.chip.fillReads = 16384 - (s.chip.part.fillNext + n)
      ∧ t.chip.engine.request = (if s.chip.path.mem = .normal then .requesting else .idle)
      ∧ SameSupervision s t ∧ SameTime s t ∧ SameLineUp s t ∧ SameQueues s t ∧ t.array = s.array
      ∧ t.pending = s.pending := by
  obtain ⟨t, ends, chip, array, pending⟩ := exec_tenureComplete_reads holding tenure
  obtain ⟨reach, part, mem, idle, store, filled, kept⟩ := Chip.subscriberRead stage s.array n (Nat.le_of_lt more)
  rw [Chip.deliverReads_eq (c := s.chip.tenureEnded) fill some] at chip
  generalize s.chip.tenureEnded.delivered s.array n = d at chip reach part mem idle store filled kept
  have reads : d.fillReads = 16384 - (s.chip.part.fillNext + n) := by
    rw [Chip.fillReads, part, if_pos fill, stage, Chip.stageReads_subscriber]
  rw [if_neg (by omega)] at chip
  have stopped : d.running = false := Chip.running_fill (by rw [part]; exact fill)
  have parts : t.chip.part = d.part := by rw [chip, Chip.settle_part]
  have sub : ∀ i, t.chip.sub i = d.sub i := fun i => by rw [Chip.sub, chip, Chip.settle_subs, ← Chip.sub]
  refine ⟨t, ends, parts.trans part, ?_, fun i hi => (sub i).trans (filled i hi), fun i hi => (sub i).trans (kept i hi),
    ?_, ?_, ?_, sameSupervision_of_reaches reach chip (by decide), sameTime_of_reaches reach chip (by decide),
    sameLineUp_of_reaches reach chip (by decide), sameQueues_of_reaches reach chip stopped (by decide), array, pending⟩
  · rw [chip, Chip.settle_store, store]
  · rw [chip, (Chip.settle_stopped stopped).1, reach.ports (by decide)]
  · rw [Chip.fillReads_congr (c := d) (by rw [parts]) (by rw [parts]) (by rw [parts]), parts, ← Chip.fillReads, reads]
  · rw [chip, Chip.settle_requests (by rw [part]; exact fill) (by omega) idle, mem]

/-- The end of the SUBSCRIBER stage: the records and intents read, then the rebuild (R38). -/
theorem subscriberStage_ends {s : State} {n : Nat} (last : LastReads s n) (stage : s.chip.part.stage = .subscriber) :
    ∃ (t : State) (c : Chip), exec .tenureComplete s = .next t
      ∧ t.chip.part = { s.chip.part with stage := .orderRing, fillNext := 0 }
      ∧ t.chip.subs = c.rebuild.subs ∧ t.chip.store = c.rebuild.store ∧ t.chip.ports = c.rebuild.ports
      ∧ Reaches [.path, .engine, .part, .store, .subs] s.chip c ∧ c.part.config = s.chip.part.config
      ∧ c.store = { s.chip.store with
          mirror := s.chip.readIntents s.array s.chip.store.mirror s.chip.part.fillNext n }
      ∧ (∀ i, i < 2048 → s.chip.part.fillNext ≤ 8 * i + 7 → c.sub i = s.chip.filledSub s.array i (s.chip.sub i))
      ∧ (∀ i, 8 * i + 7 < s.chip.part.fillNext → c.sub i = s.chip.sub i)
      ∧ SameSupervision s t ∧ SameTime s t ∧ SameLineUp s t ∧ SameQueues s t ∧ t.array = s.array := by
  obtain ⟨t, ends, chip, array, -⟩ := exec_tenureComplete_last last
  obtain ⟨fill, reads, some, -, -⟩ := last
  have whole : s.chip.part.fillNext + n = 16384 := by
    rw [Chip.fillReads, if_pos fill, stage, Chip.stageReads_subscriber] at reads
    omega
  obtain ⟨reach, part, -, -, store, filled, kept⟩ := Chip.subscriberRead stage s.array n (Nat.le_of_eq whole)
  generalize s.chip.tenureEnded.delivered s.array n = c at chip reach part store filled kept
  have endStage : c.endStage s.array = c.rebuild.nextStage .orderRing := by rw [Chip.endStage, part, stage]
  rw [endStage] at chip
  have rebuilt := c.rebuild_reaches
  have next : Reaches [.part] c.rebuild (c.rebuild.nextStage .orderRing) := Chip.nextStage_reaches _ _
  have through := (reach.then (by rfl) rebuilt (bs := [.path, .engine, .part, .store, .subs, .ports])).then (by rfl) next
    (bs := [.path, .engine, .part, .store, .subs, .ports])
  have stopped : (c.rebuild.nextStage .orderRing).running = false := by
    refine Chip.running_fill ?_
    rw [Chip.nextStage_part, rebuilt.part (by decide), part]; exact fill
  refine ⟨t, c, ends, ?_, ?_, ?_, ?_, reach, by rw [part], store, fun i hi from_ => filled i ⟨from_, by omega⟩,
    fun i before => kept i fun hi => by have := hi.1; omega, sameSupervision_of_reaches through chip (by decide),
    sameTime_of_reaches through chip (by decide), sameLineUp_of_reaches through chip (by decide),
    sameQueues_of_reaches through chip stopped (by decide), array⟩
  · rw [chip, Chip.settle_part, Chip.nextStage_part, rebuilt.part (by decide), part]
  · rw [chip, Chip.settle_subs, next.subs (by decide)]
  · rw [chip, Chip.settle_store, next.store (by decide)]
  · rw [chip, (Chip.settle_stopped stopped).1, next.ports (by decide)]

end Sys2Proof.Machine

namespace Sys2Proof.Machine

/-! ### One record of the rebuild, as a record (R38) -/

/-- A change of a record's live block, which sets the dirty mark if a field changes (R36). -/
def Subscriber.setLive (r : Subscriber) (f : Live → Live) : Subscriber :=
  if f r.live = r.live then r else { r with live := f r.live, dirty := true }

section
variable (r : Subscriber) (f : Live → Live)

theorem Subscriber.setLive_live : (r.setLive f).live = f r.live := by
  unfold Subscriber.setLive
  split
  · next same => exact same.symm
  · rfl
theorem Subscriber.setLive_taken : (r.setLive f).taken = r.taken := by unfold Subscriber.setLive; split <;> rfl
theorem Subscriber.setLive_oddState : (r.setLive f).oddState = r.oddState := by unfold Subscriber.setLive; split <;> rfl
theorem Subscriber.setLive_dirty (h : r.dirty = true) : (r.setLive f).dirty = true := by
  unfold Subscriber.setLive
  split
  · exact h
  · rfl

end

/-- What a live block holds beside its outcome, its owned port and its port summary. -/
def Live.core (l : Live) : Live :=
  { l with outcome := .notTaken, owned := none, appliedOn := false, appliedTiers := 0, confirmed := false, stuck := false }

/-- Fields that the core of a live block holds. -/
theorem Live.fields_of_core {l m : Live} (h : l.core = m.core) :
    l.state = m.state ∧ l.tierAmount = m.tierAmount ∧ l.eventAmount = m.eventAmount ∧ l.remainder = m.remainder
      ∧ l.heldMinutes = m.heldMinutes ∧ l.heldNumerator = m.heldNumerator ∧ l.outSince = m.outSince
      ∧ l.saturated = m.saturated ∧ l.purchases = m.purchases := by
  cases l
  cases m
  simp only [Live.core, Live.mk.injEq] at h
  tauto

/-- A record whose unknown state code is taken as FREE. -/
def Subscriber.knownState (r : Subscriber) : Subscriber :=
  if r.oddState.isSome then { r with live := r.live.asFree, dirty := true, oddState := none } else r

/-- A record that joins the take queue shows PENDING, unless it is queued already. -/
def Subscriber.pend (r : Subscriber) (queued : Bool) : Subscriber :=
  if queued then r else r.setLive fun l => { l with outcome := .pending }

/-- A record with the taken intent of its mirror. -/
def Subscriber.withIntent (r : Subscriber) (t : Intent) (queued : Bool) : Subscriber :=
  if t.revision = r.live.takenRev then { r with taken := t }
  else Subscriber.pend { r with taken := { t with
    tiers := r.live.appliedTiers, zone := (r.live.owned.map (·.zone)).getD t.zone } } queued

/-- A record without a port. -/
def Subscriber.disown (r : Subscriber) : Subscriber := r.setLive fun l => { l with owned := none }

/-- A record after its claim, which `ok` grants. -/
def Subscriber.withClaim (r : Subscriber) (ok : Owned → Bool) (queued : Bool) : Subscriber :=
  match r.live.owned with
  | none => r
  | some o =>
    if !r.live.state.inUse then r.disown
    else if ok o then r else Subscriber.pend { r.disown with dirty := true } queued

/-- A record without a port shows no port. -/
def Subscriber.withSummary (r : Subscriber) : Subscriber :=
  if r.live.owned.isNone then
    r.setLive fun l => { l with appliedOn := false, appliedTiers := 0, confirmed := false, stuck := false }
  else r

/-- The port a record claims: that of a record in use. -/
def Live.claim (l : Live) : Option Owned := if l.state.inUse then l.owned else none

/-- The record behind its rebuild: `ok` grants a claim, `queued` and `queued'` say whether it was on the take queue before
its intent and before its claim. -/
def Subscriber.rebuilt (r : Subscriber) (t : Intent) (ok : Owned → Bool) (queued queued' : Bool) : Subscriber :=
  ((r.knownState.withIntent t queued).withClaim ok queued').withSummary

section
variable (r : Subscriber) (t : Intent) (ok : Owned → Bool) (q q' : Bool)

theorem Subscriber.pend_core : (r.pend q).live.core = r.live.core := by
  unfold Subscriber.pend
  split
  · rfl
  · rw [Subscriber.setLive_live]; rfl
theorem Subscriber.disown_core : r.disown.live.core = r.live.core := by
  rw [Subscriber.disown, Subscriber.setLive_live]; rfl
theorem Subscriber.withIntent_core : (r.withIntent t q).live.core = r.live.core := by
  unfold Subscriber.withIntent
  split
  · rfl
  · rw [Subscriber.pend_core]
theorem Subscriber.withClaim_core : (r.withClaim ok q).live.core = r.live.core := by
  unfold Subscriber.withClaim
  split
  · rfl
  · split
    · exact r.disown_core
    · split
      · rfl
      · rw [Subscriber.pend_core]; exact r.disown_core
theorem Subscriber.withSummary_core : r.withSummary.live.core = r.live.core := by
  unfold Subscriber.withSummary
  split
  · rw [Subscriber.setLive_live]; rfl
  · rfl

theorem Subscriber.rebuilt_core : (r.rebuilt t ok q q').live.core = r.knownState.live.core := by
  rw [Subscriber.rebuilt, Subscriber.withSummary_core, Subscriber.withClaim_core, Subscriber.withIntent_core]

end

/-- The owned port of a live block and what it shows of it. -/
def Live.portView (l : Live) : Option Owned × Bool × TierSet := (l.owned, l.appliedOn, l.appliedTiers)

section
variable (r : Subscriber) (t : Intent) (ok : Owned → Bool) (q q' : Bool)

/-! ### The steps one by one -/

theorem Live.claim_of_inUse {l : Live} (h : l.state.inUse = true) : l.claim = l.owned := if_pos h
theorem Live.claim_of_idle {l : Live} (h : l.state.inUse = false) : l.claim = none := if_neg (by simp [h])

theorem Subscriber.pend_live :
    (r.pend q).live = { r.live with outcome := if q then r.live.outcome else .pending } := by
  unfold Subscriber.pend
  split
  · rfl
  · exact r.setLive_live _
theorem Subscriber.pend_taken : (r.pend q).taken = r.taken := by
  unfold Subscriber.pend
  split
  · rfl
  · exact r.setLive_taken _
theorem Subscriber.pend_oddState : (r.pend q).oddState = r.oddState := by
  unfold Subscriber.pend
  split
  · rfl
  · exact r.setLive_oddState _
theorem Subscriber.pend_dirty (h : r.dirty = true) : (r.pend q).dirty = true := by
  unfold Subscriber.pend
  split
  · exact h
  · exact r.setLive_dirty _ h

theorem Subscriber.knownState_oddState : r.knownState.oddState = none := by
  unfold Subscriber.knownState
  split
  · rfl
  · next known => simpa using known
theorem Subscriber.knownState_known (h : r.oddState = none) : r.knownState = r := by
  rw [Subscriber.knownState, h]; rfl
theorem Subscriber.knownState_odd (h : r.oddState ≠ none) :
    r.knownState = { r with live := r.live.asFree, dirty := true, oddState := none } :=
  if_pos (Option.isSome_iff_ne_none.mpr h)
theorem Subscriber.knownState_takenRev : r.knownState.live.takenRev = r.live.takenRev := by
  unfold Subscriber.knownState; split <;> rfl
theorem Subscriber.knownState_summary : r.knownState.live.appliedOn = r.live.appliedOn
    ∧ r.knownState.live.appliedTiers = r.live.appliedTiers := by
  unfold Subscriber.knownState; split <;> exact ⟨rfl, rfl⟩

theorem Subscriber.withIntent_portView : (r.withIntent t q).live.portView = r.live.portView := by
  unfold Subscriber.withIntent
  split
  · rfl
  · rw [Subscriber.pend_live]; rfl
theorem Subscriber.withIntent_taken :
    (r.withIntent t q).taken =
      if t.revision = r.live.takenRev then t
      else { t with tiers := r.live.appliedTiers, zone := (r.live.owned.map (·.zone)).getD t.zone } := by
  unfold Subscriber.withIntent
  split
  · rfl
  · rw [Subscriber.pend_taken]
theorem Subscriber.withIntent_oddState : (r.withIntent t q).oddState = r.oddState := by
  unfold Subscriber.withIntent
  split
  · rfl
  · rw [Subscriber.pend_oddState]
theorem Subscriber.withIntent_dirty (h : r.dirty = true) : (r.withIntent t q).dirty = true := by
  unfold Subscriber.withIntent
  split
  · exact h
  · exact Subscriber.pend_dirty _ _ h
theorem Subscriber.withIntent_pending (h : t.revision ≠ r.live.takenRev) (hq : q = false) :
    (r.withIntent t q).live.outcome = .pending := by
  rw [Subscriber.withIntent, if_neg h, Subscriber.pend_live, hq]; rfl
theorem Subscriber.withIntent_claim : (r.withIntent t q).live.claim = r.live.claim := by
  have state : (r.withIntent t q).live.state = r.live.state := (Live.fields_of_core (r.withIntent_core t q)).1
  have owned : (r.withIntent t q).live.owned = r.live.owned := congrArg Prod.fst (r.withIntent_portView t q)
  rw [Live.claim, Live.claim, state, owned]

/-- A record owns a port after its claim exactly where the claim is granted; it is then unchanged. -/
theorem Subscriber.withClaim_granted {o : Owned} (h : r.live.claim = some o) (granted : ok o = true) :
    r.withClaim ok q = r := by
  unfold Subscriber.withClaim
  cases used : r.live.state.inUse
  · rw [Live.claim_of_idle used] at h; cases h
  · rw [Live.claim_of_inUse used] at h
    simp [h, granted]
/-- A claim refused leaves the record without a port, dirty and pending. -/
theorem Subscriber.withClaim_refused {o : Owned} (h : r.live.claim = some o) (refused : ok o = false) :
    r.withClaim ok q = Subscriber.pend { r.disown with dirty := true } q := by
  unfold Subscriber.withClaim
  cases used : r.live.state.inUse
  · rw [Live.claim_of_idle used] at h; cases h
  · rw [Live.claim_of_inUse used] at h
    simp [h, refused]
/-- A record that claims nothing owns nothing. -/
theorem Subscriber.withClaim_none (h : r.live.claim = none) :
    r.withClaim ok q = r ∧ r.live.owned = none ∨ r.withClaim ok q = r.disown := by
  unfold Subscriber.withClaim
  cases owned : r.live.owned with
  | none => exact .inl ⟨rfl, rfl⟩
  | some o =>
    cases used : r.live.state.inUse
    · exact .inr rfl
    · rw [Live.claim_of_inUse used, owned] at h; cases h

/-- What a claim leaves of any field: a record that keeps it over a change of the live block keeps it over its claim. -/
theorem Subscriber.withClaim_keeps {P : Subscriber → Prop} (h : P r) (disowned : P r.disown)
    (refused : P (Subscriber.pend { r.disown with dirty := true } q)) : P (r.withClaim ok q) := by
  unfold Subscriber.withClaim
  split
  · exact h
  · split
    · exact disowned
    · split
      · exact h
      · exact refused

theorem Subscriber.withClaim_owned : (r.withClaim ok q).live.owned = r.live.claim.filter ok := by
  have disowned : r.disown.live.owned = none := by rw [Subscriber.disown, Subscriber.setLive_live]
  cases claim : r.live.claim with
  | none =>
    obtain ⟨same, owned⟩ | same := r.withClaim_none ok q claim
    · rw [same, owned]; rfl
    · rw [same, disowned]; rfl
  | some o =>
    cases granted : ok o
    · rw [r.withClaim_refused ok q claim granted, Subscriber.pend_live, Option.filter_some_neg (by simp [granted])]
      exact disowned
    · have used : r.live.state.inUse = true := by
        cases h : r.live.state.inUse
        · rw [Live.claim_of_idle h] at claim; cases claim
        · rfl
      rw [r.withClaim_granted ok q claim granted, ← Live.claim_of_inUse used, claim,
        Option.filter_some_pos granted]
theorem Subscriber.withClaim_taken : (r.withClaim ok q).taken = r.taken := by
  have disowned : r.disown.taken = r.taken := r.setLive_taken _
  exact r.withClaim_keeps ok q (P := fun x => x.taken = r.taken) rfl disowned ((Subscriber.pend_taken _ q).trans disowned)
theorem Subscriber.withClaim_oddState : (r.withClaim ok q).oddState = r.oddState := by
  have disowned : r.disown.oddState = r.oddState := r.setLive_oddState _
  exact r.withClaim_keeps ok q (P := fun x => x.oddState = r.oddState) rfl disowned
    ((Subscriber.pend_oddState _ q).trans disowned)
theorem Subscriber.withClaim_dirty (h : r.dirty = true) : (r.withClaim ok q).dirty = true :=
  r.withClaim_keeps ok q (P := fun x => x.dirty = true) h (r.setLive_dirty _ h) (Subscriber.pend_dirty _ _ rfl)
theorem Subscriber.withClaim_outcome (h : r.live.outcome = .pending) : (r.withClaim ok q).live.outcome = .pending := by
  have disowned : r.disown.live.outcome = .pending := by rw [Subscriber.disown, Subscriber.setLive_live]; exact h
  refine r.withClaim_keeps ok q (P := fun x => x.live.outcome = .pending) h disowned ?_
  rw [Subscriber.pend_live]
  cases q
  · rfl
  · exact disowned

theorem Subscriber.withSummary_fields : r.withSummary.taken = r.taken ∧ r.withSummary.oddState = r.oddState
    ∧ (r.dirty = true → r.withSummary.dirty = true) ∧ r.withSummary.live.outcome = r.live.outcome
    ∧ r.withSummary.live.owned = r.live.owned := by
  unfold Subscriber.withSummary
  split
  · rw [Subscriber.setLive_live]
    exact ⟨r.setLive_taken _, r.setLive_oddState _, r.setLive_dirty _, rfl, rfl⟩
  · exact ⟨rfl, rfl, id, rfl, rfl⟩

/-! ### The record behind its rebuild -/

theorem Subscriber.rebuilt_owned : (r.rebuilt t ok q q').live.owned = r.knownState.live.claim.filter ok := by
  rw [Subscriber.rebuilt, (Subscriber.withSummary_fields _).2.2.2.2, Subscriber.withClaim_owned,
    Subscriber.withIntent_claim]
theorem Subscriber.rebuilt_taken :
    (r.rebuilt t ok q q').taken =
      if t.revision = r.live.takenRev then t
      else { t with
        tiers := r.live.appliedTiers, zone := (r.knownState.live.owned.map (·.zone)).getD t.zone } := by
  rw [Subscriber.rebuilt, (Subscriber.withSummary_fields _).1, Subscriber.withClaim_taken, Subscriber.withIntent_taken,
    r.knownState_takenRev, r.knownState_summary.2]
theorem Subscriber.rebuilt_oddState : (r.rebuilt t ok q q').oddState = none := by
  rw [Subscriber.rebuilt, (Subscriber.withSummary_fields _).2.1, Subscriber.withClaim_oddState,
    Subscriber.withIntent_oddState, r.knownState_oddState]
/-- A record of unknown state is dirty. -/
theorem Subscriber.rebuilt_dirty_odd (h : r.oddState ≠ none) : (r.rebuilt t ok q q').dirty = true := by
  have known : r.knownState.dirty = true := by rw [r.knownState_odd h]
  exact (Subscriber.withSummary_fields _).2.2.1
    (Subscriber.withClaim_dirty _ _ _ (Subscriber.withIntent_dirty _ _ _ known))
/-- A record whose claim is refused is dirty. -/
theorem Subscriber.rebuilt_dirty_lost {o : Owned} (h : r.knownState.live.claim = some o) (refused : ok o = false) :
    (r.rebuilt t ok q q').dirty = true := by
  refine (Subscriber.withSummary_fields _).2.2.1 ?_
  rw [Subscriber.withClaim_refused _ ok q' (by rw [Subscriber.withIntent_claim]; exact h) refused]
  exact Subscriber.pend_dirty _ _ rfl
/-- A record newly queued shows PENDING. -/
theorem Subscriber.rebuilt_pending_revised (h : t.revision ≠ r.live.takenRev) :
    (r.rebuilt t ok false q').live.outcome = .pending := by
  rw [Subscriber.rebuilt, (Subscriber.withSummary_fields _).2.2.2.1]
  exact Subscriber.withClaim_outcome _ _ _ (Subscriber.withIntent_pending _ _ _ (by rwa [r.knownState_takenRev]) rfl)
theorem Subscriber.rebuilt_pending_lost {o : Owned} (h : r.knownState.live.claim = some o) (refused : ok o = false) :
    (r.rebuilt t ok q false).live.outcome = .pending := by
  rw [Subscriber.rebuilt, (Subscriber.withSummary_fields _).2.2.2.1,
    Subscriber.withClaim_refused _ ok false (by rw [Subscriber.withIntent_claim]; exact h) refused, Subscriber.pend_live]
  rfl
/-- A record that keeps a port keeps what it shows of it. -/
theorem Subscriber.rebuilt_summary {o : Owned} (h : (r.rebuilt t ok q q').live.owned = some o) :
    (r.rebuilt t ok q q').live.appliedOn = r.live.appliedOn
      ∧ (r.rebuilt t ok q q').live.appliedTiers = r.live.appliedTiers := by
  have granted := h
  rw [r.rebuilt_owned, Option.filter_eq_some_iff] at granted
  obtain ⟨claim, allowed⟩ := granted
  have same : (r.knownState.withIntent t q).withClaim ok q' = r.knownState.withIntent t q :=
    Subscriber.withClaim_granted _ ok q' (by rw [Subscriber.withIntent_claim]; exact claim) allowed
  have owned : (r.knownState.withIntent t q).live.owned.isNone = false := by
    have := h
    rw [Subscriber.rebuilt, (Subscriber.withSummary_fields _).2.2.2.2, same] at this
    rw [this]; rfl
  have whole : r.rebuilt t ok q q' = r.knownState.withIntent t q := by
    rw [Subscriber.rebuilt, same, Subscriber.withSummary, if_neg (by simp [owned])]
  have view := r.knownState.withIntent_portView t q
  rw [whole]
  exact ⟨(congrArg (fun x => x.2.1) view).trans r.knownState_summary.1,
    (congrArg (fun x => x.2.2) view).trans r.knownState_summary.2⟩
/-- A record without a port shows none. -/
theorem Subscriber.rebuilt_unowned (h : (r.rebuilt t ok q q').live.owned = none) :
    (r.rebuilt t ok q q').live.confirmed = false ∧ (r.rebuilt t ok q q').live.stuck = false := by
  have before := h
  rw [Subscriber.rebuilt, (Subscriber.withSummary_fields _).2.2.2.2] at before
  rw [Subscriber.rebuilt, Subscriber.withSummary, if_pos (by rw [before]; rfl), Subscriber.setLive_live]
  exact ⟨rfl, rfl⟩

end

end Sys2Proof.Machine

namespace Sys2Proof.Machine

/-! ### One record of the rebuild, in the part (R38) -/

theorem Chip.sub_updSub (c : Chip) (f : Subscriber → Subscriber) {i : Nat} (h : i < 2048) :
    (c.updSub i f).sub i = f (c.sub i) := vget_vupd_same _ _ _ h
theorem Chip.sub_updSub_other (c : Chip) (f : Subscriber → Subscriber) {i j : Nat} (h : j ≠ i) :
    (c.updSub i f).sub j = c.sub j := vget_vupd_other _ _ _ _ h
theorem Chip.sub_updLive_setLive (c : Chip) (f : Live → Live) {i : Nat} (h : i < 2048) :
    (c.updLive i f).sub i = (c.sub i).setLive f := c.sub_updSub _ h

/-- A take queue with a record appended, unless it stands there. -/
def queueWith (l : List Nat) (i : Nat) (joins : Bool) : List Nat := if joins && !l.contains i then l ++ [i] else l

/-- What one step of a record's rebuild does: the record, the take queue, and no other record. -/
structure RecordStep (c d : Chip) (i : Nat) (r : Subscriber) (l : List Nat) : Prop where
  reaches : Reaches [.subs, .store, .ports] c d
  sub : d.sub i = r
  others : ∀ j, j ≠ i → d.sub j = c.sub j
  store : d.store = { c.store with queue := l }

theorem RecordStep.of_updSub {c : Chip} {i : Nat} (h : i < 2048) (f : Subscriber → Subscriber) :
    RecordStep c (c.updSub i f) i (f (c.sub i)) c.store.queue :=
  ⟨(c.updSub_reaches i f).wider (by rfl), c.sub_updSub f h, fun _ ne => c.sub_updSub_other f ne, rfl⟩
theorem RecordStep.none (c : Chip) (i : Nat) : RecordStep c c i (c.sub i) c.store.queue :=
  ⟨.same _ c, rfl, fun _ _ => rfl, rfl⟩
theorem RecordStep.trans {c d e : Chip} {i : Nat} {r r' : Subscriber} {l l' : List Nat} (h : RecordStep c d i r l)
    (h' : RecordStep d e i r' l') : RecordStep c e i r' l' :=
  ⟨h.reaches.then (by rfl) h'.reaches, h'.sub, fun j ne => (h'.others j ne).trans (h.others j ne), by
    rw [h'.store, h.store]⟩

theorem Chip.rebuildState_step (c : Chip) {i : Nat} (h : i < 2048) :
    RecordStep c (c.rebuildState i) i (c.sub i).knownState c.store.queue := by
  unfold Chip.rebuildState Subscriber.knownState
  split
  · exact .of_updSub h _
  · exact .none c i

theorem Chip.queueTake_step (c : Chip) {i : Nat} (h : i < 2048) :
    RecordStep c (c.queueTake i) i ((c.sub i).pend (c.store.queue.contains i)) (queueWith c.store.queue i true) := by
  unfold Chip.queueTake Subscriber.pend queueWith
  cases c.store.queue.contains i
  · have queued : RecordStep c (c.setStore { c.store with queue := c.store.queue ++ [i] }) i (c.sub i)
        (c.store.queue ++ [i]) := ⟨(c.setStore_reaches _).wider (by rfl), rfl, fun _ _ => rfl, rfl⟩
    exact queued.trans (RecordStep.of_updSub h _)
  · exact .none c i

theorem Chip.rebuildIntent_step (c : Chip) {i : Nat} (h : i < 2048) :
    RecordStep c (c.rebuildIntent i) i ((c.sub i).withIntent (c.intent i) (c.store.queue.contains i))
      (queueWith c.store.queue i (decide ((c.intent i).revision ≠ (c.sub i).live.takenRev))) := by
  unfold Chip.rebuildIntent Subscriber.withIntent
  dsimp only
  by_cases same : (c.intent i).revision = (c.sub i).live.takenRev
  · rw [if_pos same, if_pos same]
    have stays : queueWith c.store.queue i (decide ((c.intent i).revision ≠ (c.sub i).live.takenRev)) =
        c.store.queue := by simp [queueWith, same]
    rw [stays]
    exact .of_updSub h _
  · rw [if_neg same, if_neg same, decide_eq_true same]
    have taken := RecordStep.of_updSub (c := c) h fun r => { r with taken := { c.intent i with
      tiers := (c.sub i).live.appliedTiers
      zone := ((c.sub i).live.owned.map (·.zone)).getD (c.intent i).zone } }
    have queued := Chip.queueTake_step (c.updSub i fun r => { r with taken := { c.intent i with
      tiers := (c.sub i).live.appliedTiers
      zone := ((c.sub i).live.owned.map (·.zone)).getD (c.intent i).zone } }) h
    rw [taken.sub] at queued
    exact taken.trans queued

/-- Has record r lost its claim, which `ok` does not grant? -/
def Subscriber.loses (r : Subscriber) (ok : Owned → Bool) : Bool := r.live.claim.any fun o => !ok o

theorem Chip.rebuildClaim_step (c : Chip) {i : Nat} (h : i < 2048) :
    RecordStep c (c.rebuildClaim i) i ((c.sub i).withClaim c.claimOk (c.store.queue.contains i))
        (queueWith c.store.queue i ((c.sub i).loses c.claimOk))
      ∧ (c.rebuildClaim i).ports = match (c.sub i).live.claim.filter c.claimOk with
        | some o => (c.setOwner o.number (some i)).ports
        | none => c.ports := by
  have quiet : queueWith c.store.queue i false = c.store.queue := by simp [queueWith]
  have disown : RecordStep c (c.updLive i fun l => { l with owned := none }) i (c.sub i).disown c.store.queue :=
    RecordStep.of_updSub h fun r => if { r.live with owned := none } = r.live then r else
      { r with live := { r.live with owned := none }, dirty := true }
  unfold Chip.rebuildClaim Subscriber.withClaim Subscriber.loses
  dsimp only
  cases owned : (c.sub i).live.owned with
  | none =>
    have idle : (c.sub i).live.claim = none := by rw [Live.claim, owned, ite_self]
    rw [idle]
    exact ⟨by simpa [quiet] using RecordStep.none c i, rfl⟩
  | some o =>
    cases used : (c.sub i).live.state.inUse
    · rw [Live.claim_of_idle used]
      exact ⟨by simpa [quiet] using disown, rfl⟩
    · rw [Live.claim_of_inUse used, owned]
      cases granted : c.claimOk o
      · have dirty := disown.trans (RecordStep.of_updSub (c := c.updLive i fun l => { l with owned := none }) h
          fun r => { r with dirty := true })
        have queued := Chip.queueTake_step ((c.updLive i fun l => { l with owned := none }).markDirty i) h
        have sub : ((c.updLive i fun l => { l with owned := none }).markDirty i).sub i =
            { (c.sub i).disown with dirty := true } := by
          rw [Chip.markDirty, Chip.sub_updSub _ _ h, disown.sub]
        rw [sub] at queued
        have lost := dirty.trans queued
        simp only [Option.any_some, granted, Bool.not_false, Bool.not_true, Bool.false_eq_true, if_false,
          Option.filter_some_neg]
        refine ⟨lost, ?_⟩
        have reach := ((c.updLive i fun l => { l with owned := none }).markDirty i).queueTake_reaches i
        exact reach.ports (by decide)
      · simp only [Option.any_some, granted, Bool.not_true, Bool.false_eq_true, if_false, if_true, quiet,
          Option.filter_some_pos]
        refine ⟨⟨(c.setOwner_reaches _ _).wider (by rfl), rfl, fun _ _ => rfl, rfl⟩, trivial⟩

theorem Chip.rebuildSummary_step (c : Chip) {i : Nat} (h : i < 2048) :
    RecordStep c (c.rebuildSummary i) i (c.sub i).withSummary c.store.queue ∧ (c.rebuildSummary i).ports = c.ports := by
  unfold Chip.rebuildSummary Subscriber.withSummary
  split
  · exact ⟨.of_updSub h _, rfl⟩
  · exact ⟨.none c i, rfl⟩

theorem queueWith_twice (l : List Nat) (i : Nat) (a b : Bool) :
    queueWith (queueWith l i a) i b = queueWith l i (a || b) := by
  unfold queueWith
  cases a <;> cases b <;> by_cases h : i ∈ l <;> simp [h]

theorem Chip.claimOk_congr {c d : Chip} (he : d.elements = c.elements) (hp : d.ports = c.ports) :
    d.claimOk = c.claimOk := by
  funext o
  simp only [Chip.claimOk, Chip.isTap, Chip.element, Chip.port, he, hp]
theorem Chip.intent_congr {c d : Chip} (h : d.store.mirror = c.store.mirror) : d.intent = c.intent := by
  funext i
  rw [Chip.intent, Chip.intent, h]

/-- Has the intent of record i another revision than the one it took (R38)? -/
def Chip.revised (c : Chip) (i : Nat) : Bool := decide ((c.intent i).revision ≠ (c.sub i).live.takenRev)

/-- The rebuild of one record: the record, the take queue, and the port whose claim is granted. -/
theorem Chip.rebuildRecord_step (c : Chip) {i : Nat} (h : i < 2048) :
    RecordStep c (c.rebuildRecord i) i
        ((c.sub i).rebuilt (c.intent i) c.claimOk (c.store.queue.contains i)
          ((queueWith c.store.queue i (c.revised i)).contains i))
        (queueWith c.store.queue i (c.revised i || (c.sub i).knownState.loses c.claimOk))
      ∧ (c.rebuildRecord i).ports = match (c.sub i).knownState.live.claim.filter c.claimOk with
        | some o => vupd c.ports o.number fun r => { r with owner := some i }
        | none => c.ports := by
  have known := c.rebuildState_step h
  have reach := c.rebuildState_reaches i
  have intent := (c.rebuildState i).rebuildIntent_step h
  have reach' := (c.rebuildState i).rebuildIntent_reaches i
  have intents : (c.rebuildState i).intent = c.intent := Chip.intent_congr (by rw [reach.store (by decide)])
  rw [known.sub, known.store, intents, (c.sub i).knownState_takenRev] at intent
  obtain ⟨claim, ports⟩ := ((c.rebuildState i).rebuildIntent i).rebuildClaim_step h
  have ports' : ((c.rebuildState i).rebuildIntent i).ports = c.ports :=
    (reach'.ports (by decide)).trans (reach.ports (by decide))
  have oks : ((c.rebuildState i).rebuildIntent i).claimOk = c.claimOk :=
    Chip.claimOk_congr ((reach'.elements (by decide)).trans (reach.elements (by decide))) ports'
  rw [intent.sub, intent.store, oks] at claim
  rw [intent.sub, oks, ports', Subscriber.withIntent_claim] at ports
  obtain ⟨summary, kept⟩ := (((c.rebuildState i).rebuildIntent i).rebuildClaim i).rebuildSummary_step h
  rw [claim.sub, claim.store] at summary
  have loses : ((c.sub i).knownState.withIntent (c.intent i) (c.store.queue.contains i)).loses c.claimOk =
      (c.sub i).knownState.loses c.claimOk := by
    rw [Subscriber.loses, Subscriber.withIntent_claim, ← Subscriber.loses]
  have whole := known.trans (intent.trans (claim.trans summary))
  rw [loses] at whole
  refine ⟨?_, kept.trans (ports.trans ?_)⟩
  · rw [← queueWith_twice]
    exact whole
  · cases (c.sub i).knownState.live.claim.filter c.claimOk with
    | none => rfl
    | some o =>
      show (((c.rebuildState i).rebuildIntent i).setOwner o.number (some i)).ports = _
      rw [Chip.setOwner, Chip.updPort, Chip.setPorts_ports, ports']

end Sys2Proof.Machine

namespace Sys2Proof.Machine

/-! ### Claims (R38) -/

/-- Can record i claim port p: is it in use, and p the port its live block records, on an in-use TAP? -/
def Chip.eligible (c : Chip) (i p : Nat) : Prop :=
  ∃ o, (c.sub i).knownState.live.claim = some o ∧ o.number = p ∧ c.isTap o.element = true

/-- Does record i win port p: the first in index order that can claim it? -/
def Chip.wins (c : Chip) (i p : Nat) : Prop := c.eligible i p ∧ ∀ j, j < i → ¬ c.eligible j p

/-- Does record i lose its claim? -/
def Chip.fails (c : Chip) (i : Nat) : Prop :=
  ∃ o, (c.sub i).knownState.live.claim = some o ∧ ¬ c.wins i o.number

/-- Owned ports of live blocks have a port number of a tap. -/
def PortsInRange (c : Chip) : Prop := ∀ i o, (c.sub i).live.owned = some o → o.port < 4

theorem Subscriber.claim_iff (r : Subscriber) (o : Owned) :
    r.knownState.live.claim = some o ↔
      r.oddState = none ∧ r.live.state.inUse = true ∧ r.live.owned = some o := by
  by_cases known : r.oddState = none
  · rw [r.knownState_known known]
    cases used : r.live.state.inUse
    · simp [Live.claim_of_idle used]
    · simp [Live.claim_of_inUse used, known]
  · rw [r.knownState_odd known]
    simp [known, Live.claim, Live.asFree, Live.free, RecordState.inUse]

theorem Chip.isTap_range {c : Chip} {e : Nat} (h : c.isTap e = true) : e < 640 := by
  by_contra out
  rw [Chip.isTap, Chip.element, vget_outside _ (Nat.le_of_not_lt out)] at h
  exact absurd h (by decide)

/-- A record claims one port. -/
theorem Chip.eligible_unique {c : Chip} {i p p' : Nat} (h : c.eligible i p) (h' : c.eligible i p') : p = p' := by
  obtain ⟨o, claim, number, -⟩ := h
  obtain ⟨o', claim', number', -⟩ := h'
  obtain rfl : o = o' := Option.some.inj (claim.symm.trans claim')
  exact number.symm.trans number'

theorem Chip.eligible_range {c : Chip} (ports : PortsInRange c) {i p : Nat} (h : c.eligible i p) : p < 2560 := by
  obtain ⟨o, claim, rfl, tap⟩ := h
  have element := Chip.isTap_range tap
  have port := ports i o (((c.sub i).claim_iff o).mp claim).2.2
  rw [Owned.number]
  omega

/-- Where some record below n can claim a port, one of them wins it. -/
theorem Chip.exists_wins {c : Chip} {n p : Nat} (h : ∃ j, j < n ∧ c.eligible j p) : ∃ i, i < n ∧ c.wins i p := by
  classical
  have some_ : ∃ j, c.eligible j p := h.imp fun _ x => x.2
  obtain ⟨j, hj, can⟩ := h
  exact ⟨Nat.find some_, Nat.lt_of_le_of_lt (Nat.find_min' some_ can) hj, Nat.find_spec some_, fun k hk =>
    Nat.find_min some_ hk⟩

/-! ### The loop over the records -/

/-- Record i stands as its rebuild leaves it, its claim granted exactly where it wins. -/
def RecordDone (c : Chip) (i : Nat) (r : Subscriber) : Prop :=
  ∃ ok q q', r = (c.sub i).rebuilt (c.intent i) ok q q'
    ∧ ∀ o, (c.sub i).knownState.live.claim = some o → (ok o = true ↔ c.wins i o.number)

/-- The records below n are rebuilt: they stand as their rebuild leaves them, the ports they win are theirs, and those
of another revision or a lost claim have joined the take queue in index order. -/
structure RecordsDone (c d : Chip) (n : Nat) : Prop where
  reaches : Reaches [.subs, .store, .ports] c d
  mirror : d.store = { c.store with queue := d.store.queue }
  done : ∀ i, i < n → RecordDone c i (d.sub i)
  rest : ∀ i, n ≤ i → d.sub i = c.sub i
  owners : ∀ p, p < 2560 → ∀ i, (d.port p).owner = some i ↔ i < n ∧ c.wins i p
  queue : ∃ added, d.store.queue = c.store.queue ++ added ∧ added.Pairwise (· < ·)
    ∧ (∀ i, i ∈ added ↔ i < n ∧ i ∉ c.store.queue ∧ (c.revised i = true ∨ c.fails i))
    ∧ ∀ i ∈ added, (d.sub i).live.outcome = .pending

theorem RecordsDone.start {c : Chip} (free : ∀ p, p < 2560 → (c.port p).owner = none) : RecordsDone c c 0 where
  reaches := .same _ c
  mirror := rfl
  done i h := absurd h (Nat.not_lt_zero i)
  rest _ _ := rfl
  owners p hp i := by simp [free p hp]
  queue := ⟨[], by simp, .nil, by simp, by simp⟩

/-- A claim is granted exactly where the record wins its port. -/
theorem RecordsDone.claimOk {c d : Chip} {n : Nat} (h : RecordsDone c d n) (ports : PortsInRange c) {o : Owned}
    (claim : (c.sub n).knownState.live.claim = some o) : d.claimOk o = true ↔ c.wins n o.number := by
  have tap : d.isTap o.element = c.isTap o.element := by
    simp only [Chip.isTap, Chip.element, h.reaches.elements (by decide)]
  have mine : c.eligible n o.number ↔ c.isTap o.element = true := by
    refine ⟨fun ⟨o', claim', _, tap⟩ => ?_, fun tap => ⟨o, claim, rfl, tap⟩⟩
    obtain rfl : o = o' := Option.some.inj (claim.symm.trans claim')
    exact tap
  rw [Chip.claimOk, Bool.and_eq_true, tap, ← mine, Chip.wins]
  refine and_congr_right fun can => ?_
  have range := Chip.eligible_range ports can
  rw [Option.isNone_iff_eq_none, Option.eq_none_iff_forall_not_mem]
  refine ⟨fun none j hj can' => ?_, fun first i owner => ?_⟩
  · obtain ⟨i, hi, win⟩ := Chip.exists_wins ⟨j, hj, can'⟩
    exact none i ((h.owners _ range i).mpr ⟨hi, win⟩)
  · obtain ⟨hi, win⟩ := (h.owners _ range i).mp owner
    exact first i hi win.1

/-- A take queue to which the records below n that P names have been added, in index order, takes in record n where P
names it. -/
theorem queueWith_append {q added : List Nat} {n : Nat} {P : Nat → Prop} {joins : Bool} (sorted : added.Pairwise (· < ·))
    (members : ∀ i, i ∈ added ↔ i < n ∧ i ∉ q ∧ P i) (hj : joins = true ↔ P n) :
    ∃ added', queueWith (q ++ added) n joins = q ++ added' ∧ added'.Pairwise (· < ·)
      ∧ (∀ i, i ∈ added' ↔ i < n + 1 ∧ i ∉ q ∧ P i) ∧ ∀ i ∈ added', i ∈ added ∨ (i = n ∧ n ∉ q ++ added ∧ P n) := by
  have later : n ∉ added := fun mem => absurd ((members n).mp mem).1 (Nat.lt_irrefl n)
  by_cases new : n ∉ q ∧ P n
  · obtain ⟨unqueued, named⟩ := new
    have fresh : n ∉ q ++ added := by simp [unqueued, later]
    refine ⟨added ++ [n], ?_, ?_, fun i => ?_, fun i mem => ?_⟩
    · rw [hj.mpr named, ← List.append_assoc]
      simp [queueWith, unqueued, later]
    · rw [List.pairwise_append]
      refine ⟨sorted, List.pairwise_singleton _ _, fun a ha b hb => ?_⟩
      rw [List.mem_singleton.mp hb]
      exact ((members a).mp ha).1
    · rw [List.mem_append, List.mem_singleton, members]
      constructor
      · rintro (⟨hi, rest⟩ | rfl)
        · exact ⟨by omega, rest⟩
        · exact ⟨Nat.lt_succ_self _, unqueued, named⟩
      · rintro ⟨hi, rest⟩
        by_cases here : i = n
        · exact .inr here
        · exact .inl ⟨by omega, rest⟩
    · rw [List.mem_append, List.mem_singleton] at mem
      exact mem.imp_right fun here => ⟨here, fresh, named⟩
  · refine ⟨added, ?_, sorted, fun i => ?_, fun i mem => .inl mem⟩
    · by_cases mem : n ∈ q
      · simp [queueWith, mem]
      · have stays : joins = false := by
          rw [← Bool.not_eq_true, hj]
          exact fun named => new ⟨mem, named⟩
        simp [queueWith, stays]
    · rw [members]
      refine ⟨fun ⟨hi, rest⟩ => ⟨by omega, rest⟩, fun ⟨hi, rest⟩ => ⟨?_, rest⟩⟩
      have : i ≠ n := fun e => new (e ▸ rest)
      omega

/-- A record newly queued by its rebuild shows PENDING. -/
theorem Subscriber.rebuilt_pending {r : Subscriber} {t : Intent} {ok : Owned → Bool} {q : List Nat} {i : Nat}
    (fresh : i ∉ q)
    (reason : t.revision ≠ r.live.takenRev ∨ ∃ o, r.knownState.live.claim = some o ∧ ok o = false) :
    (r.rebuilt t ok (q.contains i)
      ((queueWith q i (decide (t.revision ≠ r.live.takenRev))).contains i)).live.outcome = .pending := by
  have free : q.contains i = false := by simpa using fresh
  rw [free]
  by_cases revised : t.revision ≠ r.live.takenRev
  · exact Subscriber.rebuilt_pending_revised _ _ _ _ revised
  · have still : (queueWith q i (decide (t.revision ≠ r.live.takenRev))).contains i = false := by
      simp [revised, queueWith, fresh]
    obtain ⟨o, claim, refused⟩ := reason.resolve_left revised
    rw [still]
    exact Subscriber.rebuilt_pending_lost _ _ _ _ claim refused

section
variable {c d : Chip} {n : Nat} (h : RecordsDone c d n)
include h

/-- The owners behind one more record: where its claim is granted, the port it wins. -/
theorem RecordsDone.owners_next {e : Chip} (granted : ∀ o, (c.sub n).knownState.live.claim = some o →
      (d.claimOk o = true ↔ c.wins n o.number))
    (moved : e.ports = match (c.sub n).knownState.live.claim.filter d.claimOk with
      | some o => vupd d.ports o.number fun r => { r with owner := some n }
      | none => d.ports)
    {p : Nat} (hp : p < 2560) (i : Nat) : (e.port p).owner = some i ↔ i < n + 1 ∧ c.wins i p := by
  have now : c.wins n p ↔ ∃ o, (c.sub n).knownState.live.claim.filter d.claimOk = some o ∧ o.number = p := by
    constructor
    · intro win
      obtain ⟨o, claim, number, -⟩ := win.1
      exact ⟨o, Option.filter_eq_some_iff.mpr ⟨claim, (granted o claim).mpr (number ▸ win)⟩, number⟩
    · rintro ⟨o, kept, rfl⟩
      obtain ⟨claim, allowed⟩ := Option.filter_eq_some_iff.mp kept
      exact (granted o claim).mp allowed
  by_cases win : c.wins n p
  · obtain ⟨o, kept, number⟩ := now.mp win
    have port : (e.port p).owner = some n := by
      rw [kept] at moved
      rw [Chip.port, moved, ← number, vget_vupd_same _ _ _ (by omega)]
    rw [port]
    constructor
    · intro same
      obtain rfl : n = i := Option.some.inj same
      exact ⟨Nat.lt_succ_self _, win⟩
    · rintro ⟨hi, win'⟩
      rcases Nat.lt_or_eq_of_le (Nat.le_of_lt_succ hi) with lower | here
      · exact absurd win'.1 (win.2 i lower)
      · rw [here]
  · have port : e.port p = d.port p := by
      rw [Chip.port, moved]
      cases kept : (c.sub n).knownState.live.claim.filter d.claimOk with
      | none => rfl
      | some o => exact vget_vupd_other _ _ _ _ fun same => win (now.mpr ⟨o, kept, same.symm⟩)
    rw [port, h.owners p hp i]
    refine ⟨fun ⟨hi, w⟩ => ⟨by omega, w⟩, fun ⟨hi, w⟩ => ⟨?_, w⟩⟩
    have : i ≠ n := fun same => win (same ▸ w)
    omega

/-- One more record is rebuilt. -/
theorem RecordsDone.next (ports : PortsInRange c) (hn : n < 2048) : RecordsDone c (d.rebuildRecord n) (n + 1) := by
  obtain ⟨step, moved⟩ := d.rebuildRecord_step hn
  have record : d.sub n = c.sub n := h.rest n (Nat.le_refl n)
  have intents : d.intent = c.intent := Chip.intent_congr (by rw [h.mirror])
  have revised : d.revised n = c.revised n := by rw [Chip.revised, Chip.revised, intents, record]
  rw [record, intents, revised] at step
  rw [record] at moved
  have granted : ∀ o, (c.sub n).knownState.live.claim = some o → (d.claimOk o = true ↔ c.wins n o.number) :=
    fun o claim => h.claimOk ports claim
  have joins : (c.revised n || (c.sub n).knownState.loses d.claimOk) = true ↔ c.revised n = true ∨ c.fails n := by
    rw [Bool.or_eq_true, Subscriber.loses, Option.any_eq_true]
    refine or_congr_right (exists_congr fun o => and_congr_right fun claim => ?_)
    rw [Bool.not_eq_true', ← granted o claim, Bool.not_eq_true]
  obtain ⟨added, queue, sorted, members, pending⟩ := h.queue
  obtain ⟨added', queue', sorted', members', new⟩ :=
    queueWith_append (P := fun i => c.revised i = true ∨ c.fails i) sorted members joins
  refine ⟨h.reaches.then (by rfl) step.reaches, by rw [step.store, h.mirror], fun i hi => ?done, fun i hi => ?rest,
    fun p hp i => h.owners_next granted moved hp i,
    ⟨added', by rw [step.store, ← queue', ← queue], sorted', members', fun i mem => ?pending⟩⟩
  case done =>
    by_cases here : i = n
    · subst here
      rw [step.sub]
      exact ⟨_, _, _, rfl, granted⟩
    · rw [step.others i here]
      exact h.done i (by omega)
  case rest =>
    rw [step.others i (by omega)]
    exact h.rest i (by omega)
  case pending =>
    rcases new i mem with old | ⟨rfl, fresh, reason⟩
    · have below := ((members i).mp old).1
      rw [step.others i (by omega)]
      exact pending i old
    · rw [step.sub]
      refine Subscriber.rebuilt_pending (queue ▸ fresh) (reason.imp of_decide_eq_true ?_)
      rintro ⟨o, claim, beaten⟩
      exact ⟨o, claim, by rwa [← Bool.not_eq_true, granted o claim]⟩

end

theorem RecordsDone.all {c : Chip} (free : ∀ p, p < 2560 → (c.port p).owner = none) (ports : PortsInRange c) :
    RecordsDone c (forIndices 2048 Chip.rebuildRecord c) 2048 := by
  have loop : ∀ n, n ≤ 2048 → RecordsDone c (forIndices n Chip.rebuildRecord c) n := by
    intro n
    induction n with
    | zero => exact fun _ => .start free
    | succ n ih =>
      intro hn
      rw [forIndices_succ]
      exact (ih (by omega)).next ports (by omega)
  exact loop 2048 (Nat.le_refl _)

end Sys2Proof.Machine

namespace Sys2Proof.Machine

/-! ### The ports of the rebuild (R38) -/

/-- The applied state of a port built from its owner: the owner's summary with every position jammed. -/
def Chip.builtApplied (c : Chip) (p : Nat) : PortState :=
  match (c.port p).owner with
  | some i =>
    if (c.sub i).live.appliedOn then PortState.on (c.sub i).live.appliedTiers (BitVec.allOnes 64) else .off
  | none => .off

/-- A port built from its owner. -/
def Chip.builtPort (c : Chip) (p : Nat) : Port :=
  { c.port p with
    desired := c.desiredOf p, applied := c.builtApplied p, confirmed := false, sent := none, mismatch := 0
    condition := .parked }

/-- A record of which at most the port summary changed. -/
structure SummaryOnly (r x : Subscriber) : Prop where
  taken : x.taken = r.taken
  oddState : x.oddState = r.oddState
  dirty : r.dirty = true → x.dirty = true
  core : x.live.core = r.live.core
  owned : x.live.owned = r.live.owned
  outcome : x.live.outcome = r.live.outcome

theorem SummaryOnly.refl (r : Subscriber) : SummaryOnly r r := ⟨rfl, rfl, id, rfl, rfl, rfl⟩
theorem SummaryOnly.trans {r x y : Subscriber} (h : SummaryOnly r x) (h' : SummaryOnly x y) : SummaryOnly r y :=
  ⟨h'.taken.trans h.taken, h'.oddState.trans h.oddState, fun d => h'.dirty (h.dirty d), h'.core.trans h.core,
    h'.owned.trans h.owned, h'.outcome.trans h.outcome⟩
theorem SummaryOnly.setLive (r : Subscriber) {f : Live → Live} (core : ∀ l, (f l).core = l.core)
    (owned : ∀ l, (f l).owned = l.owned) (outcome : ∀ l, (f l).outcome = l.outcome) : SummaryOnly r (r.setLive f) where
  taken := r.setLive_taken f
  oddState := r.setLive_oddState f
  dirty := r.setLive_dirty f
  core := by rw [r.setLive_live f, core]
  owned := by rw [r.setLive_live f, owned]
  outcome := by rw [r.setLive_live f, outcome]

/-- No two ports have one owner, and every owner is a record. -/
structure OwnersApart (c : Chip) : Prop where
  once : ∀ p p' i, p < 2560 → p' < 2560 → (c.port p).owner = some i → (c.port p').owner = some i → p = p'
  range : ∀ p i, p < 2560 → (c.port p).owner = some i → i < 2048

/-- The ports below n are built from their owners. -/
structure PortsDone (c d : Chip) (n : Nat) : Prop where
  reaches : Reaches [.subs, .ports] c d
  alike : Alike (fun _ => ()) c d
  built : ∀ p, p < n → d.port p = c.builtPort p
  rest : ∀ p, n ≤ p → d.port p = c.port p
  subs : ∀ i, SummaryOnly (c.sub i) (d.sub i)
  untouched : ∀ i, (∀ p, p < n → (c.port p).owner ≠ some i) → d.sub i = c.sub i
  touched : ∀ p i, p < n → (c.port p).owner = some i →
    (d.sub i).live.confirmed = false ∧ (d.sub i).live.stuck = false

theorem PortsDone.start (c : Chip) : PortsDone c c 0 where
  reaches := .same _ c
  alike := .refl _ c
  built p h := absurd h (Nat.not_lt_zero p)
  rest _ _ := rfl
  subs _ := .refl _
  untouched _ _ := rfl
  touched p _ h := absurd h (Nat.not_lt_zero p)

/-- A summary copied from a port reaches its owner alone. -/
theorem Chip.copySummary_sub {c : Chip} {p i : Nat} (h : (c.port p).owner = some i) (hi : i < 2048) :
    SummaryOnly (c.sub i) ((c.copySummary p).sub i)
      ∧ ((c.copySummary p).sub i).live.confirmed = (c.port p).confirmed
      ∧ ((c.copySummary p).sub i).live.stuck = ((c.port p).condition == .stuck)
      ∧ ∀ j, j ≠ i → (c.copySummary p).sub j = c.sub j := by
  have copied : c.copySummary p = c.updLive i fun l =>
      { l with
        appliedOn := (c.port p).applied != .off
        appliedTiers := match (c.port p).applied with
          | .on t _ => t
          | .off => 0
        confirmed := (c.port p).confirmed
        stuck := (c.port p).condition == .stuck } := by
    simp only [Chip.copySummary, h] <;> rfl
  rw [copied, Chip.sub_updLive_setLive _ _ hi, Subscriber.setLive_live]
  exact ⟨.setLive _ (fun _ => rfl) (fun _ => rfl) fun _ => rfl, rfl, rfl,
    fun j ne => c.sub_updLive_other i j _ ne⟩
theorem Chip.copySummary_unowned {c : Chip} {p : Nat} (h : (c.port p).owner = none) : c.copySummary p = c := by
  simp only [Chip.copySummary, h]

/-! ### One port of the rebuild -/

/-- A port as the rebuild builds it, before its owner's summary follows. -/
def Chip.portPlaced (c : Chip) (p : Nat) : Chip :=
  c.updPort p fun r =>
    { r with
      desired := c.desiredOf p, applied := c.builtApplied p, confirmed := false, sent := none, mismatch := 0
      condition := .parked }

theorem Chip.rebuildPort_eq (c : Chip) (p : Nat) : c.rebuildPort p = (c.portPlaced p).copySummary p := rfl

theorem Chip.portPlaced_port (c : Chip) {n : Nat} (h : n < 2560) (p : Nat) :
    (c.portPlaced n).port p = if p = n then c.builtPort n else c.port p := by
  refine (vget_vupd c.ports n p _ h).trans ?_
  split
  · next here => rw [here]; rfl
  · rfl
theorem Chip.portPlaced_same (c : Chip) {n : Nat} (h : n < 2560) : (c.portPlaced n).port n = c.builtPort n := by
  rw [c.portPlaced_port h, if_pos rfl]

theorem Chip.rebuildPort_port (c : Chip) {n : Nat} (h : n < 2560) (p : Nat) :
    (c.rebuildPort n).port p = if p = n then c.builtPort n else c.port p := by
  rw [c.rebuildPort_eq, Chip.port_eq_of_reaches (Chip.copySummary_reaches _ _) (by decide) p, c.portPlaced_port h]
theorem Chip.rebuildPort_narrow (c : Chip) (p : Nat) : Reaches [.subs, .ports] c (c.rebuildPort p) :=
  (c.updPort_reaches _ _).then (by rfl) (Chip.copySummary_reaches (c.portPlaced p) _)
theorem Chip.rebuildPort_alike (c : Chip) (p : Nat) : Alike (fun _ => ()) c (c.rebuildPort p) := by
  have placed : Alike (fun _ => ()) c (c.portPlaced p) := .updPort c p (fun _ => rfl) fun _ => rfl
  exact placed.trans (Chip.copySummary_alike _ _ p)

/-- A port that is built shows in its owner's summary, unconfirmed and not STUCK, and in no other record. -/
theorem Chip.rebuildPort_sub (c : Chip) {n : Nat} (h : n < 2560) (range : ∀ i, (c.port n).owner = some i → i < 2048)
    (i : Nat) :
    ((c.port n).owner = some i → SummaryOnly (c.sub i) ((c.rebuildPort n).sub i)
        ∧ ((c.rebuildPort n).sub i).live.confirmed = false ∧ ((c.rebuildPort n).sub i).live.stuck = false)
      ∧ ((c.port n).owner ≠ some i → (c.rebuildPort n).sub i = c.sub i) := by
  have port := c.portPlaced_same h
  have owner : ((c.portPlaced n).port n).owner = (c.port n).owner := by rw [port]; rfl
  have sub : ∀ i, (c.portPlaced n).sub i = c.sub i := fun _ => rfl
  rw [c.rebuildPort_eq]
  cases mine : (c.port n).owner with
  | none =>
    rw [Chip.copySummary_unowned (owner.trans mine), sub]
    exact ⟨nofun, fun _ => rfl⟩
  | some j =>
    obtain ⟨only, confirmed, stuck, others⟩ := Chip.copySummary_sub (owner.trans mine) (range j mine)
    refine ⟨fun same => ?_, fun ne => ?_⟩
    · obtain rfl : j = i := Option.some.inj same
      rw [sub] at only
      refine ⟨only, ?_, ?_⟩
      · rw [confirmed, port]; rfl
      · rw [stuck, port]; rfl
    · rw [others i fun e => ne (by rw [e]), sub]

/-! ### The loop over the ports -/

section
variable {c d : Chip} {n : Nat} (h : PortsDone c d n) (apart : OwnersApart c) (hn : n < 2560)
include h apart hn

/-- The ports built before leave what the next one is built from. -/
theorem PortsDone.builtPort : d.builtPort n = c.builtPort n := by
  have port : d.port n = c.port n := h.rest n (Nat.le_refl n)
  have applied : d.builtApplied n = c.builtApplied n := by
    rw [Chip.builtApplied, Chip.builtApplied, port]
    cases owner : (c.port n).owner with
    | none => rfl
    | some i =>
      have record : d.sub i = c.sub i := h.untouched i fun p hp same => by
        have := apart.once p n i (by omega) hn same owner
        omega
      simp only [record]
  rw [Chip.builtPort, Chip.builtPort, port, applied, h.alike.desiredOf n]

/-- One more port is built. -/
theorem PortsDone.next : PortsDone c (d.rebuildPort n) (n + 1) := by
  have port : d.port n = c.port n := h.rest n (Nat.le_refl n)
  have ports := d.rebuildPort_port hn
  rw [h.builtPort apart hn] at ports
  have subs := d.rebuildPort_sub hn fun i mine => apart.range n i hn (port ▸ mine)
  rw [port] at subs
  refine ⟨h.reaches.then (by rfl) (d.rebuildPort_narrow n), h.alike.trans (d.rebuildPort_alike n), fun p hp => ?_,
    fun p hp => ?_, fun i => ?_, fun i free => ?_, fun p i hp mine => ?_⟩
  · rw [ports]
    split
    · next here => rw [here]
    · exact h.built p (by omega)
  · rw [ports, if_neg (by omega)]
    exact h.rest p (by omega)
  · by_cases mine : (c.port n).owner = some i
    · exact (h.subs i).trans ((subs i).1 mine).1
    · rw [(subs i).2 mine]
      exact h.subs i
  · rw [(subs i).2 (free n (Nat.lt_succ_self n))]
    exact h.untouched i fun p hp => free p (by omega)
  · by_cases here : (c.port n).owner = some i
    · exact ((subs i).1 here).2
    · rw [(subs i).2 here]
      have : p ≠ n := fun e => here (e ▸ mine)
      exact h.touched p i (by omega) mine

end

theorem PortsDone.all {c : Chip} (apart : OwnersApart c) : PortsDone c (forIndices 2560 Chip.rebuildPort c) 2560 := by
  have loop : ∀ n, n ≤ 2560 → PortsDone c (forIndices n Chip.rebuildPort c) n := by
    intro n
    induction n with
    | zero => exact fun _ => .start c
    | succ n ih =>
      intro hn
      rw [forIndices_succ]
      exact (ih (by omega)).next apart (by omega)
  exact loop 2560 (Nat.le_refl _)

end Sys2Proof.Machine

namespace Sys2Proof.Machine

/-! ### The rebuild (R38) -/

theorem RecordState.inUse_iff (st : RecordState) : st.inUse = true ↔ st = .active ∨ st = .suspended := by
  cases st <;> simp [RecordState.inUse]

/-- A record in use: its state code known, and ACTIVE or SUSPENDED. -/
def Subscriber.holds (r : Subscriber) : Prop := r.oddState = none ∧ r.live.state.inUse = true

theorem Subscriber.claim_of_holds {r : Subscriber} (h : r.holds) : r.knownState.live.claim = r.live.owned := by
  rw [r.knownState_known h.1, Live.claim_of_inUse h.2]
theorem Subscriber.claim_of_not_holds {r : Subscriber} (h : ¬ r.holds) : r.knownState.live.claim = none := by
  cases claim : r.knownState.live.claim with
  | none => rfl
  | some o =>
    obtain ⟨known, used, -⟩ := (r.claim_iff o).mp claim
    exact absurd ⟨known, used⟩ h

theorem Chip.eligible_iff (c : Chip) (i p : Nat) :
    c.eligible i p ↔ (c.sub i).holds ∧ ∃ o, (c.sub i).live.owned = some o ∧ o.number = p ∧ c.isTap o.element = true := by
  unfold Chip.eligible Subscriber.holds
  simp only [Subscriber.claim_iff]
  grind
theorem Chip.fails_iff (c : Chip) (i : Nat) :
    c.fails i ↔ (c.sub i).holds ∧ ∃ o, (c.sub i).live.owned = some o ∧ ¬ c.wins i o.number := by
  unfold Chip.fails Subscriber.holds
  simp only [Subscriber.claim_iff]
  grind

/-- The owners the records' rebuild sets are apart. -/
theorem RecordsDone.apart {c d : Chip} {n : Nat} (h : RecordsDone c d n) (hn : n ≤ 2048) : OwnersApart d where
  once p p' i hp hp' mine mine' :=
    Chip.eligible_unique ((h.owners p hp i).mp mine).2.1 ((h.owners p' hp' i).mp mine').2.1
  range p i hp mine := Nat.lt_of_lt_of_le ((h.owners p hp i).mp mine).1 hn

section
variable {c d : Chip} (records : RecordsDone c d 2048)
include records

/-- A record owns a port behind its rebuild exactly where the port's owner is the record. -/
theorem RecordsDone.owned {i : Nat} (hi : i < 2048) :
    ((c.sub i).holds → ¬ c.fails i → (d.sub i).live.owned = (c.sub i).live.owned)
      ∧ (c.fails i ∨ ¬ (c.sub i).holds → (d.sub i).live.owned = none)
      ∧ ∀ p, c.wins i p → ∃ o, (d.sub i).live.owned = some o ∧ o.number = p := by
  obtain ⟨ok, q, q', same, granted⟩ := records.done i hi
  rw [same, Subscriber.rebuilt_owned]
  refine ⟨fun holds kept => ?_, fun lost => ?_, fun p win => ?_⟩
  · rw [Subscriber.claim_of_holds holds]
    cases owned : (c.sub i).live.owned with
    | none => rfl
    | some o =>
      have claim := (Subscriber.claim_of_holds holds).trans owned
      refine Option.filter_some_pos ((granted o claim).mpr ?_)
      by_contra beaten
      exact kept ⟨o, claim, beaten⟩
  · by_cases holds : (c.sub i).holds
    · obtain ⟨o, claim, beaten⟩ := lost.resolve_right fun no => no holds
      rw [claim, Option.filter_some_neg]
      rwa [← Bool.not_eq_true, granted o claim]
    · rw [Subscriber.claim_of_not_holds holds]
      rfl
  · obtain ⟨o, claim, number, -⟩ := win.1
    refine ⟨o, Option.filter_eq_some_iff.mpr ⟨claim, (granted o claim).mpr (number ▸ win)⟩, number⟩

/-- The owner of a port shows what it showed. -/
theorem RecordsDone.summary {i p : Nat} (hi : i < 2048) (win : c.wins i p) :
    (d.sub i).live.appliedOn = (c.sub i).live.appliedOn ∧ (d.sub i).live.appliedTiers = (c.sub i).live.appliedTiers := by
  obtain ⟨o, owned, -⟩ := (records.owned hi).2.2 p win
  obtain ⟨ok, q, q', same, -⟩ := records.done i hi
  rw [same] at owned ⊢
  exact Subscriber.rebuilt_summary _ _ _ _ _ owned

/-- Behind the ports every record's summary is unconfirmed and not STUCK. -/
theorem RecordsDone.unconfirmed {e : Chip} (ports : PortsDone d e 2560) (range : PortsInRange c) {i : Nat}
    (hi : i < 2048) : (e.sub i).live.stuck = false ∧ (e.sub i).live.confirmed = false := by
  by_cases owns : ∃ p, p < 2560 ∧ c.wins i p
  · obtain ⟨p, hp, win⟩ := owns
    obtain ⟨confirmed, stuck⟩ := ports.touched p i hp ((records.owners p hp i).mpr ⟨hi, win⟩)
    exact ⟨stuck, confirmed⟩
  · have none : (d.sub i).live.owned = none := by
      by_cases holds : (c.sub i).holds
      · cases owned : (c.sub i).live.owned with
        | none =>
          by_cases lost : c.fails i
          · exact (records.owned hi).2.1 (.inl lost)
          · rw [(records.owned hi).1 holds lost, owned]
        | some o =>
          refine (records.owned hi).2.1 (.inl ⟨o, (Subscriber.claim_of_holds holds).trans owned, fun win => ?_⟩)
          exact owns ⟨_, Chip.eligible_range range win.1, win⟩
      · exact (records.owned hi).2.1 (.inr holds)
    have untouched := ports.untouched i fun p hp mine => owns ⟨p, hp, ((records.owners p hp i).mp mine).2⟩
    obtain ⟨ok, q, q', same, -⟩ := records.done i hi
    rw [untouched]
    rw [same] at none ⊢
    exact (Subscriber.rebuilt_unowned _ _ _ _ _ none).symm

end

/-- The rebuild takes the records, then the ports. -/
theorem Chip.rebuild_eq (c : Chip) :
    c.rebuild = forIndices 2560 Chip.rebuildPort (forIndices 2048 Chip.rebuildRecord c) := rfl

/-- The records behind the rebuild. -/
structure RecordRebuilt (c d : Chip) (i : Nat) : Prop where
  kept : c.revised i = false → (d.sub i).taken = c.intent i
  changed : c.revised i = true → (d.sub i).taken = { c.intent i with
    tiers := (c.sub i).live.appliedTiers
    zone := ((c.sub i).knownState.live.owned.map (·.zone)).getD (c.intent i).zone }
  core : (d.sub i).live.core = (c.sub i).knownState.live.core
  oddState : (d.sub i).oddState = none
  oddDirty : (c.sub i).oddState ≠ none → (d.sub i).dirty = true
  unowned : c.fails i ∨ ¬ (c.sub i).holds → (d.sub i).live.owned = none
  owned : ¬ c.fails i → (c.sub i).holds → (d.sub i).live.owned = (c.sub i).live.owned
  lostDirty : c.fails i → (d.sub i).dirty = true
  summary : (d.sub i).live.stuck = false ∧ (d.sub i).live.confirmed = false

theorem Chip.rebuild_record {c : Chip} (free : ∀ p, p < 2560 → (c.port p).owner = none) (range : PortsInRange c)
    {i : Nat} (hi : i < 2048) : RecordRebuilt c c.rebuild i := by
  have records := RecordsDone.all free range
  have ports := PortsDone.all (records.apart (Nat.le_refl _))
  have summary := records.unconfirmed ports range hi
  have owned := records.owned hi
  obtain ⟨ok, q, q', same, granted⟩ := records.done i hi
  have only := ports.subs i
  rw [← c.rebuild_eq] at only summary
  generalize forIndices 2048 Chip.rebuildRecord c = d at owned same only
  have taken := only.taken.trans ((congrArg Subscriber.taken same).trans (Subscriber.rebuilt_taken _ _ _ _ _))
  refine ⟨fun unrevised => ?_, fun revised => ?_, ?_, ?_, fun odd => only.dirty ?_, fun lost => ?_, fun kept holds => ?_,
    fun lost => only.dirty ?_, summary⟩
  · rw [taken, if_pos (by simpa [Chip.revised] using unrevised)]
  · rw [taken, if_neg (by simpa [Chip.revised] using revised)]
  · rw [only.core, same, Subscriber.rebuilt_core]
  · rw [only.oddState, same, Subscriber.rebuilt_oddState]
  · rw [same]
    exact Subscriber.rebuilt_dirty_odd _ _ _ _ _ odd
  · rw [only.owned]
    exact owned.2.1 lost
  · rw [only.owned]
    exact owned.1 holds kept
  · obtain ⟨o, claim, beaten⟩ := lost
    rw [same]
    refine Subscriber.rebuilt_dirty_lost _ _ _ _ _ claim ?_
    rw [← Bool.not_eq_true, granted o claim]
    exact beaten

/-- The take queue behind the rebuild. -/
theorem Chip.rebuild_queue {c : Chip} (free : ∀ p, p < 2560 → (c.port p).owner = none) (range : PortsInRange c) :
    ∃ added, c.rebuild.store.queue = c.store.queue ++ added ∧ added.Pairwise (· < ·)
      ∧ (∀ i, i ∈ added ↔ i < 2048 ∧ i ∉ c.store.queue ∧ (c.revised i = true ∨ c.fails i))
      ∧ ∀ i ∈ added, (c.rebuild.sub i).live.outcome = .pending := by
  have records := RecordsDone.all free range
  have ports := PortsDone.all (records.apart (Nat.le_refl _))
  obtain ⟨added, queue, sorted, members, pending⟩ := records.queue
  have store := ports.reaches.store (by decide)
  rw [c.rebuild_eq, store]
  exact ⟨added, queue, sorted, members, fun i mem => (ports.subs i).outcome.trans (pending i mem)⟩

/-- The ports behind the rebuild. -/
theorem Chip.rebuild_port {c : Chip} (free : ∀ p, p < 2560 → (c.port p).owner = none) (range : PortsInRange c) {p : Nat}
    (hp : p < 2560) :
    (∀ i, (c.rebuild.port p).owner = some i ↔ i < 2048 ∧ c.wins i p)
      ∧ (c.rebuild.port p).confirmed = false ∧ (c.rebuild.port p).sent = none ∧ (c.rebuild.port p).mismatch = 0
      ∧ (c.rebuild.port p).condition = .parked ∧ (c.rebuild.port p).desired = c.rebuild.desiredOf p
      ∧ ((c.rebuild.port p).owner = none → (c.rebuild.port p).applied = .off)
      ∧ ∀ i, (c.rebuild.port p).owner = some i → (c.rebuild.port p).applied =
          if (c.sub i).live.appliedOn = true then .on (c.sub i).live.appliedTiers (BitVec.allOnes 64) else .off := by
  have records := RecordsDone.all free range
  have ports := PortsDone.all (records.apart (Nat.le_refl _))
  have built := ports.built p hp
  have desired := ports.alike.desiredOf p
  rw [← c.rebuild_eq] at built desired
  generalize forIndices 2048 Chip.rebuildRecord c = d at records built desired
  have owner : (d.builtPort p).owner = (d.port p).owner := rfl
  have applied : (d.builtPort p).applied = d.builtApplied p := rfl
  rw [built, desired, owner, applied, Chip.builtApplied]
  refine ⟨records.owners p hp, rfl, rfl, rfl, rfl, rfl, fun unowned => by rw [unowned], fun i mine => ?_⟩
  obtain ⟨hi, win⟩ := (records.owners p hp i).mp mine
  obtain ⟨on, tiers⟩ := records.summary hi win
  rw [mine]
  simp only [on, tiers]

end Sys2Proof.Machine

namespace Sys2Proof.Machine

/-! ### The Outage Table keeps the journal ring (R154) -/

/-- The journal ring's indices are the same in two parts. -/
def SameRing (c d : Chip) : Prop := d.journal.head = c.journal.head ∧ d.journal.tail = c.journal.tail

theorem SameRing.refl (c : Chip) : SameRing c c := ⟨rfl, rfl⟩
theorem SameRing.trans {c d e : Chip} (h : SameRing c d) (h' : SameRing d e) : SameRing c e :=
  ⟨h'.1.trans h.1, h'.2.trans h.2⟩
theorem SameRing.of_reaches {bs : List Block} {c d : Chip} (h : Reaches bs c d) (hb : Block.journal ∉ bs) :
    SameRing c d := by
  have journal := h.journal hb
  exact ⟨by rw [journal], by rw [journal]⟩
theorem SameRing.ite {c d e : Chip} {p : Prop} [Decidable p] (h : SameRing c d) (h' : SameRing c e) :
    SameRing c (if p then d else e) := by split <;> assumption

theorem Chip.noticeOf_ring (c : Chip) (i : Nat) (b : EntryBody) : SameRing c (c.noticeOf i b) := by
  unfold Chip.noticeOf Chip.notice
  split <;> exact ⟨rfl, rfl⟩
theorem Chip.setOutages_ring (c : Chip) (x : OutageTable) : SameRing c (c.setOutages x) := ⟨rfl, rfl⟩
theorem Chip.setMark_ring (c : Chip) (k : OutageKind) (o : Nat) (m : Option Mark) : SameRing c (c.setMark k o m) :=
  .of_reaches (c.setMark_reaches k o m) (by decide)
theorem Chip.appendRecord_ring (c : Chip) (l : List Outage) (o : Opening) : SameRing c (c.appendRecord l o) :=
  (c.setOutages_ring _).trans (Chip.noticeOf_ring _ _ _)
theorem Chip.openNow_ring (c : Chip) (o : Opening) : SameRing c (c.openNow o) := by
  have opened := fun l => (c.setMark_ring o.kind o.object none).trans (Chip.appendRecord_ring _ l o)
  unfold Chip.openNow
  exact .ite (opened _) (.ite (opened _) (.ite (.refl c) ((c.setMark_ring _ _ _).trans (Chip.noticeOf_ring _ _ _))))
theorem Chip.openRequest_ring (c : Chip) (o : Opening) : SameRing c (c.openRequest o) := by
  unfold Chip.openRequest
  exact .ite (c.setOutages_ring _) (c.openNow_ring o)
theorem Chip.serveMarked_ring (c : Chip) : SameRing c c.serveMarked := by
  unfold Chip.serveMarked
  split
  · exact c.openNow_ring _
  · exact .refl c
theorem Chip.openWaiting_ring (c : Chip) (k : OutageKind) (o : Nat) : SameRing c (c.openWaiting k o) := by
  unfold Chip.openWaiting
  dsimp only
  split
  · exact .refl c
  · exact .ite ((c.setOutages_ring _).trans (Chip.openNow_ring _ _)) (c.setOutages_ring _)
theorem Chip.updRecord_ring (c : Chip) (id : Byte) (f : Outage → Outage) : SameRing c (c.updRecord id f) :=
  c.setOutages_ring _
theorem Chip.freeRecord_ring (c : Chip) (id : Byte) : SameRing c (c.freeRecord id) := c.setOutages_ring _
theorem Chip.recordClosed_ring (c : Chip) (r : Outage) : SameRing c (c.recordClosed r) := by
  have freed : SameRing c
      (if r.acknowledged then c.freeRecord r.id else c.updRecord r.id fun x => { x with state := .closed }) :=
    .ite (c.freeRecord_ring _) (c.updRecord_ring _ _)
  unfold Chip.recordClosed
  exact (freed.trans (Chip.serveMarked_ring _)).trans (Chip.openWaiting_ring _ _ _)
theorem Chip.closeRecord_ring (c : Chip) (r : Outage) (k : CloseCause) : SameRing c (c.closeRecord r k) := by
  have closing := (c.updRecord_ring r.id fun x => { x with state := .closing, stop := c.now, cause := k }).trans
    (Chip.noticeOf_ring _ r.object (.outageClosed r.id r.kind r.start c.now k))
  unfold Chip.closeRecord
  dsimp only
  split
  · exact closing
  · exact closing.trans (Chip.recordClosed_ring _ _)
theorem Chip.closeOf_ring (c : Chip) (k : OutageKind) (o : Nat) (p : OutageState → Bool) (w : CloseCause) :
    SameRing c (c.closeOf k o p w) := by
  unfold Chip.closeOf
  split
  · exact c.closeRecord_ring _ _
  · exact .refl c

/-! ### What a hand-over of a carrier state keeps (R60, R78) -/

/-- What the supervision of one element keeps: what R33 reads and every desired state, the journal ring, the carrier
states, and the table and supervision records of the elements K names. -/
structure Handover (K : Nat → Prop) (c d : Chip) : Prop where
  alike : Alike Port.desired c d
  ring : SameRing c d
  carriers : ∀ b, (d.branch b).carrier = (c.branch b).carrier
  units : ∀ x, K x → (d.element x).record = (c.element x).record ∧ (d.element x).sup = (c.element x).sup

section
variable {K : Nat → Prop} {c d e : Chip}

theorem Handover.refl (K : Nat → Prop) (c : Chip) : Handover K c c :=
  ⟨.refl _ c, .refl c, fun _ => rfl, fun _ _ => ⟨rfl, rfl⟩⟩
theorem Handover.trans (h : Handover K c d) (h' : Handover K d e) : Handover K c e :=
  ⟨h.alike.trans h'.alike, h.ring.trans h'.ring, fun b => (h'.carriers b).trans (h.carriers b), fun x hx =>
    ⟨(h'.units x hx).1.trans (h.units x hx).1, (h'.units x hx).2.trans (h.units x hx).2⟩⟩
theorem Handover.ite {p : Prop} [Decidable p] (h : Handover K c d) (h' : Handover K c e) :
    Handover K c (if p then d else e) := by split <;> assumption
theorem Handover.loop {f : Chip → Nat → Chip} (hf : ∀ c k, Handover K c (f c k)) (n : Nat) (c : Chip) :
    Handover K c (forIndices n f c) :=
  forIndices_keeps (P := Handover K c) n (.refl K c) fun d k _ h => h.trans (hf d k)
theorem Handover.mono {K' : Nat → Prop} (h : Handover K c d) (sub : ∀ x, K' x → K x) : Handover K' c d :=
  ⟨h.alike, h.ring, h.carriers, fun x hx => h.units x (sub x hx)⟩

theorem Handover.of_outages (h : Reaches outageBlocks c d) (ring : SameRing c d) (units : SameUnits c d) :
    Handover K c d :=
  ⟨.of_reaches h (by decide) (by decide) (by decide), ring, fun b => by
    rw [Chip.branch, h.branches (by decide), ← Chip.branch], fun x _ => units x⟩
theorem Handover.of_ports {bs : List Block} (h : Reaches bs c d) (hb : Block.journal ∉ bs ∧ Block.elements ∉ bs)
    (alike : Alike Port.desired c d) (carriers : ∀ b, (d.branch b).carrier = (c.branch b).carrier) : Handover K c d :=
  ⟨alike, .of_reaches h hb.1, carriers, fun x _ => SameUnits.of_reaches h hb.2 x⟩

end

/-- An update of one branch that keeps its carrier state. -/
theorem Chip.updBranch_carriers (c : Chip) (b : Nat) {f : Branch → Branch} (hf : ∀ r, (f r).carrier = r.carrier) (k : Nat) :
    ((c.updBranch b f).branch k).carrier = (c.branch k).carrier := vget_vupd_kept Branch.carrier hf c.branches b k

section
variable (K : Nat → Prop) (c : Chip)

theorem Chip.updBranch_handover (b : Nat) {f : Branch → Branch} (hf : ∀ r, (f r).carrier = r.carrier) :
    Handover K c (c.updBranch b f) :=
  .of_ports (c.updBranch_reaches b f) (by decide) (c.updBranch_alike _ b f) (c.updBranch_carriers b hf)
theorem Chip.updPort_handover (p : Nat) {f : Port → Port} (ho : ∀ r, (f r).owner = r.owner)
    (hd : ∀ r, (f r).desired = r.desired) : Handover K c (c.updPort p f) :=
  .of_ports (c.updPort_reaches p f) (by decide) (.updPort c p ho hd) fun _ => rfl
theorem Chip.copySummary_handover (p : Nat) : Handover K c (c.copySummary p) :=
  .of_ports (c.copySummary_reaches p) (by decide) (c.copySummary_alike _ p) fun b => by
    rw [Chip.branch, (c.copySummary_reaches p).branches (by decide), ← Chip.branch]
theorem Chip.setCondition_handover (p : Nat) (k : PortCondition) : Handover K c (c.setCondition p k) :=
  c.updPort_handover K p (fun _ => rfl) fun _ => rfl
theorem Chip.makeDirty_handover (p : Nat) : Handover K c (c.makeDirty p) :=
  (c.setCondition_handover K p .dirty).trans (Chip.updBranch_handover K _ _ fun _ => rfl)
theorem Chip.offDirty_handover (p : Nat) : Handover K c (c.offDirty p) :=
  .loop (f := fun d b => d.updBranch b fun r => { r with dirty := r.dirty.filter (· != p) })
    (fun d b => d.updBranch_handover K b fun _ => rfl) 4 c
theorem Chip.offRepoll_handover (e : Nat) : Handover K c (c.offRepoll e) :=
  .loop (f := fun d b => d.updBranch b fun r => { r with repoll := r.repoll.filter (· != e) })
    (fun d b => d.updBranch_handover K b fun _ => rfl) 4 c
theorem Chip.parkPort_handover (p : Nat) : Handover K c (c.parkPort p) := by
  unfold Chip.parkPort
  split
  · exact c.setCondition_handover K p _
  · exact (c.offDirty_handover K p).trans (Chip.setCondition_handover K _ p _)
  · exact (c.setCondition_handover K p _).trans (Chip.copySummary_handover K _ p)
  · exact .refl K c
  · exact .refl K c
theorem Chip.parkElement_handover (e : Nat) : Handover K c (c.parkElement e) :=
  .loop (fun d k => d.parkPort_handover K (e * 4 + k)) 4 c
theorem Chip.unparkPort_handover (p : Nat) : Handover K c (c.unparkPort p) := by
  have doubted : Handover K c ((c.updPort p fun r => { r with confirmed := false, mismatch := 0 }).copySummary p) :=
    (c.updPort_handover K p (f := fun r => { r with confirmed := false, mismatch := 0 }) (fun _ => rfl)
      fun _ => rfl).trans (Chip.copySummary_handover K _ p)
  unfold Chip.unparkPort
  dsimp only
  split
  · exact doubted
  · exact doubted.trans (Chip.makeDirty_handover K _ p)
  · exact doubted.trans (Chip.makeDirty_handover K _ p)
  · exact doubted.trans (Chip.makeDirty_handover K _ p)
  · exact (doubted.trans (Chip.makeDirty_handover K _ p)).trans (Chip.copySummary_handover K _ p)
theorem Chip.unparkElement_handover (e : Nat) : Handover K c (c.unparkElement e) := by
  unfold Chip.unparkElement
  exact .ite (.loop (fun d k => d.unparkPort_handover K (e * 4 + k)) 4 c) (.refl K c)
theorem Chip.updSup_handover (e : Nat) (f : SupRecord → SupRecord) : Handover (· ≠ e) c (c.updSup e f) := by
  have reach := c.updSup_reaches e f
  refine ⟨.of_reaches reach (by decide) (by decide) (by decide), .of_reaches reach (by decide), fun _ => rfl,
    fun x hx => ?_⟩
  have same : (c.updSup e f).element x = c.element x := vget_vupd_other _ _ _ _ hx
  rw [same]
  exact ⟨rfl, rfl⟩
theorem Chip.updRecord_handover (id : Byte) (f : Outage → Outage) : Handover K c (c.updRecord id f) :=
  .of_outages ((c.updRecord_reaches id f).wider (by rfl)) (c.updRecord_ring id f) (c.updRecord_units id f)
theorem Chip.openRequest_handover (o : Opening) : Handover K c (c.openRequest o) :=
  .of_outages (c.openRequest_reaches o) (c.openRequest_ring o) (c.openRequest_units o)
theorem Chip.closeOf_handover (k : OutageKind) (o : Nat) (p : OutageState → Bool) (w : CloseCause) :
    Handover K c (c.closeOf k o p w) :=
  .of_outages (c.closeOf_reaches k o p w) (c.closeOf_ring k o p w) (c.closeOf_units k o p w)
theorem Chip.setMark_handover (k : OutageKind) (o : Nat) (m : Option Mark) : Handover K c (c.setMark k o m) :=
  .of_outages ((c.setMark_reaches k o m).wider (by rfl)) (c.setMark_ring k o m) (c.setMark_units k o m)

theorem Chip.suppress_handover (x : Nat) : Handover (· ≠ x) c (c.suppress x) := by
  have parked := ((c.updSup_handover x fun r => { r with state := .suppressed, answered := 0, unanswered := 0 }).trans
    (Chip.offRepoll_handover _ _ x)).trans (Chip.parkElement_handover _ _ x)
  unfold Chip.suppress
  dsimp only
  split
  · exact parked.trans (Chip.updRecord_handover _ _ _ _)
  · exact parked
theorem Chip.recordFailure_handover (e : Nat) (m : Option Nat) : Handover K c (c.recordFailure e m) := by
  unfold Chip.recordFailure
  split
  · exact c.updRecord_handover K _ _
  · split <;> exact c.openRequest_handover K _

/-- A root lies below no other element. -/
theorem Chip.inSubtree_root {e x : Nat} (hx : x < 4) (ne : x ≠ e) : c.inSubtree e x = false := by
  have none : c.ancestors x = [] := by rw [Chip.ancestors, ancestorsFrom, if_pos hx]
  simp [Chip.inSubtree, none, ne]
/-- The suppression below an element leaves the roots. -/
theorem Chip.suppressBelow_handover (e : Nat) : Handover (· < 4) c (c.suppressBelow e) := by
  refine .loop (fun d x => ?_) 640 c
  by_cases root : x < 4
  · rw [if_neg fun below => ?_]
    · exact .refl _ d
    · obtain ⟨ne, inside, -⟩ := below
      rw [d.inSubtree_root root ne] at inside
      cases inside
  · exact .ite ((d.suppress_handover x).mono fun y hy => by omega) (.refl _ d)

end

end Sys2Proof.Machine

namespace Sys2Proof.Machine

/-! ### The hand-over of the carrier states (R60, R78) -/

/-- The state of an UNVERIFIED root behind the hand-over of a carrier state (R78). -/
def Carrier.verdict : Carrier → Supervision
  | .present => .answering
  | .lost => .failing
  | .unsettled => .unverified

theorem Chip.updSup_state (c : Chip) {e : Nat} (h : e < 640) (f : SupRecord → SupRecord) :
    ((c.updSup e f).element e).sup = f (c.element e).sup :=
  congrArg Element.sup (vget_vupd_same c.elements e (fun el => { el with sup := f el.sup }) h)

theorem Chip.verifyElement_handover (c : Chip) {e : Nat} (h : e < 640) :
    Handover (· ≠ e) c (c.verifyElement e) ∧ ((c.verifyElement e).element e).sup.state = .answering := by
  have answers := c.updSup_handover e fun r => { r with state := .answering, failure := none }
  have behind : ∀ K, Handover K (c.updSup e fun r => { r with state := .answering, failure := none })
      (c.verifyElement e) := fun K =>
    ((Chip.setMark_handover K _ _ _ _).trans (Chip.unparkElement_handover K _ e)).trans (Chip.closeOf_handover K _ _ _ _ _)
  refine ⟨answers.trans (behind _), ?_⟩
  rw [((behind fun _ => True).units e trivial).2, c.updSup_state h]

/-- A failed root leaves the other roots. -/
theorem Chip.failElement_handover (c : Chip) {e : Nat} (h : e < 4) (m : Option Nat) :
    Handover (fun x => x < 4 ∧ x ≠ e) c (c.failElement e m) ∧ ((c.failElement e m).element e).sup.state = .failing := by
  have fails := c.updSup_handover e fun r => { r with state := .failing, failure := m }
  have behind : Handover (· < 4) (c.updSup e fun r => { r with state := .failing, failure := m }) (c.failElement e m) := by
    have localised := (((Chip.parkElement_handover (· < 4)
      (c.updSup e fun r => { r with state := .failing, failure := m }) e).trans
        (Chip.suppressBelow_handover _ e)).trans (Chip.recordFailure_handover _ _ e m))
    unfold Chip.failElement
    exact .ite (localised.trans (Chip.updBranch_handover _ _ e fun _ => rfl)) localised
  refine ⟨(fails.mono fun x hx => hx.2).trans (behind.mono fun x hx => hx.1), ?_⟩
  rw [(behind.units e h).2, c.updSup_state (by omega)]

/-- A carrier state handed to an UNVERIFIED root decides that root alone (R78). -/
theorem Chip.handCarrier_handover (c : Chip) {b : Nat} (h : b < 4) (unverified : (c.element b).sup.state = .unverified)
    (k : Carrier) :
    Handover (fun x => x < 4 ∧ x ≠ b) c (c.handCarrier b k)
      ∧ ((c.handCarrier b k).element b).sup.state = k.verdict := by
  cases k with
  | present =>
    obtain ⟨kept, state⟩ := c.verifyElement_handover (e := b) (by omega)
    have verified : c.handCarrier b .present = c.verifyElement b := by simp [Chip.handCarrier, unverified]
    rw [verified]
    exact ⟨kept.mono fun x hx => hx.2, state⟩
  | lost =>
    have failed : c.handCarrier b .lost = c.failElement b c.now := by simp [Chip.handCarrier, unverified]
    rw [failed]
    exact c.failElement_handover h _
  | unsettled => exact ⟨.refl _ c, unverified⟩

/-- The hand-over of every carrier state: each UNVERIFIED root in use goes by its own (R60). -/
theorem Chip.handCarriers_handover (c : Chip) :
    Handover (fun _ => False) c c.handCarriers ∧ ∀ b, b < 4 → (c.element b).record.inUse = true →
      (c.element b).sup.state = .unverified → (c.handCarriers.element b).sup.state = (c.branch b).carrier.verdict := by
  have loop : ∀ n, n ≤ 4 →
      let d := forIndices n (fun d b =>
        if (d.element b).record.inUse && (d.element b).sup.state == .unverified then d.handCarrier b (d.branch b).carrier
        else d) c
      Handover (fun x => n ≤ x ∧ x < 4) c d ∧ ∀ b, b < n → (c.element b).record.inUse = true →
        (c.element b).sup.state = .unverified → (d.element b).sup.state = (c.branch b).carrier.verdict := by
    intro n
    induction n with
    | zero => exact fun _ => ⟨.refl _ c, fun b hb => absurd hb (Nat.not_lt_zero b)⟩
    | succ n ih =>
      intro hn
      obtain ⟨kept, decided⟩ := ih (by omega)
      dsimp only
      rw [forIndices_succ]
      generalize forIndices n _ c = d at kept decided ⊢
      obtain ⟨record, sup⟩ := kept.units n ⟨Nat.le_refl n, by omega⟩
      rw [record, sup, kept.carriers n]
      by_cases due : ((c.element n).record.inUse && (c.element n).sup.state == .unverified) = true
      · rw [if_pos due]
        have unverified : (d.element n).sup.state = .unverified := by
          rw [sup]
          have both := due
          rw [Bool.and_eq_true, beq_iff_eq] at both
          exact both.2
        obtain ⟨step, state⟩ := d.handCarrier_handover (b := n) (by omega) unverified (c.branch n).carrier
        refine ⟨(kept.mono fun x hx => ⟨by omega, hx.2⟩).trans (step.mono fun x hx => ⟨hx.2, by omega⟩),
          fun b hb used was => ?_⟩
        by_cases here : b = n
        · rw [here, state]
        · rw [(step.units b ⟨by omega, here⟩).2]
          exact decided b (by omega) used was
      · rw [if_neg due]
        refine ⟨kept.mono fun x hx => ⟨by omega, hx.2⟩, fun b hb used was => ?_⟩
        have : b ≠ n := fun e => due (by rw [← e, used, was]; rfl)
        exact decided b (by omega) used was
  obtain ⟨kept, decided⟩ := loop 4 (Nat.le_refl 4)
  exact ⟨kept.mono fun _ h => h.elim, decided⟩

theorem Chip.testPort_carriers (c : Chip) (p b : Nat) : ((c.testPort p).branch b).carrier = (c.branch b).carrier := by
  unfold Chip.testPort
  split
  · split
    · exact (c.makeDirty_handover (fun _ => True) p).carriers b
    · rfl
  · split
    · rfl
    · exact ((c.offDirty_handover (fun _ => True) p).trans (Chip.setCondition_handover _ _ p .idle)).carriers b
  all_goals rfl

end Sys2Proof.Machine

namespace Sys2Proof.Machine

/-! ### The recompute of every port (R34, R185) -/

theorem Chip.recompute_carriers (c : Chip) (p b : Nat) : ((c.recompute p).branch b).carrier = (c.branch b).carrier := by
  have stuck : ∀ d : Chip, ((d.leaveStuck p).branch b).carrier = (d.branch b).carrier := fun d => by
    rw [Chip.leaveStuck, ((Chip.copySummary_handover (fun _ => True) _ p).carriers b),
      Chip.testPort_carriers]
    rfl
  unfold Chip.recompute
  dsimp only
  split
  · rfl
  · split
    · exact stuck _
    · exact Chip.testPort_carriers _ p b

/-- Behind the recompute of every port each has the desired state of R33, and the carrier states stand. -/
theorem Chip.recomputeAll_desired (c : Chip) :
    let d := forIndices 2560 Chip.recompute c
    Alike Port.report c d ∧ (∀ p, p < 2560 → (d.port p).desired = c.desiredOf p)
      ∧ ∀ b, (d.branch b).carrier = (c.branch b).carrier := by
  have loop : ∀ n, n ≤ 2560 →
      let d := forIndices n Chip.recompute c
      Alike Port.report c d ∧ (∀ p, p < n → (d.port p).desired = c.desiredOf p)
        ∧ ∀ b, (d.branch b).carrier = (c.branch b).carrier := by
    intro n
    induction n with
    | zero => exact fun _ => ⟨.refl _ c, fun p hp => absurd hp (Nat.not_lt_zero p), fun _ => rfl⟩
    | succ n ih =>
      intro hn
      obtain ⟨alike, desired, carriers⟩ := ih (by omega)
      dsimp only
      rw [forIndices_succ]
      generalize forIndices n Chip.recompute c = d at alike desired carriers ⊢
      refine ⟨alike.trans (d.recompute_alike n), fun p hp => ?_, fun b => (d.recompute_carriers n b).trans (carriers b)⟩
      by_cases here : p = n
      · rw [here, d.recompute_desired (by omega), alike.desiredOf]
      · rw [d.recompute_port_other here]
        exact desired p (by omega)
  exact loop 2560 (Nat.le_refl _)

/-! ### The reads of ORDER RING (R183, R185) -/

theorem Chip.tailRead_congr {c d : Chip} (hp : d.part = c.part) (ho : d.orders.tail = c.orders.tail) :
    d.tailRead = c.tailRead := by
  funext array
  have config : d.config = c.config := by rw [Chip.config, hp, ← Chip.config]
  have marked : d.marked = c.marked := funext fun a => by rw [Chip.marked, hp, ← Chip.marked]
  rw [Chip.tailRead, Chip.tailRead, config, marked, ho]

theorem Chip.deliver_orderRing {c : Chip} (h : c.part.stage = .orderRing) (array : Memory) (k : Nat) :
    c.deliver array k =
      if k < burstsOf (32 * c.config.orderCapacity) then c.setOrders
        { c.orders with
          mirror := c.deliverTo array c.orders.mirror c.config.orderRing.base (16 * k) slotOutcomeByte }
      else c.setOrders { c.orders with tail := c.tailRead array } := by rw [Chip.deliver, h]

/-- The reads of the ring before the last one reach the order mirror. -/
theorem Chip.deliveries_slots {c : Chip} (h : c.part.stage = .orderRing) (array : Memory) (k n : Nat)
    (hn : k + n ≤ burstsOf (32 * c.config.orderCapacity)) :
    let d := forIndices n (fun d j => d.deliver array (k + j)) c
    Reaches [.orders] c d ∧ d.orders.tail = c.orders.tail := by
  induction n with
  | zero => exact ⟨.same _ c, rfl⟩
  | succ n ih =>
    obtain ⟨reach, tail⟩ := ih (by omega)
    dsimp only
    rw [forIndices_succ]
    generalize forIndices n _ c = d at reach tail ⊢
    have part : d.part = c.part := reach.part (by decide)
    have config : d.config = c.config := by rw [Chip.config, part, ← Chip.config]
    rw [Chip.deliver_orderRing (by rw [part]; exact h), config, if_pos (by omega)]
    exact ⟨reach.then (by rfl) (d.setOrders_reaches _), tail⟩

/-- The reads of the ORDER RING stage reach the orders, the last one their tail (R185). -/
theorem Chip.orderRingRead {c : Chip} (fill : c.part.state = .fill) (stage : c.part.stage = .orderRing)
    (array : Memory) {n : Nat} (some : 1 ≤ n) (reads : c.fillReads = n) :
    let d := c.tenureEnded.delivered array n
    Reaches [.path, .engine, .part, .orders] c d
      ∧ d.part = { c.part with fillNext := c.part.fillNext + n } ∧ d.orders.tail = c.tailRead array := by
  obtain ⟨m, rfl⟩ := Nat.exists_eq_add_of_le' some
  have whole : c.part.fillNext + m = burstsOf (32 * c.config.orderCapacity) := by
    have offered : c.stageReads .orderRing = burstsOf (32 * c.config.orderCapacity) + 1 := rfl
    rw [Chip.fillReads, if_pos fill, stage, offered] at reads
    omega
  have staged : c.tenureEnded.part.stage = .orderRing := stage
  obtain ⟨reach, tail⟩ := Chip.deliveries_slots staged array c.part.fillNext m (Nat.le_of_eq whole)
  have next : Reaches [.part] (forIndices (m + 1) (fun d j => d.deliver array (c.part.fillNext + j)) c.tenureEnded)
      (c.tenureEnded.delivered array (m + 1)) := Chip.setPart_reaches _ _
  have part := c.tenureEnded.delivered_part array (m + 1)
  generalize c.tenureEnded.delivered array (m + 1) = d at next part
  rw [forIndices_succ] at next
  generalize forIndices m (fun d j => d.deliver array (c.part.fillNext + j)) c.tenureEnded = x at reach tail next
  have parts : x.part = c.part := reach.part (by decide)
  have config : x.config = c.config := by rw [Chip.config, parts, ← Chip.config]
  rw [Chip.deliver_orderRing (by rw [parts]; exact stage), config, if_neg (by omega)] at next
  refine ⟨((c.tenureEnded_reaches.then (by rfl) reach (bs := [.path, .engine, .orders])).then (by rfl)
    (x.setOrders_reaches _) (bs := [.path, .engine, .orders])).then (by rfl) next, part, ?_⟩
  rw [next.orders (by decide)]
  exact congrFun (Chip.tailRead_congr parts tail) array

end Sys2Proof.Machine

namespace Sys2Proof.Machine

/-! ### The entry into RUNNING (R185) -/

/-- The order ring empty with every outcome NOT TAKEN, and the journal at the checkpoint's indices (R149, R157). -/
def Chip.ringsTaken (c : Chip) : Chip :=
  let c1 := c.setOrders
    { c.orders with head := c.orders.tail, outcomes := Vector.replicate 256 { code := .notTaken, index := 0 } }
  c1.setJournal { c1.journal with head := c1.part.heldHead, tail := c1.part.heldTail }

/-- The part RUNNING, its valid marks cleared. -/
def Chip.entersRunning (c : Chip) : Chip :=
  c.setPart { c.part with state := .running, stage := .none, fillNext := 0, marks := [] }

theorem Chip.endFill_eq (c : Chip) :
    c.endFill = (forIndices 2560 Chip.recompute c.ringsTaken).entersRunning.handCarriers := by
  simp only [Chip.endFill, Chip.entersRunning, Chip.ringsTaken]

theorem Chip.ringsTaken_reaches (c : Chip) : Reaches [.orders, .journal] c c.ringsTaken :=
  (c.setOrders_reaches _).then (by rfl) (Chip.setJournal_reaches _ _)
theorem Chip.entersRunning_reaches (c : Chip) : Reaches [.part] c c.entersRunning := c.setPart_reaches _

/-- The blocks the end of the fill reaches. -/
abbrev endFillBlocks : List Block := [.orders, .journal, .part, .subs, .ports, .branches, .elements, .outages]

/-- What the end of the fill leaves. -/
structure FillEnded (c d : Chip) : Prop where
  reaches : Reaches endFillBlocks c d
  part : d.part = { c.part with state := .running, stage := .none, fillNext := 0, marks := [] }
  orders : d.orders =
    { c.orders with head := c.orders.tail, outcomes := Vector.replicate 256 { code := .notTaken, index := 0 } }
  head : d.journal.head = c.part.heldHead
  tail : d.journal.tail = c.part.heldTail
  ports : ∀ p, p < 2560 → (d.port p).desired = d.desiredOf p ∧ (d.port p).owner = (c.port p).owner
  roots : ∀ b, b < 4 → (c.element b).record.inUse = true → (c.element b).sup.state = .unverified →
    (d.element b).sup.state = (c.branch b).carrier.verdict

theorem Chip.endFill_ends (c : Chip) : FillEnded c c.endFill := by
  have rings := c.ringsTaken_reaches
  have orders : c.ringsTaken.orders =
      { c.orders with head := c.orders.tail, outcomes := Vector.replicate 256 { code := .notTaken, index := 0 } } := rfl
  have head : c.ringsTaken.journal.head = c.part.heldHead := rfl
  have tail : c.ringsTaken.journal.tail = c.part.heldTail := rfl
  rw [c.endFill_eq]
  generalize c.ringsTaken = r at rings orders head tail ⊢
  have recomputed := forIndices_reaches Chip.recompute_reaches 2560 r
  obtain ⟨alike, desired, carriers⟩ := r.recomputeAll_desired
  generalize forIndices 2560 Chip.recompute r = x at recomputed alike desired carriers ⊢
  have enters := x.entersRunning_reaches
  have part : x.entersRunning.part = { x.part with state := .running, stage := .none, fillNext := 0, marks := [] } := rfl
  generalize x.entersRunning = y at enters part ⊢
  have handed := y.handCarriers_reaches
  obtain ⟨kept, roots⟩ := y.handCarriers_handover
  generalize y.handCarriers = d at handed kept roots ⊢
  have before := rings.then (by rfl) recomputed (bs := [.orders, .journal, .subs, .ports, .branches])
  have entered := before.then (by rfl) enters (bs := [.orders, .journal, .subs, .ports, .branches, .part])
  have elements : y.elements = c.elements := entered.elements (by decide)
  have ring : x.journal = r.journal := recomputed.journal (by decide)
  have ring' : y.journal = x.journal := enters.journal (by decide)
  have same : Alike Port.desired x d := Alike.trans (.of_reaches enters (by decide) (by decide) (by decide)) kept.alike
  refine ⟨entered.then (by rfl) handed, ?_, ?_, ?_, ?_, fun p hp => ⟨?_, ?_⟩, fun b hb used was => ?_⟩
  · rw [handed.part (by decide), part, before.part (by decide)]
  · rw [handed.orders (by decide), enters.orders (by decide), recomputed.orders (by decide), orders]
  · rw [kept.ring.1, ring', ring, head]
  · rw [kept.ring.2, ring', ring, tail]
  · rw [same.kept, desired p hp, same.desiredOf, alike.desiredOf]
  · rw [same.owners, alike.owners, Chip.port, rings.ports (by decide), ← Chip.port]
  · have element : y.element b = c.element b := by rw [Chip.element, elements, ← Chip.element]
    have carrier : (y.branch b).carrier = (c.branch b).carrier := by
      rw [Chip.branch, enters.branches (by decide), ← Chip.branch, carriers, Chip.branch, rings.branches (by decide),
        ← Chip.branch]
    rw [roots b hb (by rw [element]; exact used) (by rw [element]; exact was), carrier]

/-- A rack link of a RUNNING part has an exchange behind the selections (R93, R101). -/
theorem Chip.settle_rack_hold {c : Chip} (h : c.running = true) : c.settle.rack.hold.isSome = true := by
  rw [Chip.settle_rack_eq]
  by_cases held : c.rack.hold.isSome = true
  · rwa [c.armRack_held held]
  · rw [Chip.armRack, if_neg held, if_pos h, Chip.selectRack]
    repeat' split
    all_goals rfl

/-- The end of the ORDER RING stage. -/
theorem orderRingStage_ends {s : State} {n : Nat} (last : LastReads s n) (stage : s.chip.part.stage = .orderRing) :
    ∃ t, exec .tenureComplete s = .next t
      ∧ t.chip.part = { s.chip.part with state := .running, stage := .none, fillNext := 0, marks := [] }
      ∧ t.chip.orders.tail = s.chip.tailRead s.array ∧ t.chip.orders.head = s.chip.tailRead s.array
      ∧ t.chip.orders.outcomes = Vector.replicate 256 { code := .notTaken, index := 0 }
      ∧ t.chip.journal.head = s.chip.part.heldHead ∧ t.chip.journal.tail = s.chip.part.heldTail
      ∧ (∀ p, p < 2560 → (t.chip.port p).desired = t.chip.desiredOf p
          ∧ (t.chip.port p).owner = (s.chip.port p).owner)
      ∧ (∀ b, b < 4 → (s.chip.element b).record.inUse = true → (s.chip.element b).sup.state = .unverified →
          (t.chip.element b).sup.state = (s.chip.branch b).carrier.verdict)
      ∧ t.chip.rack.hold.isSome = true
      ∧ SameTime s t ∧ SameLineUp s t ∧ t.chip.plant = s.chip.plant ∧ t.chip.sources = s.chip.sources
      ∧ t.chip.store = s.chip.store ∧ t.array = s.array ∧ t.pending = s.pending := by
  obtain ⟨t, ends, chip, array, pending⟩ := exec_tenureComplete_last last
  obtain ⟨fill, reads, some, -, -⟩ := last
  obtain ⟨reach, part, tail⟩ := Chip.orderRingRead fill stage s.array some reads
  generalize s.chip.tenureEnded.delivered s.array n = c at chip reach part tail
  have endStage : c.endStage s.array = c.endFill := by rw [Chip.endStage, part, stage]
  rw [endStage] at chip
  have ended := c.endFill_ends
  generalize c.endFill = d at chip ended
  have whole := reach.then (by rfl) ended.reaches (bs := [.path, .engine] ++ endFillBlocks)
  have parts : d.part = { s.chip.part with state := .running, stage := .none, fillNext := 0, marks := [] } := by
    rw [ended.part, part]
  have runs : d.running = true := by simp [Chip.running, parts]
  have alike : Alike Port.desired d t.chip := chip ▸ d.settle_alike steady_desired
  refine ⟨t, ends, ?_, ?_, ?_, ?_, ?_, ?_, fun p hp => ⟨?_, ?_⟩, fun b hb used was => ?_, ?_,
    sameTime_of_reaches whole chip (by decide), sameLineUp_of_reaches whole chip (by decide), ?_, ?_, ?_, array, pending⟩
  · rw [chip, Chip.settle_part, parts]
  · rw [chip, Chip.settle_orders_tail, ended.orders, ← tail]
  · rw [chip, Chip.settle_orders_head, ended.orders, ← tail]
  · rw [chip, Chip.settle_orders_outcomes, ended.orders]
  · rw [chip, Chip.settle_journal, ended.head, part]
  · rw [chip, Chip.settle_journal, ended.tail, part]
  · rw [alike.kept, alike.desiredOf, (ended.ports p hp).1]
  · rw [alike.owners, (ended.ports p hp).2, Chip.port, reach.ports (by decide), ← Chip.port]
  · have element : c.element b = s.chip.element b := by rw [Chip.element, reach.elements (by decide), ← Chip.element]
    have branch : c.branch b = s.chip.branch b := by rw [Chip.branch, reach.branches (by decide), ← Chip.branch]
    have settled : t.chip.element b = d.element b := by rw [Chip.element, chip, Chip.settle_elements, ← Chip.element]
    rw [settled, ended.roots b hb (by rw [element]; exact used) (by rw [element]; exact was), branch]
  · rw [chip, Chip.settle_rack_hold runs]
  · rw [chip, Chip.settle_plant, whole.plant (by decide)]
  · rw [chip, Chip.settle_sources, whole.sources (by decide)]
  · rw [chip, Chip.settle_store, whole.store (by decide)]

end Sys2Proof.Machine

namespace Sys2Proof.Machine

/-! ### The rebuild in the words of R38 -/

theorem Subscriber.holds_iff (r : Subscriber) :
    r.holds ↔ ¬ r.oddState ≠ none ∧ (r.live.state = .active ∨ r.live.state = .suspended) := by
  rw [Subscriber.holds, RecordState.inUse_iff, not_not]

theorem Chip.revised_iff (c : Chip) (i : Nat) :
    c.revised i = true ↔ (c.intent i).revision ≠ (c.sub i).live.takenRev := decide_eq_true_iff

/-- The zone of the port recorded in a live block, none where the state code is unknown. -/
theorem Subscriber.knownState_zone (r : Subscriber) [Decidable (r.oddState ≠ none)] :
    r.knownState.live.owned.map (·.zone) = if r.oddState ≠ none then none else r.live.owned.map (·.zone) := by
  split
  · next odd => rw [r.knownState_odd odd]; rfl
  · next known => rw [r.knownState_known (not_not.mp known)]

/-- A record of an unknown state code is FREE behind the rebuild. -/
theorem RecordRebuilt.free {c d : Chip} {i : Nat} (h : RecordRebuilt c d i) (odd : (c.sub i).oddState ≠ none) :
    let l := (d.sub i).live
    l.state = .free ∧ l.tierAmount = 0 ∧ l.eventAmount = 0 ∧ l.remainder = 0 ∧ l.heldMinutes = 0
      ∧ l.heldNumerator = 0 ∧ l.outSince = none ∧ l.saturated = false ∧ l.purchases = [] := by
  have core := h.core
  rw [Subscriber.knownState_odd _ odd] at core
  exact Live.fields_of_core core

/-- The books of a record of a known state code stand. -/
theorem RecordRebuilt.known {c d : Chip} {i : Nat} (h : RecordRebuilt c d i) (known : (c.sub i).oddState = none) :
    (d.sub i).live.state = (c.sub i).live.state ∧ (d.sub i).live.tierAmount = (c.sub i).live.tierAmount
      ∧ (d.sub i).live.purchases = (c.sub i).live.purchases := by
  have core := h.core
  rw [Subscriber.knownState_known _ known] at core
  obtain ⟨state, tier, -, -, -, -, -, -, purchases⟩ := Live.fields_of_core core
  exact ⟨state, tier, purchases⟩

/-- Settles O24: a tenure of reads within SUBSCRIBER, the rebuild, and the ends of SUBSCRIBER and ORDER RING. -/
theorem fillRebuildsAndEnds : Obligations.FillRebuildsAndEnds := by
  refine ⟨fun s n fill stage some more holding tenure => ?reads, fun c free range => ?rebuild,
    fun s n last => ⟨fun stage => ?subscriber, fun stage => ?orderRing⟩⟩
  case reads =>
    intro first ends
    obtain ⟨t, next, part, store, filled, kept, rest⟩ := subscriberStage_continues fill stage some more holding tenure
    refine ⟨t, next, part, store, fun i hi => ?_, kept, rest⟩
    obtain ⟨isFilled, taken, queued, free, odd, shown⟩ := s.chip.filledSub_spec s.array i (s.chip.sub i)
    rw [filled i hi]
    exact ⟨isFilled, taken, queued, free, odd.trans (oddStateAt_eq _ _), shown⟩
  case subscriber =>
    obtain ⟨t, c, next, part, subs, store, ports, reach, config, mirror, filled, kept, rest⟩ :=
      subscriberStage_ends last stage
    refine ⟨t, c, next, part, subs, store, ports, reach.ports (by decide), reach.elements (by decide),
      reach.lineUp (by decide), config, mirror, fun i hi from_ => ?_, kept, rest⟩
    obtain ⟨isFilled, -, -, free, odd, -⟩ := s.chip.filledSub_spec s.array i (s.chip.sub i)
    rw [filled i hi from_]
    exact ⟨isFilled, odd, free⟩
  case orderRing =>
    intro a byte tail
    have read : s.chip.tailRead s.array = tail := by
      simp only [Chip.tailRead, Chip.marked, beq_iff_eq, a, byte, tail, Nat.add_zero]
    obtain ⟨t, next, part, tail_, head, outcomes, heldHead, heldTail, ports, roots, rest⟩ :=
      orderRingStage_ends last stage
    refine ⟨t, next, part, tail_.trans read, head.trans read, fun k hk => ?_, heldHead, heldTail, ?_, ports,
      fun b hb used was => ?_, rest⟩
    · rw [outcomes, vget_replicate _ _ hk]
    · rw [Chip.attn, part, heldHead, heldTail]
      exact bne_iff_ne
    · rw [roots b hb used was]
      cases (s.chip.branch b).carrier <;> rfl
  case rebuild =>
    have records := fun i (hi : i < 2048) => Chip.rebuild_record free range hi
    have rebuiltQueue := Chip.rebuild_queue free range
    have rebuiltPorts := fun p (hp : p < 2560) => Chip.rebuild_port free range hp
    generalize c.rebuild = d at records rebuiltQueue rebuiltPorts ⊢
    intro d' odd inUse eligible wins fails revised
    have holds : ∀ i, (c.sub i).holds ↔ inUse i := fun i => (c.sub i).holds_iff
    have eligibles : ∀ i p, c.eligible i p ↔ eligible i p := fun i p => by
      rw [c.eligible_iff, holds]
      rfl
    have winss : ∀ i p, c.wins i p ↔ wins i p := fun i p => by
      simp only [Chip.wins, eligibles, wins]
    have failss : ∀ i, c.fails i ↔ fails i := fun i => by
      simp only [c.fails_iff, holds, winss]
      rfl
    refine ⟨fun i hi => ?_, ?_, fun p hp => ?_⟩
    · have rebuilt := records i hi
      have revision := c.revised_iff i
      refine ⟨fun no => rebuilt.kept (Bool.eq_false_iff.mpr fun yes => no (revision.mp yes)), fun yes => ?_,
        fun isOdd => ⟨rebuilt.oddDirty isOdd, rebuilt.free isOdd⟩, fun known => rebuilt.known (not_not.mp known),
        rebuilt.oddState, fun lost => rebuilt.unowned ?_, fun kept used => rebuilt.owned ?_ ?_,
        fun lost => rebuilt.lostDirty ((failss i).mpr lost), rebuilt.summary⟩
      · rw [rebuilt.changed (revision.mpr yes), Subscriber.knownState_zone]
      · rwa [failss, holds]
      · rwa [failss]
      · rwa [holds]
    · obtain ⟨added, queue, sorted, members, pending⟩ := rebuiltQueue
      refine ⟨added, queue, sorted, fun i => ?_, pending⟩
      rw [members, failss, c.revised_iff]
    · obtain ⟨owner, rest⟩ := rebuiltPorts p hp
      exact ⟨fun i => by rw [owner, winss], rest⟩

end Sys2Proof.Machine

namespace Sys2Proof.Machine

/-! ### Every command answers a next state (R21, R148) -/

@[simp] theorem State.forward_pending (s : State) (i : Instr) : (s.forward i).pending = s.pending := rfl

@[simp] theorem State.plainCommand_pending (s : State) (i : Instr) : (s.plainCommand i).pending = s.pending :=
  (State.transferWords_pending _ 1).trans (s.forward_pending i)

@[simp] theorem State.startBurst_pending (s : State) (bank : BitVec 2) (col : BitVec 9) (auto : Bool) (words : Nat)
    (data : BitVec 13 → Bool → BurstData) : (s.startBurst bank col auto words data).pending = s.pending := by
  unfold State.startBurst
  dsimp only
  rw [State.transferWords_pending, State.onChip_pending]
  split <;> rfl

@[simp] theorem State.readBurst_pending (s : State) (i : Instr) (bank : BitVec 2) (col : BitVec 9) (auto : Bool)
    (words : Nat) : (s.readBurst i bank col auto words).pending = s.pending :=
  (State.startBurst_pending _ _ _ _ _ _).trans (s.cutForward_pending i)

@[simp] theorem State.writeBurst_pending (s : State) (i : Instr) (bank : BitVec 2) (col : BitVec 9) (auto : Bool)
    (l : List WriteWord) (words : Nat) : (s.writeBurst i bank col auto l words).pending = s.pending :=
  (State.startBurst_pending _ _ _ _ _ _).trans (s.cutForward_pending i)

@[simp] theorem State.writeAlone_pending (s : State) (w : HostWord) : (s.writeAlone w).pending = s.pending := by
  unfold State.writeAlone
  dsimp only
  rw [State.handEvents_pending, State.hostWrite_pending, State.endBurst_pending, State.quietLines_pending]

@[simp] theorem State.writeMapped_pending (s : State) (a : Nat) (h : HalfWrite) :
    (s.writeMapped a h).pending = s.pending := by
  unfold State.writeMapped
  split
  · exact s.writeAlone_pending _
  · rfl

/-- An outcome that is a next state with the waiting commands of s. -/
def GoesOn (s : State) (r : Result) : Prop := ∃ t, r = .next t ∧ t.pending = s.pending

theorem GoesOn.next {s t : State} (h : t.pending = s.pending) : GoesOn s (.next t) := ⟨t, rfl, h⟩

/-- An operation of the part goes on, made or not. -/
theorem GoesOn.actIf (s : State) (ready : Chip → Bool) (f : Chip → Chip) : GoesOn s (.next (s.actIf ready f)) :=
  .next (s.actIf_pending ready f)

/-- A command of the memory controller goes on, also while the Tenure Engine holds the bus. -/
theorem GoesOn.onBus {s : State} {f : State → State} (h : (f s).pending = s.pending) : GoesOn s (s.onBus f) := by
  refine .next ?_
  split
  · exact h
  · rfl

theorem GoesOn.directOrder (s : State) (kind : Nat) (f : Chip → Order → Chip) : GoesOn s (s.directOrder kind f) := by
  unfold State.directOrder
  split
  · exact .actIf s _ _
  · exact .next rfl

theorem GoesOn.storeOrder (s : State) (kind : Nat) (f : Chip → Order → Chip) : GoesOn s (s.storeOrder kind f) := by
  unfold State.storeOrder
  split
  · exact .actIf s _ _
  · exact .next rfl

theorem execActivate_goesOn (bank : BitVec 2) (row : BitVec 13) (s : State) :
    GoesOn s (execActivate bank row s) := .onBus (s.plainCommand_pending _)
theorem execRead_goesOn (bank : BitVec 2) (col : BitVec 9) (words : Nat) (s : State) :
    GoesOn s (execRead bank col words s) := .onBus (s.readBurst_pending _ _ _ _ _)
theorem execReadAutoPrecharge_goesOn (bank : BitVec 2) (col : BitVec 9) (words : Nat) (s : State) :
    GoesOn s (execReadAutoPrecharge bank col words s) := .onBus (s.readBurst_pending _ _ _ _ _)
theorem execWrite_goesOn (bank : BitVec 2) (col : BitVec 9) (w0 w1 w2 w3 : WriteWord) (words : Nat) (s : State) :
    GoesOn s (execWrite bank col w0 w1 w2 w3 words s) := .onBus (s.writeBurst_pending _ _ _ _ _ _)
theorem execWriteAutoPrecharge_goesOn (bank : BitVec 2) (col : BitVec 9) (w0 w1 w2 w3 : WriteWord) (words : Nat)
    (s : State) : GoesOn s (execWriteAutoPrecharge bank col w0 w1 w2 w3 words s) :=
  .onBus (s.writeBurst_pending _ _ _ _ _ _)
theorem execPrechargeAll_goesOn (s : State) :
    GoesOn s (execPrechargeAll s) := .onBus (s.cutForward_pending .prechargeAll)
theorem execRefresh_goesOn (s : State) :
    GoesOn s (execRefresh s) := .onBus (s.plainCommand_pending .refresh)
theorem execSelfRefreshEntry_goesOn (s : State) :
    GoesOn s (execSelfRefreshEntry s) := .onBus (s.plainCommand_pending .selfRefreshEntry)
theorem execSelfRefreshExit_goesOn (s : State) :
    GoesOn s (execSelfRefreshExit s) := .onBus (s.plainCommand_pending .selfRefreshExit)
theorem execBurstTerminate_goesOn (s : State) :
    GoesOn s (execBurstTerminate s) := .onBus (s.cutForward_pending _)
theorem execNoOperation_goesOn (s : State) :
    GoesOn s (execNoOperation s) := .onBus (s.plainCommand_pending _)
theorem execConfigRetake_goesOn (strap : BitVec 4) (h : HalfWrite) (s : State) :
    GoesOn s (execConfigRetake strap h s) := .onBus (State.writeAlone_pending _ _)
theorem execPurchase_goesOn (s : State) : GoesOn s (execPurchase s) := .storeOrder s _ _
theorem execCancelPurchase_goesOn (s : State) : GoesOn s (execCancelPurchase s) := .storeOrder s _ _
theorem execAdjust_goesOn (s : State) : GoesOn s (execAdjust s) := .storeOrder s _ _
theorem execResend_goesOn (s : State) : GoesOn s (execResend s) := .storeOrder s _ _
theorem execRepoll_goesOn (s : State) : GoesOn s (execRepoll s) := .directOrder s _ _
theorem execAcknowledgeOutage_goesOn (s : State) : GoesOn s (execAcknowledgeOutage s) := .directOrder s _ _
theorem execSetClock_goesOn (s : State) : GoesOn s (execSetClock s) := .directOrder s _ _
theorem execNextCycle_goesOn (s : State) : GoesOn s (execNextCycle s) := .directOrder s _ _

theorem execPrecharge_goesOn (bank : BitVec 2) (s : State) : GoesOn s (execPrecharge bank s) := by
  refine .onBus ?_
  rw [State.onChip_pending]
  split
  · exact s.cutForward_pending _
  · exact s.plainCommand_pending _

theorem execModeSet_goesOn (addr : BitVec 13) (bank : BitVec 2) (s : State) : GoesOn s (execModeSet addr bank s) := by
  refine .onBus ?_
  rw [State.passClock, State.transferWords_pending, State.act_pending, State.forward_pending]

theorem execResetPin_goesOn (strap : BitVec 4) (begun : Nat) (s : State) : GoesOn s (execResetPin strap begun s) := by
  refine .next ?_
  rw [State.onChip_pending]
  split
  · split <;> rfl
  · rfl

theorem execTenureComplete_goesOn (s : State) : GoesOn s (execTenureComplete s) := by
  unfold execTenureComplete
  split
  · refine .next ?_
    split
    · exact s.endTenure_pending _
    · rfl
  · exact .next rfl

theorem execUnknownKind_goesOn (s : State) : GoesOn s (execUnknownKind s) := by
  unfold execUnknownKind
  split
  · exact .actIf s _ _
  · exact .next rfl

theorem execBusGrant_goesOn (s : State) : GoesOn s (execBusGrant s) := by
  refine .next ?_
  split <;> rfl

theorem execRevisionWrite_goesOn {i : Nat} (hi : i < 2048) (h : HalfWrite) (s : State) :
    GoesOn s (execRevisionWrite i h s) := by
  rw [execRevisionWrite, if_pos hi]
  exact .next (s.writeMapped_pending _ _)

theorem execOrderKindWrite_goesOn {k : Nat} (hk : k < 256) (h : HalfWrite) (s : State) :
    GoesOn s (execOrderKindWrite k h s) := by
  rw [execOrderKindWrite, if_pos hk]
  refine .next ?_
  split
  · exact s.writeMapped_pending _ _
  · rfl

/-- Every well-formed command goes on: by the form of its meaning. -/
theorem exec_goesOn (c : Instr) (s : State) (ok : c.wellFormed = true) : GoesOn s (exec c s) := by
  cases c with
  | powerOn strap => exact ⟨_, rfl, rfl⟩
  | resetPin strap begun => exact execResetPin_goesOn strap begun s
  | modeSet addr bank => exact execModeSet_goesOn addr bank s
  | activate bank row => exact execActivate_goesOn bank row s
  | read bank col words => exact execRead_goesOn bank col words s
  | readAutoPrecharge bank col words => exact execReadAutoPrecharge_goesOn bank col words s
  | write bank col w0 w1 w2 w3 words => exact execWrite_goesOn bank col w0 w1 w2 w3 words s
  | writeAutoPrecharge bank col w0 w1 w2 w3 words => exact execWriteAutoPrecharge_goesOn bank col w0 w1 w2 w3 words s
  | precharge bank => exact execPrecharge_goesOn bank s
  | prechargeAll => exact execPrechargeAll_goesOn s
  | refresh => exact execRefresh_goesOn s
  | selfRefreshEntry => exact execSelfRefreshEntry_goesOn s
  | selfRefreshExit => exact execSelfRefreshExit_goesOn s
  | burstTerminate => exact execBurstTerminate_goesOn s
  | noOperation => exact execNoOperation_goesOn s
  | busGrant => exact execBusGrant_goesOn s
  | tenureComplete => exact execTenureComplete_goesOn s
  | configRetake strap h => exact execConfigRetake_goesOn strap h s
  | lineUpTakeRequest h => exact .next (s.writeMapped_pending _ _)
  | plantTakeRequest h => exact .next (s.writeMapped_pending _ _)
  | revisionWrite i h =>
    obtain ⟨range, -⟩ := Bool.and_eq_true_iff.mp ok
    exact execRevisionWrite_goesOn (of_decide_eq_true range) h s
  | orderKindWrite k h =>
    obtain ⟨range, -⟩ := Bool.and_eq_true_iff.mp ok
    exact execOrderKindWrite_goesOn (of_decide_eq_true range) h s
  | orderTailWrite h => exact .next (s.writeMapped_pending _ _)
  | journalHeadWrite h => exact .next (s.writeMapped_pending _ _)
  | unknownKind => exact execUnknownKind_goesOn s
  | purchase => exact execPurchase_goesOn s
  | cancelPurchase => exact execCancelPurchase_goesOn s
  | adjust => exact execAdjust_goesOn s
  | resend => exact execResend_goesOn s
  | repoll => exact execRepoll_goesOn s
  | acknowledgeOutage => exact execAcknowledgeOutage_goesOn s
  | setClock => exact execSetClock_goesOn s
  | nextCycle => exact execNextCycle_goesOn s
  | carrierInputChange b high => exact ⟨_, rfl, rfl⟩
  | _ => exact .next (s.actIf_pending _ _)

/-- Settles O2: each command by the form of its meaning; the two stops by their operand's check. -/
theorem wellFormedCommandsRun : Obligations.WellFormedCommandsRun := by
  refine ⟨exec_goesOn, fun i h s past => ?_, fun k h s past => ?_⟩
  · exact if_neg (Nat.not_lt.mpr past)
  · exact if_neg (Nat.not_lt.mpr past)

end Sys2Proof.Machine

namespace Sys2Proof.Machine

/-! ### The write-back cursor (R36, R37) -/

/-- A dirty record is one of the table's, so some record is dirty. -/
theorem Chip.anyDirty_of_sub {c : Chip} {i : Nat} (hi : i < 2048) (dirty : (c.sub i).dirty = true) :
    c.anyDirty = true := by
  rw [Chip.sub, vget, Vector.getElem?_eq_getElem hi, Option.getD_some] at dirty
  exact Vector.any_eq_true.mpr ⟨i, hi, dirty⟩

/-- At a dirty record with no money entry waiting the cursor takes the copy and clears the mark. -/
theorem Chip.writeBackStep_copies {c : Chip} {i : Nat} (cursor : c.store.cursor = i) (hi : i < 2048)
    (dirty : (c.sub i).dirty = true) (free : c.moneyWaitsFor i = false) :
    c.writeBackStep = (c.updSub i fun r => { r with dirty := false }).setStore
      { c.store with copy := some (i, (c.sub i).live) } := by
  subst cursor
  simp only [Chip.writeBackStep, c.anyDirty_of_sub hi dirty, dirty, free]
  rfl

/-- At a dirty record with a money entry waiting the cursor moves on, the mark kept (R37). -/
theorem Chip.writeBackStep_skips {c : Chip} {i : Nat} (cursor : c.store.cursor = i) (hi : i < 2048)
    (dirty : (c.sub i).dirty = true) (waits : c.moneyWaitsFor i = true) : c.writeBackStep = c.moveCursor := by
  simp only [Chip.writeBackStep, cursor, c.anyDirty_of_sub hi dirty, dirty, waits]
  rfl

/-- At a clean record the cursor moves on. -/
theorem Chip.writeBackStep_passes {c : Chip} {i : Nat} (cursor : c.store.cursor = i)
    (clean : (c.sub i).dirty = false) (some : c.anyDirty = true) : c.writeBackStep = c.moveCursor := by
  simp only [Chip.writeBackStep, cursor, some, clean]
  rfl

/-- WRITE_BACK of a RUNNING part with no copy pending is the cursor's step. -/
theorem exec_writeBack_eq {s : State} (running : s.chip.running = true) (free : s.chip.store.copy = none) :
    exec .writeBack s = .next (s.act Chip.writeBackStep) := by
  have ready : (s.chip.running && s.chip.store.copy.isNone) = true := by rw [running, free]; rfl
  exact congrArg Host.Outcome.next (State.actIf_ready (ready := fun c => c.running && c.store.copy.isNone) ready _)

/-- Settles O25: the cursor's step in its three cases. -/
theorem writeBackCursorActs : Obligations.WriteBackCursorActs := by
  intro s i running noCopy cursor hi
  rw [exec_writeBack_eq running noCopy]
  have moved : s.chip.writeBackStep = s.chip.moveCursor →
      ∃ t, Host.Outcome.next (φ := Fault) (ρ := Refusal) (s.act Chip.writeBackStep) = .next t
        ∧ t.chip.store = { s.chip.store with cursor := (i + 1) % 2048 }
        ∧ t.chip.subs = s.chip.subs ∧ t.chip.journal = s.chip.journal ∧ SameOutside s t := by
    intro step
    refine ⟨_, rfl, ?_, ?_, ?_, s.act_outside _⟩
    · rw [State.act_chip, Chip.settle_store, step, ← cursor]; rfl
    · rw [State.act_chip, Chip.settle_subs, step]; rfl
    · rw [State.act_chip, Chip.settle_journal, step]; rfl
  refine ⟨fun dirty free => ?_, fun dirty waits => moved (Chip.writeBackStep_skips cursor hi dirty waits),
    fun clean some => moved (Chip.writeBackStep_passes cursor clean some)⟩
  have step := Chip.writeBackStep_copies cursor hi dirty free
  refine ⟨_, rfl, ?_, ?_, fun j other => ?_, ?_, s.act_outside _⟩
  · rw [State.act_chip, Chip.settle_store, step]; rfl
  · rw [State.act_chip, Chip.sub, Chip.settle_subs, step]
    exact s.chip.sub_updSub _ hi
  · rw [State.act_chip, Chip.sub, Chip.settle_subs, step]
    exact s.chip.sub_updSub_other _ other
  · rw [State.act_chip, Chip.settle_journal, step]; rfl

end Sys2Proof.Machine

namespace Sys2Proof.Machine

/-! ### What an operation of the Subscriber Store leaves alone -/

/-- The links, supervision, time, line-up, queues and bus over an operation that reaches the records and the store of a
part with nothing to select. -/
theorem sameRest_of_store {s t : State} {d : Chip} (quiet : Settled s)
    (ht : t.chip = d.settle) (reach : Reaches [.subs, .store] s.chip d) :
    SameLinks s t ∧ SameSupervision s t ∧ SameTime s t ∧ SameLineUp s t ∧ SameQueues s t ∧ SameBus s t := by
  obtain ⟨links, orders⟩ := sameLinks_of_settle quiet ht (Chip.running_congr (reach.part (by decide)))
    (.of_reaches reach (by decide)) (reach.ports (by decide)) (reach.branches (by decide)) (reach.rack (by decide))
    (reach.orders (by decide))
  refine ⟨links, sameSupervision_of_reaches reach ht (by decide), sameTime_of_reaches reach ht (by decide),
    sameLineUp_of_reaches reach ht (by decide), ⟨orders, ?_⟩,
    sameBus_of_settle ht reach (by decide) (by decide) (by decide) (by decide)⟩
  rw [ht]
  exact (Chip.settle_journal _).trans (reach.journal (by decide))

/-! ### The outcome of a take in a live block -/

/-- A live block after a change of it. -/
theorem Chip.live_updLive (c : Chip) {i : Nat} (hi : i < 2048) (f : Live → Live) :
    ((c.updLive i f).sub i).live = f (c.sub i).live := by
  rw [c.sub_updLive_setLive f hi, Subscriber.setLive_live]

/-- The taken intent of any record over a change of a live block. -/
theorem Chip.taken_updLive (c : Chip) (i j : Nat) (f : Live → Live) :
    ((c.updLive i f).sub j).taken = (c.sub j).taken :=
  vget_vupd_kept (f := fun r => r.setLive f) Subscriber.taken (fun r => r.setLive_taken f) c.subs i j

/-- A change of a field marks the record dirty (R36). -/
theorem Chip.dirty_updLive (c : Chip) {i : Nat} (hi : i < 2048) {f : Live → Live}
    (changed : f (c.sub i).live ≠ (c.sub i).live) : ((c.updLive i f).sub i).dirty = true := by
  rw [c.sub_updLive i f hi, if_neg changed]

/-! ### The take at its turn (R24, R120) -/

/-- The store with the take of record i taken up: it leaves the queue, and the turn is served. -/
def Chip.takenUp (c : Chip) (i : Nat) : Chip :=
  c.setStore { c.store with queue := c.store.queue.filter (· != i), turn := .takeServed }

/-- REVISION_TAKE at the store's turn serves the oldest filled record of the queue. -/
theorem exec_revisionTake_eq {s : State} {i : Nat} (turn : s.chip.takeTurn = true) (servable : s.chip.servable = some i) :
    ∃ t, exec .revisionTake s = .next t ∧ t.chip = ((s.chip.takenUp i).serveTake i).settle ∧ SameOutside s t := by
  refine ⟨s.act Chip.takeNext, congrArg Host.Outcome.next (State.actIf_ready turn _), ?_, s.act_outside _⟩
  rw [State.act_chip, Chip.takeNext, servable]
  rfl

/-- The outcome of a take that has no effect on the service: DONE for the taken revision, or the code of the first check
that fails (R25). -/
def Chip.takeCode (c : Chip) (i : Nat) : Option OutcomeCode :=
  let n := c.intent i
  let owner := (c.port (n.element * 4 + n.port)).owner
  if n.revision = (c.sub i).live.takenRev then some .done
  else if n.status = 0 then none
  else if 2 < n.status then some .statusCode
  else if 7 < n.zone then some .zoneRange
  else if 639 < n.element ∨ c.isTap n.element = false then some .notATap
  else if 3 < n.port then some .portRange
  else if owner ≠ none ∧ owner ≠ some i then some .portTaken
  else if (c.sub i).live.state = .final then some .finalPending
  else none

/-- A take with such an outcome shows it, and does nothing else. -/
theorem Chip.serveTake_code {c : Chip} {i : Nat} {o : OutcomeCode} (code : c.takeCode i = some o) :
    c.serveTake i = c.takeOutcome i o := by
  unfold Chip.takeCode at code
  unfold Chip.serveTake
  dsimp only at code ⊢
  by_cases revision : (c.intent i).revision = (c.sub i).live.takenRev
  · rw [if_pos revision] at code ⊢
    obtain rfl := Option.some.inj code
    rfl
  · rw [if_neg revision] at code ⊢
    by_cases vacant : (c.intent i).status = 0
    · rw [if_pos vacant] at code
      exact absurd code (by simp)
    · rw [if_neg vacant] at code ⊢
      by_cases status : 2 < (c.intent i).status
      · rw [if_pos status] at code
        obtain rfl := Option.some.inj code
        rw [if_neg (by omega)]
      · rw [if_neg status] at code
        rw [if_pos (by omega), show c.checkService i (c.intent i) = some o from code]

/-- Settles O30: the outcome is shown in the live block alone, behind the store's own turn. -/
theorem revisionTakeRepeatsOrRefuses : Obligations.RevisionTakeRepeatsOrRefuses := by
  intro i s quiet turn servable hi n owner code o hcode
  obtain ⟨t, next, chip, outside⟩ := exec_revisionTake_eq turn servable
  have taken : (s.chip.takenUp i).takeCode i = some o := hcode
  rw [Chip.serveTake_code taken] at chip
  have reach : Reaches [.subs, .store] s.chip ((s.chip.takenUp i).takeOutcome i o) :=
    (s.chip.setStore_reaches _).then (by rfl) (Chip.takeOutcome_reaches _ _ _)
  obtain ⟨links, supervision, time, lineUp, queues, bus⟩ :=
    sameRest_of_store quiet chip reach
  have sub : ∀ j, t.chip.sub j = ((s.chip.takenUp i).takeOutcome i o).sub j := fun j => by
    rw [chip, Chip.sub, Chip.settle_subs]; rfl
  have store : t.chip.store = (s.chip.takenUp i).store := by rw [chip, Chip.settle_store]; rfl
  refine ⟨t, next, ?_, ?_, by rw [store]; rfl, by rw [store]; rfl, fun j other => ?_, links, supervision, time, lineUp,
    queues, bus, outside⟩
  · rw [sub]
    exact (s.chip.takenUp i).live_updLive hi _
  · rw [sub]
    exact (s.chip.takenUp i).taken_updLive i i _
  · rw [sub]
    exact (s.chip.takenUp i).sub_updLive_other i j _ other

/-! ### The capture of a revision word (R24, R169) -/

/-- The part with a host write to the revision word of record i captured in RUNNING. -/
def Chip.revisionCaptured (c : Chip) (i : Nat) (h : HalfWrite) : Chip :=
  c.setStore { c.store with
    mirror := Memory.writeHost c.store.mirror c.config.subscriber.base (halfWord h (c.config.subscriber.base + 128 * i)) }

/-- REVISION_WRITE while RUNNING: the capture, the record's request, and what follows. -/
theorem exec_revisionWrite_eq {i : Nat} {h : HalfWrite} {s : State} (free : BusFree s) (running : s.chip.running = true)
    (map : s.chip.part.mapInForce = true) (touched : touchesWord h = true) (hi : i < 2048)
    (kind : s.chip.kindOf (s.chip.config.subscriber.base + 128 * i) = .intent (128 * i)) :
    ∃ t, exec (.revisionWrite i h) s = .next t ∧ t.chip = ((s.chip.revisionCaptured i h).queueTake i).settle
      ∧ t.array = Memory.writeHost s.array 0 (halfWord h (s.chip.config.subscriber.base + 128 * i))
      ∧ t.pending = s.pending := by
  obtain ⟨idle, burst⟩ := free
  generalize addr : s.chip.config.subscriber.base + 128 * i = a at kind
  have host : s.hostBus = true := bne_iff_ne.mpr idle
  have state : s.chip.part.state = .running := by simpa [Chip.running] using running
  have run : exec (.revisionWrite i h) s = .next (s.writeMapped a h) := by
    rw [← addr]; exact if_pos hi
  have rule : writeRule (.intent (128 * i)) s.chip.part.state = .capture := by rw [state]; rfl
  have writes : (halfWord h a).writes = true := (halfWord_writes _ _).trans touched
  have low : (halfWord h a).touchesLow = true := (halfWord_touchesLow _ _).trans touched
  have event : takeEventOf (.intent (128 * i)) (halfWord h a) = some (.revision i) := by
    simp [takeEventOf, low]
  refine ⟨_, run, ?_⟩
  rw [State.writeMapped, host, map, Bool.and_self, if_pos rfl,
    State.writeAlone_capture burst writes (by rw [halfWord_addr, kind]; exact rule), halfWord_addr, kind, event]
  have handed : ∀ r : State, r.handEvents (some (TakeEvent.revision i)).toList =
      r.onChip fun c => (c.revisionEvent i).settle := fun r => rfl
  have captured : (s.chip.mirrorWord (.intent (128 * i)) (halfWord h a)).markWord (halfWord h a) =
      s.chip.revisionCaptured i h := by
    rw [Chip.markWord, if_neg (by rw [Chip.mirrorWord, Chip.setStore_part, state]; decide), Chip.revisionCaptured, addr]
    rfl
  rw [handed]
  refine ⟨?_, ?_, ?_⟩
  · rw [State.onChip_chip, State.captureWord, State.onChip_chip, State.passWord_chip, State.quietLines_chip, captured,
      Chip.revisionEvent, if_neg (fun stopped => stopped.2 state)]
  · rw [State.onChip_array, State.captureWord_array, State.quietLines_array]
  · rw [State.onChip_pending, State.captureWord_pending, State.quietLines_pending]

/-- A record that waits for its take keeps its one request. -/
theorem Chip.queueTake_waiting {c : Chip} {i : Nat} (h : i ∈ c.store.queue) : c.queueTake i = c :=
  if_pos (List.contains_iff_mem.mpr h)

/-- A record that does not wait joins the queue and shows PENDING. -/
theorem Chip.queueTake_joins {c : Chip} {i : Nat} (h : i ∉ c.store.queue) :
    c.queueTake i = (c.setStore { c.store with queue := c.store.queue ++ [i] }).takeOutcome i .pending :=
  if_neg fun waits => h (List.contains_iff_mem.mp waits)

/-- Settles O29: the word is captured; the record's request is that of R24. -/
theorem revisionWriteQueuesTheRecord : Obligations.RevisionWriteQueuesTheRecord := by
  intro i h s quiet canonical free running map touched hi a kind
  obtain ⟨t, next, chip, array, pending⟩ := exec_revisionWrite_eq free running map touched hi kind
  have reach : Reaches [.subs, .store] s.chip ((s.chip.revisionCaptured i h).queueTake i) :=
    (s.chip.setStore_reaches _).then (by rfl) (Chip.queueTake_reaches _ _)
  obtain ⟨links, supervision, time, lineUp, queues, bus⟩ := sameRest_of_store quiet chip reach
  have sub : ∀ j, t.chip.sub j = ((s.chip.revisionCaptured i h).queueTake i).sub j := fun j => by
    rw [chip, Chip.sub, Chip.settle_subs]; rfl
  have store : t.chip.store = ((s.chip.revisionCaptured i h).queueTake i).store := by rw [chip, Chip.settle_store]
  have written : HalfWritten s.array t.array a h := by rw [array]; exact halfWritten_writeHost canonical h a
  by_cases waits : i ∈ s.chip.store.queue
  · rw [Chip.queueTake_waiting (c := s.chip.revisionCaptured i h) waits] at sub store chip
    refine ⟨t, next, written, by rw [store]; rfl, by rw [store]; rfl, fun _ => ⟨by rw [store]; rfl, ?_⟩,
      fun other => absurd waits other, fun j _ => sub j, links, supervision, time, lineUp, queues, bus, pending⟩
    rw [chip, Chip.settle_subs]; rfl
  · rw [Chip.queueTake_joins (c := s.chip.revisionCaptured i h) waits] at sub store
    refine ⟨t, next, written, by rw [store]; rfl, by rw [store]; rfl, fun waiting => absurd waiting waits,
      fun _ => ⟨by rw [store]; rfl, ?_, ?_, fun notPending => ?_⟩, fun j other => ?_, links, supervision, time, lineUp,
      queues, bus, pending⟩ <;> rw [sub]
    · exact Chip.live_updLive _ hi _
    · exact Chip.taken_updLive _ i i _
    · exact Chip.dirty_updLive _ hi fun same => notPending (congrArg Live.outcome same).symm
    · exact Chip.sub_updLive_other _ i j _ other

end Sys2Proof.Machine

namespace Sys2Proof.Machine

/-! ### The writes of a tenure (R174, R180) -/

/-- The memory after a list of writes, each of bytes from an address on. -/
def Memory.writeAll (m : Memory) (l : List (Nat × List Byte)) : Memory :=
  l.foldl (fun m w => Memory.writeBytes m w.1 w.2) m

/-- A read behind one write of bytes. -/
theorem Memory.read_writeBytes_getD {m : Memory} (w : Memory.wf m = true) (a : Nat) (bs : List Byte) (x : Nat) :
    Memory.read (Memory.writeBytes m a bs) x = (if a ≤ x then bs[x - a]? else none).getD (Memory.read m x) := by
  rw [Memory.read_writeBytes w]
  by_cases low : a ≤ x
  · by_cases high : x < a + bs.length
    · have inside : x - a < bs.length := by omega
      rw [if_pos ⟨low, high⟩, if_pos low, List.getElem?_eq_getElem inside, List.getD_eq_getElem _ _ inside,
        Option.getD_some]
    · rw [if_neg (fun both => high both.2), if_pos low, List.getElem?_eq_none (by omega), Option.getD_none]
  · rw [if_neg (fun both => low both.1), if_neg low, Option.getD_none]

/-- A read behind a list of writes is the last write that covers its address, if one does. -/
theorem Memory.read_writeAll {m : Memory} (w : Memory.wf m = true) (l : List (Nat × List Byte)) (x : Nat) :
    Memory.read (Memory.writeAll m l) x = (writtenByte l x).getD (Memory.read m x) := by
  induction l generalizing m with
  | nil => rfl
  | cons head l ih =>
    obtain ⟨a, bs⟩ := head
    calc Memory.read (Memory.writeAll (Memory.writeBytes m a bs) l) x
        = (writtenByte l x).getD (Memory.read (Memory.writeBytes m a bs) x) := ih (Memory.writeBytes_wf a bs w)
      _ = (writtenByte ((a, bs) :: l) x).getD (Memory.read m x) := by
        rw [Memory.read_writeBytes_getD w, writtenByte]
        cases writtenByte l x <;> rfl

/-- What a transfer writes: a fill read nothing. -/
def Transfer.written (t : Transfer) : Nat × List Byte := if t.writing then (t.addr, t.bytes) else (0, [])

theorem applyTransfers_eq_writeAll (m : Memory) (l : List Transfer) :
    applyTransfers m l = Memory.writeAll m (l.map Transfer.written) := by
  unfold applyTransfers Memory.writeAll
  rw [List.foldl_map]
  congr 1
  funext m t
  unfold Transfer.written
  split <;> rfl

/-- The transfers of a tenure write what the statements say a tenure writes, in their order. -/
theorem Chip.transfers_written (c : Chip) (k : Tenure) : (c.transfers k).map Transfer.written = c.tenureWrites k := by
  unfold Chip.transfers Chip.tenureWrites
  simp only [List.map_append, List.map_map]
  congr 1
  · congr 1
    · congr 1
      exact List.map_const'.trans (by rw [List.length_range])
    · cases k.checkpoint <;> rfl
  · cases k.writeBack <;> cases c.store.copy <;> rfl

/-- The array after some of a tenure's transfers. -/
theorem arrayWritten_of_transfers {s t : State} {k : Tenure} (canonical : ArrayCanonical s) (n : Nat)
    (array : t.array = applyTransfers s.array ((s.chip.transfers k).take n)) :
    ArrayWritten s t ((s.chip.tenureWrites k).take n) := by
  intro x
  rw [array, applyTransfers_eq_writeAll, List.map_take, Chip.transfers_written, Memory.read_writeAll canonical]

/-! ### The RESET pin (R180) -/

/-- The blocks that the RESET pin resets. -/
theorem blocksReset_pinReset {s t : State} {strap : BitVec 4} (ht : t.chip = s.chip.pinReset strap) :
    BlocksReset unsettledTimer s t := by
  rw [BlocksReset, ht]
  exact ⟨rfl, rfl, rfl, rfl, rfl, fun b hb => s.chip.hardReset_branch strap .pin hb, rfl, rfl, rfl, rfl, rfl, rfl, rfl,
    rfl, rfl⟩

/-- RESET_PIN resets the part, leaves the waiting commands, and carries out the begun transfers of a tenure. -/
theorem exec_resetPin_eq (strap : BitVec 4) (begun : Nat) (s : State) :
    ∃ t, exec (.resetPin strap begun) s = .next t ∧ t.chip = s.chip.pinReset strap ∧ t.pending = s.pending
      ∧ (s.chip.engine.request ≠ .holding → t.array = s.array)
      ∧ ∀ k, s.chip.engine.request = .holding → s.chip.engine.tenure = some k →
          t.array = applyTransfers s.array ((s.chip.transfers k).take begun) := by
  refine ⟨_, rfl, ?_⟩
  cases tenure : s.chip.engine.tenure with
  | none => exact ⟨rfl, rfl, fun _ => rfl, fun k _ other => absurd other (by simp)⟩
  | some k =>
    by_cases holding : s.chip.engine.request = .holding
    · simp only [if_pos holding]
      refine ⟨rfl, rfl, fun other => absurd holding other, fun k' _ same => ?_⟩
      obtain rfl := Option.some.inj same
      rfl
    · simp only [if_neg holding]
      exact ⟨rfl, rfl, fun _ => rfl, fun _ other => absurd other holding⟩

/-- Settles O9: the part is reset whatever was under way; the array holds the begun transfers. -/
theorem resetPinFinishesBegunTransfers : Obligations.ResetPinFinishesBegunTransfers := by
  intro strap begun s
  obtain ⟨t, next, chip, pending, still, cut⟩ := exec_resetPin_eq strap begun s
  have burst : t.chip.path.burst = s.chip.path.burst.map Burst.unwatched := by rw [chip]; rfl
  refine ⟨t, next, by rw [chip]; rfl, by rw [chip]; rfl, blocksReset_pinReset chip, by rw [chip]; rfl,
    fun none => by rw [burst, none]; rfl, fun b some => by rw [burst, some]; rfl, pending, still,
    fun k canonical holding tenure => ⟨arrayWritten_of_transfers canonical begun (cut k holding tenure), fun zero => ?_⟩⟩
  rw [cut k holding tenure, zero]
  rfl

end Sys2Proof.Machine

namespace Sys2Proof.Machine

/-! ### The words of a READ burst (R162 to R164, R171) -/

/-- The part with the burst in progress ended: a burst with auto-precharge closes its bank (R161). -/
def Chip.burstEnded (c : Chip) (b : Burst) : Chip :=
  if b.autoPrecharge then (c.setPath { c.path with burst := none }).closeBank b.bank
  else c.setPath { c.path with burst := none }

/-- Keeping the burst that is in progress changes nothing. -/
theorem Chip.setBurst_same {c : Chip} {b : Burst} (h : c.path.burst = some b) : c.setBurst b = c := by
  rw [Chip.setBurst, ← h]; rfl

theorem Chip.burstDone_iff {c : Chip} {b : Burst} (h : c.path.burst = some b) : c.burstDone = decide (4 ≤ b.next) := by
  rw [Chip.burstDone, h]

/-- Word k that a READ burst drives: the one taken at the command, or the array's where the burst is blind. -/
def State.drivenWord (s : State) (b : Burst) (l : List Word) (k : Nat) : Word :=
  if b.blind then Memory.word s.array (b.addr k) else l.getD k 0

/-- The state with n words of a READ burst driven. -/
def State.driven (s : State) (b : Burst) (l : List Word) (n : Nat) : State :=
  (s.setLines { s.lines with readData := s.lines.readData ++ (List.range n).map (s.drivenWord b l) }).onChip fun c =>
    c.setBurst { b with next := n }

/-- The next word of a READ burst. -/
theorem State.transferWord_driven (s : State) {b : Burst} {l : List Word} (data : b.data = .reading l) (n : Nat) :
    (s.driven b l n).transferWord = s.driven b l (n + 1) := by
  obtain ⟨bank, row, col, blind, auto, next, words, events⟩ := b
  obtain rfl : words = .reading l := data
  simp only [State.driven, List.range_succ, List.map_append, ← List.append_assoc]
  rfl

/-- The first words of a READ burst, one after the other. -/
theorem State.read_upTo {s : State} {b : Burst} {l : List Word} (burst : s.chip.path.burst = some b)
    (data : b.data = .reading l) (first : b.next = 0) {n : Nat} (hn : n ≤ 4) :
    forIndices n (fun (s : State) _ => if s.chip.burstDone then s else s.transferWord) s = s.driven b l n := by
  induction n with
  | zero =>
    have same : ({ b with next := 0 } : Burst) = b := by rw [← first]
    rw [forIndices_zero, State.driven, same, List.range_zero, List.map_nil, List.append_nil]
    have chip := Chip.setBurst_same burst
    rw [State.onChip, State.setLines_chip, chip]
    rfl
  | succ n ih =>
    have goesOn : (s.driven b l n).chip.burstDone = false := by
      rw [Chip.burstDone_iff (b := { b with next := n }) rfl, decide_eq_false_iff_not]
      exact Nat.not_le.mpr hn
    rw [forIndices_succ, ih (by omega), goesOn]
    exact s.transferWord_driven data n

/-- A burst that has captured no take word ends with no event. -/
theorem State.endBurst_quiet {s : State} {b : Burst} (burst : s.chip.path.burst = some b) (events : b.events = []) :
    s.endBurst = s.onChip fun c => c.burstEnded b := by
  simp only [State.endBurst, burst, events]
  split <;> rfl

/-- The words of a READ burst that are transferred before the next command; the fourth ends the burst. -/
theorem State.transferWords_reading {s : State} {b : Burst} {l : List Word} (burst : s.chip.path.burst = some b)
    (data : b.data = .reading l) (first : b.next = 0) (events : b.events = []) {n : Nat} (hn : n ≤ 4) :
    s.transferWords n =
      if n = 4 then (s.driven b l 4).onChip fun c => c.burstEnded b else s.driven b l n := by
  simp only [State.transferWords, State.read_upTo burst data first hn]
  rw [Chip.burstDone_iff (c := (s.driven b l n).chip) (b := { b with next := n }) rfl]
  by_cases last : n = 4
  · subst last
    rw [if_pos rfl, if_pos (by rfl), State.endBurst_quiet (b := { b with next := 4 }) rfl events]
    rfl
  · rw [if_neg last, if_neg (by simpa using Nat.lt_of_le_of_ne hn last)]

/-! ### READ (R161 to R164, R171) -/

/-- The part behind the look-up of a bank entry: an access to a CLOSED bank is counted blind (R164). -/
def Chip.lookedUp (c : Chip) (bank : BitVec 2) : Chip :=
  if (vget c.path.banks bank.toNat).isSome then c
  else (c.setPath { c.path with blind := c.path.blind + 1 }).setDrawn (c.drawn + 1)

/-- The row an access reaches: the open row of its bank, or the row of a blind access. -/
def Chip.rowAt (c : Chip) (bank : BitVec 2) : BitVec 13 :=
  (vget c.path.banks bank.toNat).getD (Config.blindRow c.drawn bank)

/-- Word k of a READ: merged or the array's for an open row, the array's for a blind access. -/
def State.answeredWord (s : State) (bank : BitVec 2) (col : BitVec 9) (k : Nat) : Word :=
  if (vget s.chip.path.banks bank.toNat).isNone then Memory.word s.array (burstAddr bank (s.chip.rowAt bank) col k)
  else s.hostRead (burstAddr bank (s.chip.rowAt bank) col k)

theorem State.readWords_getD (s : State) (bank : BitVec 2) (col : BitVec 9) (row : BitVec 13) (blind : Bool) {k : Nat}
    (hk : k < 4) : (s.readWords bank col row blind).getD k 0 =
      if blind then Memory.word s.array (burstAddr bank row col k) else s.hostRead (burstAddr bank row col k) := by
  rw [State.readWords, List.getD_eq_getElem?_getD, List.getElem?_map, List.getElem?_range hk]
  rfl

/-- What a READ command does where no burst is in progress. -/
structure ReadDone (s t : State) (bank : BitVec 2) (col : BitVec 9) (auto : Bool) (words : Nat) : Prop where
  data : t.lines.readData = (List.range words).map (s.answeredWord bank col)
  array : t.array = s.array
  blind : t.chip.path.blind = (s.chip.lookedUp bank).path.blind
  guarded : t.chip.path.guarded = s.chip.path.guarded
  whole : words = 4 → t.chip = if auto then (s.chip.lookedUp bank).closeBank bank else s.chip.lookedUp bank

/-- The burst that a READ command begins. -/
def State.readBegun (s : State) (bank : BitVec 2) (col : BitVec 9) (auto : Bool) : Burst :=
  { bank := bank, row := s.chip.rowAt bank, col := col, blind := (vget s.chip.path.banks bank.toNat).isNone
    autoPrecharge := auto, next := 0
    data := .reading (s.readWords bank col (s.chip.rowAt bank) (vget s.chip.path.banks bank.toNat).isNone), events := [] }

theorem Chip.lookedUp_burst (c : Chip) (bank : BitVec 2) : (c.lookedUp bank).path.burst = c.path.burst := by
  unfold Chip.lookedUp; split <;> rfl
theorem Chip.lookedUp_guarded (c : Chip) (bank : BitVec 2) : (c.lookedUp bank).path.guarded = c.path.guarded := by
  unfold Chip.lookedUp; split <;> rfl

/-- Beginning and ending a burst leaves a part with none in progress as the end of it leaves it. -/
theorem Chip.burstEnded_setBurst {c : Chip} (none : c.path.burst = none) (b x : Burst) :
    (c.setBurst x).burstEnded b = if b.autoPrecharge then c.closeBank b.bank else c := by
  have same : (c.setBurst x).setPath { (c.setBurst x).path with burst := Option.none } = c := by
    rw [← none]; rfl
  rw [Chip.burstEnded, same]

theorem Chip.burstEnded_counts (c : Chip) (b : Burst) :
    (c.burstEnded b).path.blind = c.path.blind ∧ (c.burstEnded b).path.guarded = c.path.guarded := by
  unfold Chip.burstEnded; split <;> exact ⟨rfl, rfl⟩

/-- A burst begins on the bank entry looked up. -/
theorem State.startBurst_eq (s : State) (bank : BitVec 2) (col : BitVec 9) (auto : Bool) (words : Nat)
    (data : BitVec 13 → Bool → BurstData) :
    s.startBurst bank col auto words data =
      (s.onChip fun c => (c.lookedUp bank).setBurst
        { bank := bank, row := s.chip.rowAt bank, col := col, blind := (vget s.chip.path.banks bank.toNat).isNone
          autoPrecharge := auto, next := 0
          data := data (s.chip.rowAt bank) (vget s.chip.path.banks bank.toNat).isNone, events := [] }).transferWords
        words := by
  unfold State.startBurst Chip.lookedUp Chip.rowAt
  cases entry : vget s.chip.path.banks bank.toNat <;> simp only [State.onChip, entry] <;> rfl

/-- A READ command where no burst is in progress begins its burst on the bank entry looked up. -/
theorem State.readBurst_eq {s : State} (free : s.chip.path.burst = none) (i : Instr) (bank : BitVec 2) (col : BitVec 9)
    (auto : Bool) (words : Nat) :
    s.readBurst i bank col auto words =
      ((s.forward i).onChip fun c => (c.lookedUp bank).setBurst (s.readBegun bank col auto)).transferWords words := by
  rw [State.readBurst, State.cutForward_none s i free, State.startBurst_eq]
  rfl

theorem State.readBurst_done {s : State} (free : s.chip.path.burst = none) (i : Instr) (bank : BitVec 2) (col : BitVec 9)
    (auto : Bool) {words : Nat} (hn : words ≤ 4) :
    ReadDone s (s.readBurst i bank col auto words) bank col auto words := by
  rw [State.readBurst_eq free]
  generalize hr : ((s.forward i).onChip fun c => (c.lookedUp bank).setBurst (s.readBegun bank col auto)) = r
  have burst : r.chip.path.burst = some (s.readBegun bank col auto) := by rw [← hr]; rfl
  have word : ∀ k, k < 4 → r.drivenWord (s.readBegun bank col auto)
      (s.readWords bank col (s.chip.rowAt bank) (vget s.chip.path.banks bank.toNat).isNone) k =
        s.answeredWord bank col k := by
    intro k hk
    rw [State.drivenWord, State.readWords_getD s bank col _ _ hk, ← hr]
    unfold State.answeredWord
    cases blind : (vget s.chip.path.banks bank.toNat).isNone <;> simp [State.readBegun, blind, Burst.addr, State.forward]
  have data : ∀ n, n ≤ 4 → (List.range n).map (r.drivenWord (s.readBegun bank col auto)
      (s.readWords bank col (s.chip.rowAt bank) (vget s.chip.path.banks bank.toNat).isNone)) =
        (List.range n).map (s.answeredWord bank col) :=
    fun n hn => List.map_congr_left fun k hk => word k ((List.mem_range.mp hk).trans_le hn)
  have none : (s.chip.lookedUp bank).path.burst = Option.none := (s.chip.lookedUp_burst bank).trans free
  have guarded := s.chip.lookedUp_guarded bank
  rw [State.transferWords_reading burst rfl rfl rfl hn]
  by_cases last : words = 4
  · subst last
    rw [if_pos rfl]
    have counts := Chip.burstEnded_counts (r.driven (s.readBegun bank col auto)
      (s.readWords bank col (s.chip.rowAt bank) (vget s.chip.path.banks bank.toNat).isNone) 4).chip
      (s.readBegun bank col auto)
    refine ⟨?_, ?_, counts.1.trans ?_, counts.2.trans ?_, fun _ => ?_⟩
    · rw [← data 4 hn, ← hr]; rfl
    · rw [← hr]; rfl
    · rw [← hr]; rfl
    · rw [← guarded, ← hr]; rfl
    · rw [← hr]
      exact Chip.burstEnded_setBurst none (s.readBegun bank col auto) _
  · rw [if_neg last]
    refine ⟨?_, ?_, ?_, ?_, fun four => absurd four last⟩
    · rw [← data words hn, ← hr]; rfl
    · rw [← hr]; rfl
    · rw [← hr]; rfl
    · rw [← guarded, ← hr]; rfl

/-- READ and READ AUTO PRECHARGE of a free bus. -/
theorem exec_read_done {s : State} (free : BusFree s) (bank : BitVec 2) (col : BitVec 9) {words : Nat} (hn : words ≤ 4) :
    ∃ t, exec (.read bank col words) s = .next t ∧ ReadDone s t bank col false words ∧ t.pending = s.pending := by
  obtain ⟨idle, none⟩ := free
  have host : s.hostBus = true := bne_iff_ne.mpr idle
  exact ⟨_, congrArg Host.Outcome.next (if_pos host), State.readBurst_done none _ bank col false hn,
    s.readBurst_pending _ _ _ _ _⟩
theorem exec_readAutoPrecharge_done {s : State} (free : BusFree s) (bank : BitVec 2) (col : BitVec 9) {words : Nat}
    (hn : words ≤ 4) : ∃ t, exec (.readAutoPrecharge bank col words) s = .next t
      ∧ ReadDone s t bank col true words ∧ t.pending = s.pending := by
  obtain ⟨idle, none⟩ := free
  have host : s.hostBus = true := bne_iff_ne.mpr idle
  exact ⟨_, congrArg Host.Outcome.next (if_pos host), State.readBurst_done none _ bank col true hn,
    s.readBurst_pending _ _ _ _ _⟩

/-! ### An open row and a blind access -/

theorem Chip.lookedUp_open {c : Chip} {bank : BitVec 2} {row : BitVec 13}
    (entry : vget c.path.banks bank.toNat = some row) : c.lookedUp bank = c := by
  rw [Chip.lookedUp, entry]; rfl
theorem Chip.lookedUp_closed {c : Chip} {bank : BitVec 2} (entry : vget c.path.banks bank.toNat = none) :
    c.lookedUp bank = (c.setPath { c.path with blind := c.path.blind + 1 }).setDrawn (c.drawn + 1) := by
  rw [Chip.lookedUp, entry]; rfl
theorem State.answeredWord_open {s : State} {bank : BitVec 2} {row : BitVec 13}
    (entry : vget s.chip.path.banks bank.toNat = some row) (col : BitVec 9) :
    s.answeredWord bank col = fun k => s.hostRead (burstAddr bank row col k) := by
  funext k
  rw [State.answeredWord, Chip.rowAt, entry]
  rfl
theorem State.answeredWord_closed {s : State} {bank : BitVec 2} (entry : vget s.chip.path.banks bank.toNat = none)
    (col : BitVec 9) :
    s.answeredWord bank col = fun k => Memory.word s.array (burstAddr bank (s.chip.rowAt bank) col k) := by
  funext k
  rw [State.answeredWord, entry]
  rfl

/-- Closing a bank that is CLOSED changes nothing. -/
theorem Chip.closeBank_closed {c : Chip} {bank : BitVec 2} (entry : vget c.path.banks bank.toNat = none) :
    c.closeBank bank = c := by
  rw [Chip.closeBank, vupd_id _ _ _ entry.symm]
  rfl

/-- A closed bank's entry reads CLOSED. -/
theorem Chip.closeBank_entry (c : Chip) (bank : BitVec 2) : vget (c.closeBank bank).path.banks bank.toNat = none :=
  vget_vupd_same _ _ _ bank.isLt

/-! ### Merged words by part state (R168, R171) -/

theorem State.hostRead_unmerged {s : State} {a : Nat} (h : s.chip.merged (s.chip.kindOf a) = none) :
    s.hostRead a = Memory.word s.array a := by rw [State.hostRead, h]; rfl
theorem State.hostRead_merged {s : State} {a : Nat} {w : Word} (h : s.chip.merged (s.chip.kindOf a) = some w) :
    s.hostRead a = w := by rw [State.hostRead, h]; rfl

/-- The config outcome word is merged from FILL on. -/
theorem Chip.merged_configOutcome {c : Chip}
    (h : c.part.state = .fill ∨ c.part.state = .running ∨ c.part.state = .configFault) :
    c.merged .configOutcome = some c.part.word := by
  obtain h | h | h := h <;> rw [Chip.merged, h] <;> rfl

/-- A live section is merged in FILL and RUNNING where its record is filled. -/
theorem Chip.merged_live {c : Chip} {i off : Nat} (h : c.part.state = .fill ∨ c.part.state = .running)
    (filled : (c.sub i).filled = true) : c.merged (.live i off) = some (wordAt (c.sub i).liveBytes off) := by
  obtain h | h := h <;> simp [Chip.merged, h, filled, PartState.unwatched]
theorem Chip.merged_live_none {c : Chip} {i off : Nat}
    (h : c.part.state = .configFault ∨ (c.sub i).filled = false) : c.merged (.live i off) = none := by
  obtain h | h := h <;> simp [Chip.merged, h]

/-- Settles O16: the words of a burst taken at the command, for an open row and for a blind access; the merged words by
part state. -/
theorem readAnswersMergedWords : Obligations.ReadAnswersMergedWords := by
  refine ⟨fun bank row col words s free entry _ hn => ⟨?_, ?_⟩, fun bank col words s free entry _ hn => ?_,
    fun s a => ⟨fun unwatched => ?_, fun watched kind => ?_, fun i off kind =>
      ⟨fun watched filled known => ?_, fun code watched filled odd => ?_, fun unmerged => ?_⟩⟩⟩
  · obtain ⟨t, next, done, pending⟩ := exec_read_done free bank col hn
    refine ⟨t, next, done.data.trans (by rw [State.answeredWord_open entry]), done.array, pending, fun last => ?_⟩
    exact (done.whole last).trans (Chip.lookedUp_open entry)
  · obtain ⟨t, next, done, pending⟩ := exec_readAutoPrecharge_done free bank col hn
    refine ⟨t, next, done.data.trans (by rw [State.answeredWord_open entry]), done.array, pending, fun last => ?_⟩
    have chip : t.chip = s.chip.closeBank bank := (done.whole last).trans (by rw [Chip.lookedUp_open entry]; rfl)
    exact ⟨chip, by rw [chip]; exact s.chip.closeBank_entry bank⟩
  · have blind : ∀ {t : State} {auto : Bool}, ReadDone s t bank col auto words → t.pending = s.pending →
        t.chip.path.blind = s.chip.path.blind + 1
          ∧ (∃ row : BitVec 13, t.lines.readData =
              (List.range words).map (fun k => Memory.word s.array (burstAddr bank row col k)))
          ∧ (words = 4 → t.chip =
              (s.chip.setPath { s.chip.path with blind := s.chip.path.blind + 1 }).setDrawn (s.chip.drawn + 1))
          ∧ t.array = s.array ∧ t.pending = s.pending ∧ t.chip.path.guarded = s.chip.path.guarded := by
      intro t auto done pending
      have looked := Chip.lookedUp_closed entry
      refine ⟨done.blind.trans (by rw [looked]; rfl),
        ⟨s.chip.rowAt bank, done.data.trans (by rw [State.answeredWord_closed entry])⟩, fun last => ?_, done.array,
        pending, done.guarded⟩
      have closed : (s.chip.lookedUp bank).closeBank bank = s.chip.lookedUp bank :=
        Chip.closeBank_closed (by rw [looked]; exact entry)
      rw [done.whole last, closed, ite_self, looked]
    rintro c (rfl | rfl)
    · obtain ⟨t, next, done, pending⟩ := exec_read_done free bank col hn
      exact ⟨t, next, blind done pending⟩
    · obtain ⟨t, next, done, pending⟩ := exec_readAutoPrecharge_done free bank col hn
      exact ⟨t, next, blind done pending⟩
  · refine State.hostRead_unmerged (Chip.merged_unwatched _ _ ?_)
    obtain h | h := unwatched <;> rw [h] <;> rfl
  · exact State.hostRead_merged (by rw [kind]; exact Chip.merged_configOutcome watched)
  · refine State.hostRead_merged (by rw [kind, Chip.merged_live watched filled, Subscriber.liveBytes, known])
  · refine State.hostRead_merged (by rw [kind, Chip.merged_live watched filled, Subscriber.liveBytes, odd])
  · exact State.hostRead_unmerged (by rw [kind]; exact Chip.merged_live_none unmerged)

end Sys2Proof.Machine

namespace Sys2Proof.Machine

/-! ### Fields as bytes (R188) -/

@[simp] theorem length_bytesOfNat (n v : Nat) : (bytesOfNat n v).length = n := by
  induction n generalizing v with
  | zero => rfl
  | succ n ih => rw [bytesOfNat, List.length_cons, ih]

@[simp] theorem length_bytesOfInt (n : Nat) (v : Int) : (bytesOfInt n v).length = n := length_bytesOfNat n _

/-- A number written in n bytes reads back modulo their range. -/
theorem natOfBytes_bytesOfNat (n v : Nat) : natOfBytes (bytesOfNat n v) = v % 256 ^ n := by
  induction n generalizing v with
  | zero => rw [Nat.pow_zero, Nat.mod_one]; rfl
  | succ n ih =>
    have pow : 256 ^ (n + 1) = 256 * 256 ^ n := Nat.pow_succ'
    rw [bytesOfNat, natOfBytes, ih, BitVec.toNat_ofNat, pow, Nat.mod_mul]

/-- A number in range reads back as itself. -/
theorem natOfBytes_bytesOfNat_of_lt {n v : Nat} (h : v < 256 ^ n) : natOfBytes (bytesOfNat n v) = v := by
  rw [natOfBytes_bytesOfNat, Nat.mod_eq_of_lt h]

/-- A signed number in range reads back as itself. -/
theorem signedOf_bytesOfInt {n : Nat} {v : Int} (low : -(256 ^ n : Nat) ≤ 2 * v) (high : 2 * v < (256 ^ n : Nat)) :
    signedOf n (natOfBytes (bytesOfInt n v)) = v := by
  rw [bytesOfInt, natOfBytes_bytesOfNat, signedOf]
  have pos : 0 < 256 ^ n := Nat.pow_pos (by omega)
  generalize 256 ^ n = b at *
  have small : (v % (b : Int)).toNat < b := by
    have := Int.emod_lt_of_pos v (Int.natCast_pos.mpr pos)
    omega
  rw [Nat.mod_eq_of_lt small]
  by_cases negative : v < 0
  · have mod : v % (b : Int) = v + b := by
      rw [← Int.add_emod_right, Int.emod_eq_of_lt (by omega) (by omega)]
    rw [mod]
    split <;> omega
  · have mod : v % (b : Int) = v := Int.emod_eq_of_lt (by omega) (by omega)
    rw [mod]
    split <;> omega

/-- A minute number, or NONE, reads back as itself. -/
theorem minuteOfField_minuteField {m : Option Nat} (h : ∀ x, m = some x → x < 4294967295) :
    minuteOfField (minuteField m) = m := by
  cases m with
  | none => rfl
  | some x => exact if_neg (h x rfl).ne
theorem minuteField_lt {m : Option Nat} (h : ∀ x, m = some x → x < 4294967295) : minuteField m < 256 ^ 4 := by
  cases m with
  | none => simp [minuteField]
  | some x => exact (h x rfl).trans (by decide)

/-! ### Fields of a record written to an empty memory -/

/-- The bytes of a record, written from an address on, read back by their places in it. -/
theorem Memory.read_record {bs : List Byte} {a o x : Nat} (hx : x = a + o) (ho : o < bs.length) :
    Memory.read (Memory.writeBytes [] a bs) x = bs.getD o 0 := by
  rw [Memory.read_writeBytes (by rfl), if_pos (by omega), hx, Nat.add_sub_cancel_left]

theorem Memory.bytes_record {bs : List Byte} {a o x n : Nat} (hx : x = a + o) (ho : o + n ≤ bs.length) :
    Memory.bytes (Memory.writeBytes [] a bs) x n = (bs.drop o).take n := by
  apply List.ext_getElem
  · simp [Memory.bytes]; omega
  · intro k hk hk'
    have inside : k < n := by simpa [Memory.bytes] using hk
    rw [List.getElem_take, List.getElem_drop]
    simp only [Memory.bytes, List.getElem_map, List.getElem_range]
    rw [Memory.read_record (o := o + k) (by omega) (by omega), List.getD_eq_getElem _ _ (by omega)]

/-- A field of a record written to an empty memory. -/
theorem Memory.nat_record {bs : List Byte} {a o x n : Nat} (hx : x = a + o) (ho : o + n ≤ bs.length) :
    Memory.nat (Memory.writeBytes [] a bs) x n = natOfBytes ((bs.drop o).take n) := by
  rw [Memory.nat, Memory.bytes_record hx ho]

/-! ### The purchase slots (R134, R188) -/

@[simp] theorem Purchase.length_bytes (p : Purchase) : p.bytes.length = 16 := rfl

@[simp] theorem length_purchaseSlots (l : List Purchase) : (purchaseSlots l).length = 64 := by simp [purchaseSlots]

/-- Slot k of the packed list: its purchase, or an empty slot behind the list's end. -/
theorem slot_flatMap (l : List Purchase) (m : Nat) {k : Nat} (hk : 16 * k + 16 ≤ 16 * l.length + m) :
    ((l.flatMap Purchase.bytes ++ List.replicate m 0).drop (16 * k)).take 16 =
      (l[k]?.map Purchase.bytes).getD (List.replicate 16 0) := by
  induction l generalizing k with
  | nil =>
    rw [List.flatMap_nil, List.nil_append, List.drop_replicate, List.take_replicate]
    simp only [List.length_nil] at hk
    rw [Nat.min_eq_left (by omega)]
    rfl
  | cons p l ih =>
    rw [List.flatMap_cons, List.append_assoc]
    cases k with
    | zero => exact List.take_left' p.length_bytes
    | succ k =>
      have skip : 16 * (k + 1) = p.bytes.length + 16 * k := by rw [p.length_bytes]; omega
      rw [skip, List.drop_length_add_append, ih (by simp only [List.length_cons] at hk; omega)]
      rfl

theorem slot_purchaseSlots (l : List Purchase) {k : Nat} (hk : k < 4) :
    ((purchaseSlots l).drop (16 * k)).take 16 = (l[k]?.map Purchase.bytes).getD (List.replicate 16 0) := by
  rw [purchaseSlots, List.drop_take, List.take_take, Nat.min_eq_left (by omega)]
  exact slot_flatMap l 64 (by omega)

/-- A field of a slot of 16 bytes within a record. -/
theorem Memory.nat_slot {bs slot : List Byte} {a o x j y n : Nat} (hx : x = a + o) (ho : o + 16 ≤ bs.length)
    (hs : (bs.drop o).take 16 = slot) (hy : y = x + j) (hj : j + n ≤ 16) :
    Memory.nat (Memory.writeBytes [] a bs) y n = natOfBytes ((slot.drop j).take n) := by
  rw [Memory.nat_record (o := o + j) (by omega) (by omega), ← hs, List.drop_take, List.take_take, List.drop_drop,
    Nat.min_eq_left (by omega)]

/-- A purchase whose fields are within their widths. -/
def Purchase.InRange (p : Purchase) : Prop :=
  p.position < 256 ∧ p.dark < 65536 ∧ p.start < 4294967296 ∧ p.stop < 4294967296 ∧ 0 ≤ p.price ∧ p.price < 2147483648

theorem PurchaseState.ofCode_code (st : PurchaseState) : PurchaseState.ofCode st.code = some st := by cases st <;> rfl
theorem PurchaseState.code_lt (st : PurchaseState) : st.code < 256 := by cases st <;> decide

/-- The slot of a purchase in range reads back as it. -/
theorem purchaseAt_slot {bs : List Byte} {a o x : Nat} {p : Purchase} (hx : x = a + o) (ho : o + 16 ≤ bs.length)
    (hs : (bs.drop o).take 16 = p.bytes) (range : p.InRange) :
    purchaseAt (Memory.writeBytes [] a bs) x = some p := by
  obtain ⟨position, dark, start, stop, nonneg, price⟩ := range
  have byteOf : ∀ v, v < 256 → natOfBytes [BitVec.ofNat 8 v] = v := fun v hv => natOfBytes_bytesOfNat_of_lt (n := 1) hv
  have field : ∀ {j n : Nat} {l : List Byte} {v : Nat}, j + n ≤ 16 → (p.bytes.drop j).take n = l → natOfBytes l = v →
      Memory.nat (Memory.writeBytes [] a bs) (x + j) n = v :=
    fun hj hl hv => (Memory.nat_slot hx ho hs rfl hj).trans ((congrArg natOfBytes hl).trans hv)
  have code := field (j := 1) (n := 1) (by omega) rfl (byteOf _ p.state.code_lt)
  have first := field (j := 0) (n := 1) (by omega) rfl (byteOf _ position)
  have second := field (j := 2) (n := 2) (by omega) rfl (natOfBytes_bytesOfNat_of_lt (n := 2) dark)
  have third := field (j := 4) (n := 4) (by omega) rfl (natOfBytes_bytesOfNat_of_lt (n := 4) start)
  have fourth := field (j := 8) (n := 4) (by omega) rfl (natOfBytes_bytesOfNat_of_lt (n := 4) stop)
  have amount : (p.price % (256 ^ 4 : Nat)).toNat < 256 ^ 4 := by omega
  have fifth := field (j := 12) (n := 4) (by omega) rfl (natOfBytes_bytesOfNat_of_lt (n := 4) amount)
  have paid : (((p.price % (256 ^ 4 : Nat)).toNat : Nat) : Int) = p.price := by omega
  simp only [purchaseAt, code, PurchaseState.ofCode_code, Option.map_some]
  rw [Nat.add_zero] at first
  simp only [first, second, third, fourth, fifth, paid]

/-- An empty slot reads back as none. -/
theorem purchaseAt_empty {bs : List Byte} {a o x : Nat} (hx : x = a + o) (ho : o + 16 ≤ bs.length)
    (hs : (bs.drop o).take 16 = List.replicate 16 0) : purchaseAt (Memory.writeBytes [] a bs) x = none := by
  have code : Memory.nat (Memory.writeBytes [] a bs) (x + 1) 1 = 0 := Memory.nat_slot hx ho hs rfl (by omega)
  rw [purchaseAt, code]
  rfl

/-- A list of at most four entries is its first four places. -/
theorem filterMap_range_getElem {α : Type} {l : List α} {n : Nat} (h : l.length ≤ n) :
    (List.range n).filterMap (fun k => l[k]?) = l := by
  induction n generalizing l with
  | zero => rw [List.eq_nil_of_length_eq_zero (Nat.le_zero.mp h)]; rfl
  | succ n ih =>
    rw [List.range_succ_eq_map, List.filterMap_cons, List.filterMap_map]
    cases l with
    | nil => exact ih (l := []) (Nat.zero_le _)
    | cons x l => exact congrArg (x :: ·) (ih (l := l) (Nat.le_of_succ_le_succ h))

/-- The purchase slots of a record read back as the list packed into them. -/
theorem purchasesAt_slots {bs : List Byte} {a o x : Nat} {l : List Purchase} (hx : x = a + o) (ho : o + 64 ≤ bs.length)
    (hs : (bs.drop o).take 64 = purchaseSlots l) (short : l.length ≤ 4) (range : ∀ p ∈ l, p.InRange) :
    purchasesAt (Memory.writeBytes [] a bs) x = l := by
  have slot : ∀ k, k < 4 → (bs.drop (o + 16 * k)).take 16 = (l[k]?.map Purchase.bytes).getD (List.replicate 16 0) := by
    intro k hk
    rw [← slot_purchaseSlots l hk, ← hs, List.drop_take, List.take_take, List.drop_drop, Nat.min_eq_left (by omega)]
  calc purchasesAt (Memory.writeBytes [] a bs) x
      = (List.range 4).filterMap (fun k => l[k]?) := ?_
    _ = l := filterMap_range_getElem short
  refine List.filterMap_congr fun k hk => ?_
  have small := List.mem_range.mp hk
  cases entry : l[k]? with
  | none => exact purchaseAt_empty (o := o + 16 * k) (by omega) (by omega) (by rw [slot k small, entry]; rfl)
  | some p =>
    exact purchaseAt_slot (o := o + 16 * k) (by omega) (by omega) (by rw [slot k small, entry]; rfl)
      (range p (List.mem_of_getElem? entry))

/-! ### The live section (R22, R188) -/

theorem Live.length_bytes (l : Live) : l.bytes.length = 96 := by simp [Live.bytes]

theorem RecordState.ofCode_code (st : RecordState) : RecordState.ofCode st.code = some st := by cases st <;> rfl
theorem RecordState.code_lt (st : RecordState) : st.code < 256 := by cases st <;> decide

/-- The four flags of a live section stand in its flags byte. -/
theorem flagsByte_bits (w x y z : Bool) :
    let b : Byte := BitVec.ofNat 8 (flag w + 2 * flag x + 4 * flag y + 8 * flag z)
    b.getLsbD 0 = w ∧ b.getLsbD 1 = x ∧ b.getLsbD 2 = y ∧ b.getLsbD 3 = z := by
  cases w <;> cases x <;> cases y <;> cases z <;> decide

/-- An owned port in range reads back as itself. -/
theorem ownedOfField_ownedField {o : Option Owned}
    (range : ∀ x, o = some x → x.element < 640 ∧ x.port < 4 ∧ x.zone < 8) : ownedOfField (ownedField o) = o := by
  cases o with
  | none => rfl
  | some x =>
    obtain ⟨element, port, zone⟩ := x
    obtain ⟨he, hp, hz⟩ := range _ rfl
    dsimp only at he hp hz
    have field : ownedField (some { element := element, port := port, zone := zone }) =
      element + 1024 * port + 4096 * zone := by simp only [ownedField]; omega
    rw [field, ownedOfField, if_neg (by omega)]
    congr 2 <;> omega
theorem ownedField_lt (o : Option Owned) : ownedField o < 256 ^ 2 := by
  cases o with
  | none => decide
  | some x => simp only [ownedField]; omega

/-- A field of the live section, by its place. -/
theorem Live.nat_bytes (l : Live) {a x o n : Nat} {f : List Byte} (hx : x = a + o) (ho : o + n ≤ 96)
    (hf : (l.bytes.drop o).take n = f) : Memory.nat (Memory.writeBytes [] a l.bytes) x n = natOfBytes f := by
  rw [Memory.nat_record hx (by rw [l.length_bytes]; exact ho), hf]
theorem Live.read_bytes (l : Live) {a x o : Nat} {b : Byte} (hx : x = a + o) (ho : o < 96)
    (hb : l.bytes.getD o 0 = b) : Memory.read (Memory.writeBytes [] a l.bytes) x = b := by
  rw [Memory.read_record hx (by rw [l.length_bytes]; exact ho), hb]

/-- A live block within its fields' ranges. -/
structure Live.InRange (l : Live) : Prop where
  outcome : OutcomeCode.ofByte l.outcome.byte = l.outcome
  held : l.heldMinutes < 65536
  tier : -2147483648 ≤ l.tierAmount ∧ l.tierAmount < 2147483648
  event : -2147483648 ≤ l.eventAmount ∧ l.eventAmount < 2147483648
  remainder : l.remainder < 65536
  numerator : -140737488355328 ≤ l.heldNumerator ∧ l.heldNumerator < 140737488355328
  since : ∀ m, l.outSince = some m → m < 4294967295
  owned : ∀ o, l.owned = some o → o.element < 640 ∧ o.port < 4 ∧ o.zone < 8
  short : l.purchases.length ≤ 4
  purchases : ∀ p ∈ l.purchases, p.InRange

/-- The state code of a live section written is that of its block. -/
theorem Live.state_bytes (l : Live) (a : Nat) :
    RecordState.ofCode (Memory.nat (Memory.writeBytes [] a l.bytes) (a + 1) 1) = some l.state := by
  rw [l.nat_bytes (o := 1) rfl (by omega) rfl]
  exact (congrArg RecordState.ofCode (natOfBytes_bytesOfNat_of_lt (n := 1) l.state.code_lt)).trans l.state.ofCode_code

/-- The purchase slots stand at the end of a live section. -/
theorem Live.slots_bytes (l : Live) : (l.bytes.drop 32).take 64 = purchaseSlots l.purchases := by
  have back : l.bytes.drop 32 = purchaseSlots l.purchases := List.drop_left' (by simp)
  rw [back, List.take_of_length_le (by rw [length_purchaseSlots])]

/-- A live block in range, written as its live section, reads back as itself. -/
theorem Live.liveAt_bytes {l : Live} (r : l.InRange) (a : Nat) : liveAt (Memory.writeBytes [] a l.bytes) a = l := by
  have half : ∀ v : Half, BitVec.ofNat 16 (natOfBytes (bytesOfNat 2 v.toNat)) = v := fun v => by
    rw [natOfBytes_bytesOfNat_of_lt v.isLt, BitVec.ofNat_toNat, BitVec.setWidth_eq]
  have outcome := l.read_bytes (a := a) (x := a) (o := 0) (b := l.outcome.byte) rfl (by omega) rfl
  have revision := l.nat_bytes (a := a) (o := 2) (n := 2) (f := bytesOfNat 2 l.takenRev.toNat) rfl (by omega) rfl
  have cycle := l.read_bytes (a := a) (o := 4) (b := l.cycle) rfl (by omega) rfl
  have flags := l.read_bytes (a := a) (o := 5) (b := BitVec.ofNat 8
    (flag l.appliedOn + 2 * flag l.confirmed + 4 * flag l.stuck + 8 * flag l.saturated)) rfl (by omega) rfl
  have tiers := l.nat_bytes (a := a) (o := 6) (n := 2) (f := bytesOfNat 2 l.appliedTiers.toNat) rfl (by omega) rfl
  have owned := l.nat_bytes (a := a) (o := 8) (n := 2) (f := bytesOfNat 2 (ownedField l.owned)) rfl (by omega) rfl
  have held := l.nat_bytes (a := a) (o := 10) (n := 2) (f := bytesOfNat 2 l.heldMinutes) rfl (by omega) rfl
  have tier := l.nat_bytes (a := a) (o := 12) (n := 4) (f := bytesOfInt 4 l.tierAmount) rfl (by omega) rfl
  have event := l.nat_bytes (a := a) (o := 16) (n := 4) (f := bytesOfInt 4 l.eventAmount) rfl (by omega) rfl
  have remainder := l.nat_bytes (a := a) (o := 20) (n := 2) (f := bytesOfNat 2 l.remainder) rfl (by omega) rfl
  have numerator := l.nat_bytes (a := a) (o := 22) (n := 6) (f := bytesOfInt 6 l.heldNumerator) rfl (by omega) rfl
  have since := l.nat_bytes (a := a) (o := 28) (n := 4) (f := bytesOfNat 4 (minuteField l.outSince)) rfl (by omega) rfl
  have purchases := purchasesAt_slots (bs := l.bytes) (a := a) (o := 32) rfl (by rw [l.length_bytes])
    l.slots_bytes r.short r.purchases
  obtain ⟨on, confirmed, stuck, saturated⟩ := flagsByte_bits l.appliedOn l.confirmed l.stuck l.saturated
  simp only [liveAt, Memory.int, outcome, l.state_bytes, revision, cycle, flags, tiers, owned, held, tier, event,
    remainder, numerator, since, purchases, half, on, confirmed, stuck, saturated, r.outcome, Option.getD_some]
  obtain ⟨tierLow, tierHigh⟩ := r.tier
  obtain ⟨eventLow, eventHigh⟩ := r.event
  obtain ⟨numeratorLow, numeratorHigh⟩ := r.numerator
  rw [natOfBytes_bytesOfNat_of_lt (ownedField_lt l.owned), ownedOfField_ownedField r.owned,
    natOfBytes_bytesOfNat_of_lt (n := 2) r.held, signedOf_bytesOfInt (n := 4) (by omega) (by omega),
    signedOf_bytesOfInt (n := 4) (by omega) (by omega), natOfBytes_bytesOfNat_of_lt (n := 2) r.remainder,
    signedOf_bytesOfInt (n := 6) (by omega) (by omega), natOfBytes_bytesOfNat_of_lt (minuteField_lt r.since),
    minuteOfField_minuteField r.since]

/-- Settles O58: field by field, the purchases slot by slot. -/
theorem liveSectionRoundTrips : Obligations.LiveSectionRoundTrips := by
  intro l a outcome held tierLow tierHigh eventLow eventHigh remainder numeratorLow numeratorHigh since owned short
    purchases
  refine ⟨l.length_bytes, Live.liveAt_bytes ⟨outcome, held, ⟨tierLow, tierHigh⟩, ⟨eventLow, eventHigh⟩, remainder,
    ⟨numeratorLow, numeratorHigh⟩, since, owned, short, purchases⟩ a, ?_⟩
  rw [oddStateAt, l.state_bytes]
  rfl

end Sys2Proof.Machine

namespace Sys2Proof.Machine

/-! ### The bytes of a journal entry (11.6) -/

theorem natOfBytes_half (v : Half) : natOfBytes (bytesOfNat 2 v.toNat) = v.toNat := natOfBytes_bytesOfNat_of_lt v.isLt
theorem natOfBytes_word (v : Word) : natOfBytes (bytesOfNat 4 v.toNat) = v.toNat := natOfBytes_bytesOfNat_of_lt v.isLt

theorem minuteField_eq_getD (m : Option Nat) : minuteField m = m.getD 4294967295 := by cases m <;> rfl
theorem sourceByte_eq_getD (k : Option Nat) : sourceByte k = BitVec.ofNat 8 (k.getD 255) := by cases k <;> rfl
theorem flag_eq_ite (x : Bool) : flag x = if x = true then 1 else 0 := by cases x <;> rfl

theorem portPayload_off (port : Nat) : portPayload port .off = BitVec.ofNat 8 (port % 4) :: List.replicate 10 0 := rfl
theorem portPayload_on (port : Nat) (t : TierSet) (j : JamSet) : portPayload port (.on t j) =
    BitVec.ofNat 8 (128 + port % 4) :: (bytesOfNat 2 t.toNat ++ bytesOfNat 8 j.toNat) := by
  rw [portPayload, Nat.add_comm]

@[simp] theorem length_portPayload (port : Nat) (r : PortState) : (portPayload port r).length = 11 := by cases r <;> rfl

/-- The detail of an entry is of at most 12 bytes. -/
theorem EntryBody.length_detail_le (x : EntryBody) : x.detail.length ≤ 12 := by
  cases x <;> simp [EntryBody.detail]

/-- The detail stands at the end of an entry, its other bytes 0. -/
theorem Entry.drop_bytes (e : Entry) (r : Half) :
    (e.bytes r).drop 20 = e.body.detail ++ List.replicate (12 - e.body.detail.length) 0 := by
  have short := e.body.length_detail_le
  have tail : (e.bytes r).drop 20 = (e.body.detail ++ List.replicate 12 0).take 12 := rfl
  rw [tail, List.take_append, List.take_of_length_le short, List.take_replicate, Nat.min_eq_left (by omega)]

theorem Entry.length_bytes (e : Entry) (r : Half) : (e.bytes r).length = 32 := by
  have head : (e.bytes r).length = 20 + ((e.bytes r).drop 20).length := by
    have long : 32 ≤ (e.bytes r).length ∧ (e.bytes r).length ≤ 32 := by
      simp only [Entry.bytes, List.length_take, List.length_append, List.length_cons, List.length_nil,
        length_bytesOfNat, List.length_replicate]
      omega
    rw [List.length_drop]
    omega
  rw [head, e.drop_bytes, List.length_append, List.length_replicate]
  have := e.body.length_detail_le
  omega

theorem Entry.indexField_lt (e : Entry) : e.indexField < 256 ^ 2 := by
  unfold Entry.indexField
  split
  · next fin sat n _ _ _ _ _ _ =>
    have marks : flag fin ≤ 1 ∧ flag sat ≤ 1 := by cases fin <;> cases sat <;> decide
    have short : n % 8 < 8 := Nat.mod_lt _ (by omega)
    omega
  · omega

/-- An amount of 32 bits is written as itself. -/
theorem amountField_bytes {a : Int} (low : -2147483648 ≤ a) (high : a < 2147483648) :
    bytesOfNat 4 (amountField a).toNat = bytesOfInt 4 a := by
  rw [amountField, if_pos ⟨low, by omega⟩, BitVec.toNat_ofInt]
  rfl

/-- The index, the short detail and the detail of an entry, of whatever kind. -/
theorem Entry.bytes_laid (e : Entry) (r : Half) :
    natOfBytes (((e.bytes r).drop 8).take 2) = e.indexField
      ∧ natOfBytes (((e.bytes r).drop 10).take 2) = e.body.short % 65536
      ∧ (e.bytes r).drop 20 = e.body.detail ++ List.replicate (12 - e.body.detail.length) 0 :=
  ⟨natOfBytes_bytesOfNat_of_lt e.indexField_lt, natOfBytes_bytesOfNat 2 e.body.short, e.drop_bytes r⟩

/-! ### The completion of a tenure (R155, R174) -/

/-- The end of a tenure: its owners take what was transferred, its writes reach the array. -/
theorem exec_tenureComplete_eq {s : State} {k : Tenure} (holding : s.chip.engine.request = .holding)
    (tenure : s.chip.engine.tenure = some k) : exec .tenureComplete s = .next (s.endTenure k) := by
  have unfolded : exec .tenureComplete s = execTenureComplete s := rfl
  rw [unfolded, execTenureComplete, tenure]
  exact congrArg Host.Outcome.next (if_pos holding)

/-- An entry that closes no outage record concerns no owner once it is written. -/
theorem Chip.noticeWritten_other (c : Chip) {e : Entry} (other : ∀ i d o p r, e.body ≠ .outageClosed i d o p r) :
    c.noticeWritten e = c := by
  unfold Chip.noticeWritten
  split
  · next closed => exact absurd closed (other _ _ _ _ _)
  · rfl

theorem Chip.noticesWritten_others {l : List Queued} (c : Chip)
    (others : ∀ q ∈ l, ∀ i d o p r, q.entry.body ≠ .outageClosed i d o p r) :
    l.foldl (fun c q => c.noticeWritten q.entry) c = c := by
  induction l with
  | nil => rfl
  | cons q l ih =>
    rw [List.foldl_cons, c.noticeWritten_other (others q List.mem_cons_self)]
    exact ih fun x hx => others x (List.mem_cons_of_mem _ hx)

/-- Entries written of which none closes an outage record: they leave the queue, and a waiting money entry joins. -/
theorem Chip.entriesWritten_eq {c : Chip} {n : Nat} (some : n ≠ 0)
    (others : ∀ q ∈ c.journal.queue.take n, ∀ i d o p r, q.entry.body ≠ .outageClosed i d o p r) :
    c.entriesWritten n = (c.dropWritten n).answerMoney := by
  rw [Chip.entriesWritten, if_neg some, Chip.noticesWritten_others _ others]

theorem Chip.answerMoney_none {c : Chip} (none : c.moneyWaiting = false) : c.answerMoney = c := by
  rw [Chip.answerMoney, none]
  rfl

theorem Chip.dropWritten_zero (c : Chip) : c.dropWritten 0 = c := by
  unfold Chip.dropWritten
  simp only [List.drop_zero, BitVec.add_zero]
  rfl

/-- Where no money entry waits, such entries just leave the queue. -/
theorem Chip.entriesWritten_unanswered {c : Chip} {n : Nat} (none : c.moneyWaiting = false)
    (others : ∀ q ∈ c.journal.queue.take n, ∀ i d o p r, q.entry.body ≠ .outageClosed i d o p r) :
    c.entriesWritten n = c.dropWritten n := by
  by_cases zero : n = 0
  · rw [zero, c.dropWritten_zero, Chip.entriesWritten, if_pos rfl]
  · rw [Chip.entriesWritten_eq zero others]
    exact Chip.answerMoney_none none

/-- A tenure without fill reads, at its owners. -/
theorem Chip.complete_unread (c : Chip) {k : Tenure} (unread : k.fillReads = 0) (array : Memory) :
    c.complete k array =
      if k.writeBack then (c.tenureEnded.entriesWritten k.entries).copyWritten
      else c.tenureEnded.entriesWritten k.entries := by
  unfold Chip.complete
  rw [unread]
  exact if_pos (.inl rfl)

theorem Chip.tenureEnded_bank (c : Chip) {b : Nat} (hb : b < 4) : vget c.tenureEnded.path.banks b = none := by
  simp [Chip.tenureEnded, vget, hb]

/-- A settled engine does not hold the bus unless it did. -/
theorem Chip.settle_holding {c : Chip} (h : c.engine.request ≠ .holding) : c.settle.engine.request ≠ .holding := by
  obtain ⟨-, same | ⟨-, requests⟩⟩ := c.settle_engine
  · rwa [same]
  · rw [requests]
    decide

theorem Chip.settle_engine_count (c : Chip) : c.settle.engine.count = c.engine.count := by rw [c.settle_engine.1]

/-- The part after a tenure that took no fill read, whose entries concern no owner, while no money entry waits. -/
theorem exec_tenureComplete_quiet {s : State} {k : Tenure} (holding : s.chip.engine.request = .holding)
    (tenure : s.chip.engine.tenure = some k) (unread : k.fillReads = 0) (waits : s.chip.moneyWaiting = false)
    (others : ∀ q ∈ s.chip.journal.queue.take k.entries, ∀ i d o p r, q.entry.body ≠ .outageClosed i d o p r) :
    ∃ t, exec .tenureComplete s = .next t ∧ t.pending = s.pending
      ∧ t.chip = (if k.writeBack then (s.chip.tenureEnded.dropWritten k.entries).copyWritten
          else s.chip.tenureEnded.dropWritten k.entries).settle := by
  refine ⟨_, exec_tenureComplete_eq holding tenure, s.endTenure_pending k, ?_⟩
  rw [State.endTenure_chip, Chip.complete_unread _ unread,
    Chip.entriesWritten_unanswered (c := s.chip.tenureEnded) waits others]

/-! ### The bytes of a checkpoint (11.2) -/

theorem Checkpoint.length_bytes (x : Checkpoint) (head tail : Half) : (x.bytes head tail).length = 32 := rfl

theorem ofNat_natOfBytes (v : Half) : BitVec.ofNat 16 (natOfBytes (bytesOfNat 2 v.toNat)) = v := by
  rw [natOfBytes_half, BitVec.ofNat_toNat, BitVec.setWidth_eq]

/-- A checkpoint written reads back as its fields. -/
theorem Checkpoint.checkpointAt_bytes (x : Checkpoint) (head tail : Half) (a : Nat) (start : x.start < 4294967296)
    (m : x.m < 4294967296) (nextM : x.nextM < 4294967296) :
    checkpointAt (Memory.writeBytes [] a (x.bytes head tail)) a =
      { mark := 0x4820, cycle := x.cycle, start := x.start, m := x.m, nextM := x.nextM, head := head, tail := tail } := by
  have field : ∀ {y o n : Nat} {f : List Byte} {v : Nat}, y = a + o → o + n ≤ 32 →
      ((x.bytes head tail).drop o).take n = f → natOfBytes f = v →
      Memory.nat (Memory.writeBytes [] a (x.bytes head tail)) y n = v := fun hy ho hf hv =>
    (Memory.nat_record hy (by rw [x.length_bytes]; exact ho)).trans ((congrArg natOfBytes hf).trans hv)
  have mark := field (y := a) (o := 0) (n := 2) (f := bytesOfNat 2 0x4820) rfl (by omega) rfl rfl
  have cycle := field (o := 2) (n := 1) (f := [x.cycle]) rfl (by omega) rfl rfl
  have first := field (o := 4) (n := 4) rfl (by omega) rfl (natOfBytes_bytesOfNat_of_lt (n := 4) start)
  have length := field (o := 8) (n := 4) rfl (by omega) rfl (natOfBytes_bytesOfNat_of_lt (n := 4) m)
  have next := field (o := 12) (n := 4) rfl (by omega) rfl (natOfBytes_bytesOfNat_of_lt (n := 4) nextM)
  have top := field (o := 24) (n := 2) (f := bytesOfNat 2 head.toNat) rfl (by omega) rfl rfl
  have last := field (o := 26) (n := 2) (f := bytesOfNat 2 tail.toNat) rfl (by omega) rfl rfl
  have byte : BitVec.ofNat 8 (natOfBytes [x.cycle]) = x.cycle := by
    simp [natOfBytes]
  simp only [checkpointAt, mark, cycle, first, length, next, top, last, byte, ofNat_natOfBytes]
  rfl

/-- Settles O21: the writes from the tenure's transfers, the bytes kind by kind. -/
theorem tenureCompletionWritesItsTransfers : Obligations.TenureCompletionWritesItsTransfers := by
  refine ⟨fun s k canonical holding tenure => ?_, fun s k holding tenure unread waits others => ?_, fun e r => ?_,
    fun x head tail => ?_, fun x head tail a start m nextM => ?_⟩
  · refine ⟨_, exec_tenureComplete_eq holding tenure, ?_, s.endTenure_pending k⟩
    have written := arrayWritten_of_transfers canonical (s.chip.transfers k).length (t := s.endTenure k) (k := k)
      (by rw [s.endTenure_array, List.take_length])
    rwa [List.take_of_length_le (by rw [← Chip.transfers_written, List.length_map])] at written
  · obtain ⟨t, next, pending, chip⟩ := exec_tenureComplete_quiet holding tenure unread waits others
    refine ⟨t, next, ?_⟩
    rw [chip]
    simp only [Chip.settle_path, Chip.settle_journal, Chip.settle_store, Chip.settle_subs, Chip.settle_outages,
      Chip.settle_engine_count]
    refine ⟨Chip.settle_holding ?_, ?_⟩
    · split <;> exact (by decide : RequestState.idle ≠ .holding)
    · by_cases back : k.writeBack = true
      · simp only [if_pos back]
        exact ⟨rfl, fun b hb => Chip.tenureEnded_bank _ hb, rfl, rfl, rfl, rfl, pending⟩
      · simp only [if_neg back]
        exact ⟨rfl, fun b hb => Chip.tenureEnded_bank _ hb, rfl, rfl, rfl, rfl, pending⟩
  · refine ⟨e.length_bytes r, ?_, rfl, natOfBytes_half r, fun range => ?_,
      natOfBytes_word e.account, fun low high => ?_, ?_⟩
    · cases money : e.body.money <;> simp [Entry.bytes, money, flag]
    · exact (congrArg minuteOfField (natOfBytes_bytesOfNat_of_lt (minuteField_lt range))).trans
        (minuteOfField_minuteField range)
    · have amount : ((e.bytes r).drop 16).take 4 = bytesOfNat 4 (amountField e.amount).toNat := rfl
      rw [amount, amountField_bytes low high]
      exact signedOf_bytesOfInt (by omega) (by omega)
    · have laid := e.bytes_laid r
      obtain ⟨index, minute, account, amount, cycle, body⟩ := e
      have single : ∀ p, bytesOfNat 1 p = [BitVec.ofNat 8 p] := fun _ => rfl
      cases body with
      | portStuck owner port reported =>
        cases reported with
        | off => simpa only [Entry.indexField, EntryBody.short, EntryBody.detail, portPayload_off] using laid
        | on t j => simpa only [Entry.indexField, EntryBody.short, EntryBody.detail, portPayload_on] using laid
      | _ =>
        simpa only [Entry.indexField, EntryBody.short, EntryBody.detail, minuteField_eq_getD, sourceByte_eq_getD,
          single, flag_eq_ite] using laid
  · exact ⟨fun range => (congrArg minuteOfField (natOfBytes_bytesOfNat_of_lt (minuteField_lt range))).trans
        (minuteOfField_minuteField range),
      natOfBytes_half x.lineUpGen, natOfBytes_half x.plantGen, rfl, rfl⟩
  · exact ⟨x.length_bytes head tail, x.checkpointAt_bytes head tail a start m nextM⟩

end Sys2Proof.Machine

namespace Sys2Proof.Machine

/-! ### Operations on one subscriber record

`Within P i c d`: from c to d no record but i changed, record i kept its taken intent, and its live block kept the
property P. -/

structure Within (P : Live → Prop) (i : Nat) (c d : Chip) : Prop where
  others : ∀ j, j ≠ i → d.sub j = c.sub j
  taken : (d.sub i).taken = (c.sub i).taken
  kept : P (c.sub i).live → P (d.sub i).live

/-- The live block with other values for what the Billing Unit computes. -/
def Live.billed (l x : Live) : Live :=
  { l with
    saturated := x.saturated, tierAmount := x.tierAmount, eventAmount := x.eventAmount, remainder := x.remainder
    heldMinutes := x.heldMinutes, heldNumerator := x.heldNumerator, outSince := x.outSince }

/-- The live block with another applied port summary. -/
def Live.summed (l x : Live) : Live :=
  { l with appliedOn := x.appliedOn, appliedTiers := x.appliedTiers, confirmed := x.confirmed, stuck := x.stuck }

section
variable {P : Live → Prop} {i : Nat} {c d e : Chip}

theorem Within.refl (P : Live → Prop) (i : Nat) (c : Chip) : Within P i c c := ⟨fun _ _ => rfl, rfl, id⟩
theorem Within.trans (h : Within P i c d) (h' : Within P i d e) : Within P i c e :=
  ⟨fun j ne => (h'.others j ne).trans (h.others j ne), h'.taken.trans h.taken, h'.kept ∘ h.kept⟩
theorem Within.ite {p : Prop} [Decidable p] (h : Within P i c d) (h' : Within P i c e) :
    Within P i c (if p then d else e) := by split <;> assumption
theorem Within.of_subs (h : d.subs = c.subs) : Within P i c d := by
  have sub : ∀ j, d.sub j = c.sub j := fun j => by rw [Chip.sub, h]; rfl
  exact ⟨fun j _ => sub j, by rw [sub], fun p => by rwa [sub]⟩
theorem Within.of_reaches {bs : List Block} (h : Reaches bs c d) (hs : Block.subs ∉ bs) : Within P i c d :=
  .of_subs (h.subs hs)

/-- A change of the record's live block that keeps P. -/
theorem Chip.updLive_within {f : Live → Live} (hf : ∀ l, P l → P (f l)) (c : Chip) : Within P i c (c.updLive i f) where
  others j ne := c.sub_updLive_other i j f ne
  taken := c.taken_updLive i i f
  kept p := by
    by_cases hi : i < 2048
    · rw [c.live_updLive hi]
      exact hf _ p
    · have outside : ∀ d : Chip, d.sub i = default := fun d => vget_outside d.subs (by omega)
      rw [outside] at p ⊢
      exact p

section
variable (bill : ∀ l x : Live, P l → P (l.billed x))
include bill

theorem Chip.saturate_within (c : Chip) (w : Amount) (m : Option Nat) : Within P i c (c.saturate i w m) :=
  .ite (.refl P i c) ((c.updLive_within fun l => bill l { l with saturated := true }).trans
    (.of_reaches (Chip.notice_reaches _ _) (by decide)))
theorem Chip.addTier_within (c : Chip) (q : Int) (m : Option Nat) : Within P i c (c.addTier i q m) :=
  have added := c.updLive_within (i := i) fun l =>
    bill l { l with tierAmount := clampTo Config.amountLimit ((c.sub i).live.tierAmount + q) }
  .ite added (added.trans (Chip.saturate_within bill _ _ _))
theorem Chip.addEvent_within (c : Chip) (x : Int) (m : Option Nat) : Within P i c (c.addEvent i x m) :=
  have added := c.updLive_within (i := i) fun l =>
    bill l { l with eventAmount := clampTo Config.amountLimit ((c.sub i).live.eventAmount + x) }
  .ite added (added.trans (Chip.saturate_within bill _ _ _))
theorem Chip.accrue_within (c : Chip) (n : Int) (m : Option Nat) : Within P i c (c.accrue i n m) :=
  (c.updLive_within fun l => bill l { l with
    remainder := ((((c.sub i).live.remainder : Int) + n) % (c.clock.cal.m : Int)).toNat }).trans
      (Chip.addTier_within bill _ _ _)
theorem Chip.clearHeld_within (c : Chip) : Within P i c (c.clearHeld i) :=
  c.updLive_within fun l => bill l { l with heldMinutes := 0, heldNumerator := 0, outSince := none }
theorem Chip.resolveHeld_within (c : Chip) (m : Option Nat) : Within P i c (c.resolveHeld i m) :=
  .ite ((Within.of_reaches (c.money_reaches _) (by decide)).trans (Chip.clearHeld_within bill _))
    ((Chip.accrue_within bill c _ m).trans (Chip.clearHeld_within bill _))
theorem Chip.charge_within (c : Chip) (p : Purchase) (m : Option Nat) : Within P i c (c.charge i p m) :=
  (Chip.addEvent_within bill c p.price m).trans (.of_reaches (Chip.money_reaches _ _) (by decide))

omit bill in
theorem Chip.closeIfStale_within (close : ∀ (l : Live) (k : Byte), P l → P (l.closed k)) (c : Chip)
    (m : Option Nat) : Within P i c (c.closeIfStale i m) :=
  .ite ((Within.of_reaches (c.money_reaches _) (by decide)).trans
    (Chip.updLive_within (fun l => close l c.clock.cal.cycle) _)) (.refl P i c)
theorem Chip.resolveOff_within (close : ∀ (l : Live) (k : Byte), P l → P (l.closed k)) (c : Chip) :
    Within P i c (c.resolveOff i) :=
  .ite (.refl P i c) (.ite ((Chip.closeIfStale_within close c _).trans (Chip.resolveHeld_within bill _ _))
    (.refl P i c))
end

/-- A summary copied from a port that has record i for its owner, or none. -/
theorem Chip.copySummary_within {p : Nat} (owner : (c.port p).owner = none ∨ (c.port p).owner = some i)
    (sum : (c.port p).owner = some i → ∀ l x : Live, P l → P (l.summed x)) : Within P i c (c.copySummary p) := by
  rcases owner with none | own
  · rw [Chip.copySummary_unowned none]
    exact .refl P i c
  · unfold Chip.copySummary
    dsimp only
    rw [own]
    exact c.updLive_within fun l => sum own l { l with
      appliedOn := (c.port p).applied != .off
      appliedTiers := match (c.port p).applied with
        | .on t _ => t
        | .off => 0
      confirmed := (c.port p).confirmed
      stuck := (c.port p).condition == .stuck }

/-- A recompute of such a port. -/
theorem Chip.recompute_within {p : Nat} (owner : (c.port p).owner = none ∨ (c.port p).owner = some i)
    (sum : (c.port p).owner = some i → ∀ l x : Live, P l → P (l.summed x)) : Within P i c (c.recompute p) := by
  have changed : Alike Port.report c (c.updPort p fun r => { r with desired := c.desiredOf p }) :=
    .updPort c p (fun _ => rfl) fun _ => rfl
  have desired := c.updPort_reaches p fun r => { r with desired := c.desiredOf p }
  unfold Chip.recompute Chip.leaveStuck
  dsimp only
  generalize c.updPort p (fun r => { r with desired := c.desiredOf p }) = d at changed desired
  have idle : Alike Port.report d (d.updPort p fun r => { r with mismatch := 0, condition := .idle }) :=
    .updPort d p (fun _ => rfl) fun _ => rfl
  have same := ((changed.trans idle).trans (Chip.testPort_alike steady_report _ p)).owners p
  have kept : Within P i c d := .of_reaches desired (by decide)
  have tested : ∀ e : Chip, Within P i e (e.testPort p) := fun e => .of_reaches (e.testPort_reaches p) (by decide)
  have before := (kept.trans (.of_reaches
    (d.updPort_reaches p fun r => { r with mismatch := 0, condition := .idle }) (by decide))).trans (tested _)
  exact .ite (.refl P i c) (.ite (before.trans (Chip.copySummary_within (by rwa [same]) (by rwa [same])))
    (kept.trans (tested d)))

/-- Owners and what R33 reads of the ports, over an operation within a record that leaves its state and purchases. -/
theorem Alike.of_within {st : RecordState} {ps : List Purchase} (h : Within P i c d)
    (hP : ∀ l, P l → l.state = st ∧ l.purchases = ps) (hc : P (c.sub i).live) (lineUp : d.lineUp = c.lineUp)
    (ports : d.ports = c.ports) : Alike Port.desired c d where
  lineUp := lineUp
  records j := by
    by_cases same : j = i
    · obtain ⟨state, purchases⟩ := hP _ hc
      obtain ⟨state', purchases'⟩ := hP _ (h.kept hc)
      rw [same, h.taken, state, purchases, state', purchases']
      exact ⟨rfl, rfl, rfl⟩
    · rw [h.others j same]
      exact ⟨rfl, rfl, rfl⟩
  owners p := by rw [Chip.port, ports]; rfl
  kept p := by rw [Chip.port, ports]; rfl
end

/-! ### The ownership of a port (R28) -/

theorem Chip.owner_setOwner (c : Chip) {p : Nat} (hp : p < 2560) (o : Option Nat) :
    ((c.setOwner p o).port p).owner = o := congrArg Port.owner (vget_vupd_same c.ports p _ hp)
theorem Chip.port_setOwner_other (c : Chip) {p q : Nat} (h : q ≠ p) (o : Option Nat) :
    (c.setOwner p o).port q = c.port q := c.updPort_port_other h _

/-- A port without an owner, or none at all, has no owner once it is released. -/
theorem Chip.owner_released (c : Chip) (p : Nat) : ((c.setOwner p none).port p).owner = none := by
  by_cases hp : p < 2560
  · exact c.owner_setOwner hp none
  · exact congrArg Port.owner (vget_outside (c.setOwner p none).ports (by omega))

/-- The part with the port that a record owned released. -/
def Chip.releasedOld (c : Chip) : Option Nat → Chip
  | some o => c.setOwner o none
  | none => c

theorem Chip.releasedOld_reaches (c : Chip) (old : Option Nat) : Reaches [.ports] c (c.releasedOld old) := by
  cases old with
  | none => exact .same _ c
  | some o => exact c.setOwner_reaches o none

/-- A move of a record's ownership to another port. -/
theorem Chip.settleOwner_moves {c : Chip} {i : Nat} {n : Intent} (moves : c.ownedPort i ≠ some n.owned.number) :
    c.settleOwner i n = ((((c.updLive i fun l => { l with owned := some n.owned }).releasedOld (c.ownedPort i)).setOwner
      n.owned.number (some i)).copySummary n.owned.number) := by
  unfold Chip.settleOwner
  dsimp only
  rw [if_neg moves]
  cases c.ownedPort i <;> rfl
theorem Chip.settleOwner_stays {c : Chip} {i : Nat} {n : Intent} (stays : c.ownedPort i = some n.owned.number) :
    c.settleOwner i n = c.updLive i fun l => { l with owned := some n.owned } := if_pos stays

/-- The owners after a take has settled the ownership of port p for record i. -/
structure OwnersSettled (i p : Nat) (old : Option Nat) (c d : Chip) : Prop where
  new : old ≠ some p → (d.port p).owner = some i
  mine : (d.port p).owner = none ∨ (d.port p).owner = some i
  gone : ∀ o, old = some o → o ≠ p → (d.port o).owner = none

theorem OwnersSettled.alike {α : Type} {π : Port → α} {i p : Nat} {old : Option Nat} {c d e : Chip}
    (h : OwnersSettled i p old c d) (a : Alike π d e) : OwnersSettled i p old c e where
  new moved := (a.owners p).trans (h.new moved)
  mine := by rw [a.owners p]; exact h.mine
  gone o was ne := (a.owners o).trans (h.gone o was ne)

theorem Chip.settleOwner_owners {c : Chip} {i : Nat} {n : Intent} (hp : n.owned.number < 2560)
    (free : (c.port n.owned.number).owner = none ∨ (c.port n.owned.number).owner = some i) :
    OwnersSettled i n.owned.number (c.ownedPort i) c (c.settleOwner i n) := by
  by_cases stays : c.ownedPort i = some n.owned.number
  · rw [Chip.settleOwner_stays stays]
    refine ⟨fun moved => absurd stays moved, free, fun o old ne => ?_⟩
    exact absurd (Option.some.inj (old.symm.trans stays)) ne
  · rw [Chip.settleOwner_moves stays]
    have settled : OwnersSettled i n.owned.number (c.ownedPort i) c
        (((c.updLive i fun l => { l with owned := some n.owned }).releasedOld (c.ownedPort i)).setOwner
          n.owned.number (some i)) := by
      refine ⟨fun _ => Chip.owner_setOwner _ hp _, .inr (Chip.owner_setOwner _ hp _), fun o old ne => ?_⟩
      rw [Chip.port_setOwner_other _ ne, old]
      exact Chip.owner_released _ o
    exact settled.alike (Chip.copySummary_alike Port.report _ _)

/-! ### The take of a service (R27) -/

/-- The part with an intent taken and its port owned, before the recomputes. -/
def Chip.entered (c : Chip) (i : Nat) (n : Intent) (st : RecordState) : Chip :=
  ((c.copyIntent i n).updLive i fun l =>
    { l with cycle := if l.state = .free then c.clock.cal.cycle else l.cycle, state := st }).settleOwner i n

/-- The part after the recomputes. -/
def Chip.serviced (c : Chip) (i : Nat) (n : Intent) (st : RecordState) : Chip :=
  (c.entered i n st).recomputeMoved (c.ownedPort i) n.owned.number

/-- A held run is resolved where the applied state went from ON to OFF; then the take shows DONE. -/
theorem Chip.takeService_eq (c : Chip) (i : Nat) (n : Intent) (st : RecordState) :
    c.takeService i n st =
      (if (c.sub i).live.appliedOn && !((c.serviced i n st).sub i).live.appliedOn then (c.serviced i n st).resolveOff i
        else c.serviced i n st).takeOutcome i .done := rfl

/-- What a record in service keeps while its port is settled and a held run is resolved. -/
def Live.InService (n : Intent) (st : RecordState) (ps : List Purchase) (l : Live) : Prop :=
  l.state = st ∧ l.purchases = ps ∧ l.takenRev = n.revision ∧ l.owned = some n.owned

theorem Live.closed_other {l : Live} (h : l.state ≠ .final) (k : Byte) :
    l.closed k = { l with tierAmount := 0, eventAmount := 0, remainder := 0, saturated := false, cycle := k } := by
  rw [Live.closed, if_neg h]

section
variable {i : Nat} {n : Intent} {st : RecordState} {c : Chip}

theorem Chip.entered_owners (hi : i < 2048) (hp : n.owned.number < 2560)
    (free : (c.port n.owned.number).owner = none ∨ (c.port n.owned.number).owner = some i) :
    OwnersSettled i n.owned.number (c.ownedPort i) c (c.entered i n st) := by
  have before := Chip.settleOwner_owners (c := (c.copyIntent i n).updLive i fun l =>
    { l with cycle := if l.state = .free then c.clock.cal.cycle else l.cycle, state := st }) (n := n) hp free
  have owned : Chip.ownedPort ((c.copyIntent i n).updLive i fun l =>
      { l with cycle := if l.state = .free then c.clock.cal.cycle else l.cycle, state := st }) i = c.ownedPort i := by
    simp only [Chip.ownedPort, Chip.copyIntent, Chip.live_updLive _ hi, Chip.sub_updSub _ _ hi]
  rw [owned] at before
  exact ⟨before.new, before.mine, before.gone⟩

/-- What the take makes of its own record, with the others as before. -/
structure RecordServed (i : Nat) (n : Intent) (st : RecordState) (c d : Chip) : Prop where
  others : ∀ j, j ≠ i → d.sub j = c.sub j
  taken : (d.sub i).taken = n
  live : (d.sub i).live.InService n st (c.sub i).live.purchases

theorem RecordServed.within {d e : Chip} (h : RecordServed i n st c d)
    (w : Within (Live.InService n st (c.sub i).live.purchases) i d e) : RecordServed i n st c e :=
  ⟨fun j ne => (w.others j ne).trans (h.others j ne), w.taken.trans h.taken, w.kept h.live⟩

theorem Chip.settleOwner_within {P : Live → Prop} (sum : ∀ l x : Live, P l → P (l.summed x)) (hp : n.owned.number < 2560)
    (c : Chip) : Within P i (c.updLive i fun l => { l with owned := some n.owned }) (c.settleOwner i n) := by
  by_cases stays : c.ownedPort i = some n.owned.number
  · rw [Chip.settleOwner_stays stays]
    exact .refl P i _
  · rw [Chip.settleOwner_moves stays]
    exact ((Within.of_reaches (Chip.releasedOld_reaches _ _) (by decide)).trans
      (.of_reaches (Chip.setOwner_reaches _ _ _) (by decide))).trans
        (Chip.copySummary_within (.inr (Chip.owner_setOwner _ hp _)) fun _ => sum)

theorem Chip.entered_record (hi : i < 2048) (hp : n.owned.number < 2560) : RecordServed i n st c (c.entered i n st) := by
  refine RecordServed.within ⟨fun j ne => ?_, ?_, ?_⟩ (Chip.settleOwner_within (fun _ _ h => h) hp _)
  · simp only [Chip.copyIntent, Chip.sub_updLive_other _ _ _ _ ne, Chip.sub_updSub_other _ _ ne]
  · simp only [Chip.copyIntent, Chip.taken_updLive, Chip.sub_updSub _ _ hi]
  · simp only [Live.InService, Chip.copyIntent, Chip.live_updLive _ hi, Chip.sub_updSub _ _ hi, and_self]

theorem Chip.recomputeMoved_alike (c : Chip) (old : Option Nat) (p : Nat) :
    Alike Port.report c (c.recomputeMoved old p) := by
  unfold Chip.recomputeMoved
  split
  · exact .ite (c.recompute_alike p) ((c.recompute_alike _).trans (Chip.recompute_alike _ p))
  · exact c.recompute_alike p

/-- The recomputes behind a take: the port released has no owner, the port owned has this record, if any. -/
theorem Chip.recomputeMoved_within {P : Live → Prop} {p : Nat} {old : Option Nat} {d : Chip}
    (sum : ∀ l x : Live, P l → P (l.summed x)) (owners : OwnersSettled i p old c d) :
    Within P i d (d.recomputeMoved old p) := by
  have here := Chip.recompute_within (P := P) owners.mine fun _ => sum
  cases old with
  | none => exact here
  | some o =>
    by_cases same : o = p
    · have one : d.recomputeMoved (some o) p = d.recompute p := if_pos same
      rw [one]
      exact here
    · have two : d.recomputeMoved (some o) p = (d.recompute o).recompute p := if_neg same
      rw [two]
      refine (Chip.recompute_within (.inl (owners.gone o rfl same)) fun _ => sum).trans
        (Chip.recompute_within ?_ fun _ => sum)
      exact (owners.alike (d.recompute_alike o)).mine

/-- The port owned has the desired state of R33 after the recomputes. -/
theorem Chip.recomputeMoved_desired (c : Chip) {old : Option Nat} {p : Nat} (hp : p < 2560) :
    ((c.recomputeMoved old p).port p).desired = (c.recomputeMoved old p).desiredOf p := by
  have one : ∀ d : Chip, ((d.recompute p).port p).desired = (d.recompute p).desiredOf p := fun d =>
    (d.recompute_desired hp).trans ((d.recompute_alike p).desiredOf p).symm
  unfold Chip.recomputeMoved
  split
  · split
    · exact one _
    · exact one _
  · exact one _

/-- A take of a service that has passed the checks. -/
theorem Chip.takeService_served (hi : i < 2048) (hp : n.owned.number < 2560) (running : st ≠ .final)
    (free : (c.port n.owned.number).owner = none ∨ (c.port n.owned.number).owner = some i) :
    let d := c.takeService i n st
    RecordServed i n st c d ∧ (d.sub i).live.outcome = .done
      ∧ OwnersSettled i n.owned.number (c.ownedPort i) c d
      ∧ (d.port n.owned.number).desired = d.desiredOf n.owned.number := by
  have owners := Chip.entered_owners (st := st) hi hp free
  have moved : RecordServed i n st c (c.serviced i n st) :=
    (Chip.entered_record hi hp).within (Chip.recomputeMoved_within (fun _ _ h => h) owners)
  have settled := owners.alike ((c.entered i n st).recomputeMoved_alike (c.ownedPort i) n.owned.number)
  have desired := (c.entered i n st).recomputeMoved_desired (old := c.ownedPort i) hp
  rw [Chip.takeService_eq]
  generalize hd : c.serviced i n st = d at moved
  rw [Chip.serviced] at hd
  rw [hd] at settled desired
  have within : Within (Live.InService n st (c.sub i).live.purchases) i d
      (if (c.sub i).live.appliedOn && !(d.sub i).live.appliedOn then d.resolveOff i else d) := by
    refine .ite (Chip.resolveOff_within (fun _ _ h => h) (fun l k h => ?_) d) (.refl _ i d)
    rw [Live.closed_other (h.1 ▸ running)]
    exact h
  have reach : Reaches billBlocks d
      (if (c.sub i).live.appliedOn && !(d.sub i).live.appliedOn then d.resolveOff i else d) :=
    .ite (d.resolveOff_reaches i) (.same _ d)
  generalize (if (c.sub i).live.appliedOn && !(d.sub i).live.appliedOn then d.resolveOff i else d) = e at within reach
  have alike : Alike Port.desired d (e.takeOutcome i .done) :=
    (Alike.of_within within (fun l h => ⟨h.1, h.2.1⟩) moved.live (reach.lineUp (by decide))
      (reach.ports (by decide))).trans (e.updLive_alike _ i (fun _ => rfl) fun _ => rfl)
  refine ⟨(moved.within within).within (e.updLive_within (f := fun l => { l with outcome := .done }) fun _ h => h), ?_,
    settled.alike alike, ?_⟩
  · exact congrArg Live.outcome (e.live_updLive hi _)
  · rw [alike.desiredOf, ← desired]
    exact alike.kept _

end

theorem Chip.checkService_passes {c : Chip} {i : Nat} {n : Intent} (zone : n.zone < 8) (element : n.element < 640)
    (tap : c.isTap n.element = true) (port : n.port < 4)
    (free : (c.port n.owned.number).owner = none ∨ (c.port n.owned.number).owner = some i)
    (final : (c.sub i).live.state ≠ .final) : c.checkService i n = none := by
  have unchecked : ¬ (640 ≤ n.element ∨ c.isTap n.element = false) := by
    rw [tap]
    simp only [Bool.true_eq_false, or_false]
    omega
  have mine : ¬ ((c.port n.owned.number).owner ≠ none ∧ (c.port n.owned.number).owner ≠ some i) := fun ⟨owned, other⟩ =>
    free.elim owned other
  unfold Chip.checkService
  dsimp only
  rw [if_neg (by omega), if_neg unchecked, if_neg (by omega), if_neg final]
  exact if_neg mine

theorem Chip.serveTake_service {c : Chip} {i : Nat} (new : (c.intent i).revision ≠ (c.sub i).live.takenRev)
    (status : (c.intent i).status = 1 ∨ (c.intent i).status = 2) (passes : c.checkService i (c.intent i) = none) :
    c.serveTake i = c.takeService i (c.intent i) (if (c.intent i).status = 1 then .active else .suspended) := by
  unfold Chip.serveTake
  dsimp only
  rw [if_neg new, if_neg (by omega), if_pos status, passes]

theorem Chip.takeService_reports (c : Chip) (i : Nat) (n : Intent) (st : RecordState) :
    Reaches reportBlocks c (c.takeService i n st) := by
  have entered : Reaches reportBlocks c (c.serviced i n st) :=
    ((((c.copyIntent_reaches i n).then (by rfl) (Chip.updLive_reaches _ _ _) (bs := reportBlocks)).then (by rfl)
      (Chip.settleOwner_reaches _ i n) (bs := reportBlocks)).then (by rfl) (Chip.recomputeMoved_reaches _ _ _))
  rw [Chip.takeService_eq]
  exact (Reaches.ite (entered.then (by rfl) (Chip.resolveOff_reaches _ i)) entered).then (by rfl)
    (Chip.takeOutcome_reaches _ _ _)

/-- Settles O31: the ownership, then the recomputes, then a held run, each within the record and its ports. -/
theorem revisionTakeEntersService : Obligations.RevisionTakeEntersService := by
  intro i s turn servable hi n p new status zone element tap port free final
  have hp : p < 2560 := by simp only [p]; omega
  obtain ⟨t, next, chip, outside⟩ := exec_revisionTake_eq turn servable
  generalize hst : (if n.status = 1 then RecordState.active else RecordState.suspended) = st
  have running : st ≠ .final := by rw [← hst]; split <;> decide
  have serves : (s.chip.takenUp i).serveTake i = (s.chip.takenUp i).takeService i n st := by
    rw [← hst]
    exact Chip.serveTake_service (c := s.chip.takenUp i) new status
      (Chip.checkService_passes (c := s.chip.takenUp i) zone element tap port free final)
  rw [serves] at chip
  obtain ⟨record, outcome, owners, desired⟩ := Chip.takeService_served (c := s.chip.takenUp i) (n := n) hi hp running free
  have reach := (s.chip.takenUp i).takeService_reports i n st
  generalize (s.chip.takenUp i).takeService i n st = d at chip record outcome owners desired reach
  have whole : Reaches storeBlocks s.chip d := (s.chip.setStore_reaches _).then (by rfl) reach
  have alike := d.settle_alike steady_desired
  have sub : ∀ j, t.chip.sub j = d.sub j := fun j => by rw [chip, Chip.sub, Chip.settle_subs]; rfl
  obtain ⟨state, -, revision, owned⟩ := record.live
  refine ⟨t, next, by rw [sub]; exact record.taken, by rw [sub]; exact state, by rw [sub]; exact revision,
    by rw [sub]; exact outcome, by rw [sub]; exact owned, ?_⟩
  rw [chip]
  refine ⟨fun moved => (owners.alike alike).new moved, fun o was ne _ => (owners.alike alike).gone o was ne, ?_,
    fun j ne => ?_, ?_, sameSupervision_of_reaches whole chip (by decide), sameTime_of_reaches whole chip (by decide),
    sameLineUp_of_reaches whole chip (by decide), outside⟩
  · rw [alike.desiredOf]
    exact (alike.kept p).trans desired
  · rw [← chip, sub]
    exact record.others j ne
  · rw [Chip.settle_store, reach.store (by decide)]
    rfl

end Sys2Proof.Machine

namespace Sys2Proof.Machine

/-! ### The open business of a record that owns no port (R29) -/

/-- A record that has taken a VACANT intent of revision r and released its port. -/
def Live.Vacated (r : Half) (l : Live) : Prop := l.takenRev = r ∧ l.owned = none ∧ l.appliedOn = false

/-- From c to d a vacated record goes on by its open business: no other record and no port is reached. -/
structure Vacating (r : Half) (i : Nat) (c d : Chip) : Prop where
  within : Within (Live.Vacated r) i c d
  reaches : Reaches [.subs, .journal, .store] c d

section
variable {i : Nat} {r : Half} {c d e : Chip}

theorem Vacating.then (h : Vacating r i c d) (h' : Vacating r i d e) : Vacating r i c e :=
  ⟨h.within.trans h'.within, h.reaches.then (by rfl) h'.reaches⟩
theorem Vacating.live (h : Vacating r i c d) (hc : (c.sub i).live.Vacated r) : (d.sub i).live.Vacated r :=
  h.within.kept hc

/-- A step that is known by the blocks it reaches and the fields it changes. -/
theorem vacating_of_reaches {bs : List Block} (w : Within (Live.Vacated r) i c d) (h : Reaches bs c d)
    (hb : within bs [.subs, .journal, .store] = true) : Vacating r i c d := ⟨w, h.wider hb⟩

theorem Chip.updLive_vacating (c : Chip) {f : Live → Live} (hf : ∀ l, Live.Vacated r l → Live.Vacated r (f l)) :
    Vacating r i c (c.updLive i f) := vacating_of_reaches (c.updLive_within hf) (c.updLive_reaches _ _) (by rfl)
theorem Chip.takeOutcome_vacating (c : Chip) (o : OutcomeCode) : Vacating r i c (c.takeOutcome i o) :=
  c.updLive_vacating fun _ h => h
theorem Chip.holdTake_vacating (c : Chip) (x : TakeStep) : Vacating r i c (c.holdTake i x) :=
  vacating_of_reaches (.of_reaches (c.holdTake_reaches i x) (by decide)) (c.holdTake_reaches i x) (by rfl)

/-- A purchase that leaves the list of a record that owns no port recomputes none. -/
theorem Chip.dropFirst_unowned (hi : i < 2048) (h : (c.sub i).live.owned = none) :
    c.dropFirst i = c.updLive i fun l => { l with purchases := l.purchases.eraseIdx 0 } := by
  have none : Chip.ownedPort (c.updLive i fun l => { l with purchases := l.purchases.eraseIdx 0 }) i = none := by
    rw [Chip.ownedPort, Chip.live_updLive _ hi, h]
    rfl
  unfold Chip.dropFirst Chip.dropPurchase Chip.recomputeOwned
  rw [none]

theorem Chip.dropFirst_vacating (hi : i < 2048) (h : (c.sub i).live.Vacated r) : Vacating r i c (c.dropFirst i) := by
  rw [Chip.dropFirst_unowned hi h.2.1]
  exact c.updLive_vacating fun _ h => h

theorem Chip.vacantPurchases_vacating (hi : i < 2048) (fuel : Nat) (hc : (c.sub i).live.Vacated r) :
    Vacating r i c (Chip.vacantPurchases i fuel c) := by
  induction fuel generalizing c with
  | zero => exact c.takeOutcome_vacating .done
  | succ fuel ih =>
    have dropped : ∀ d, Vacating r i c d → Vacating r i c (Chip.vacantPurchases i fuel (d.dropFirst i)) := fun d h =>
      (h.then (Chip.dropFirst_vacating hi (h.live hc))).then (ih ((Chip.dropFirst_vacating hi (h.live hc)).live (h.live hc)))
    have still : Vacating r i c c := ⟨.refl _ i c, .same _ c⟩
    unfold Chip.vacantPurchases
    split
    · exact c.takeOutcome_vacating .done
    · next p _ _ =>
      split
      · exact dropped c still
      · exact dropped _ (vacating_of_reaches (.of_reaches (c.lapsed_reaches i p _) (by decide)) (c.lapsed_reaches i p _) (by rfl))
      · split
        · exact dropped _ (vacating_of_reaches (Chip.charge_within (fun _ _ h => h) c p _) (c.charge_reaches i p _) (by rfl))
        · exact c.holdTake_vacating .purchases
      · exact dropped c still

theorem Chip.vacantRun_vacating (hi : i < 2048) (hc : (c.sub i).live.Vacated r) : Vacating r i c (c.vacantRun i) := by
  have resolved : Vacating r i c (c.resolveHeld i (c.eventMinute i)) :=
    vacating_of_reaches (Chip.resolveHeld_within (fun _ _ h => h) c _) (c.resolveHeld_reaches i _) (by rfl)
  unfold Chip.vacantRun
  split
  · exact Chip.vacantPurchases_vacating hi 5 hc
  · split
    · exact c.holdTake_vacating .credit
    · exact resolved.then (Chip.vacantPurchases_vacating hi 5 (resolved.live hc))

theorem Chip.vacantFinal_vacating (hi : i < 2048) (hc : (c.sub i).live.Vacated r) :
    Vacating r i c (c.vacantFinal i) := by
  have final : Vacating r i c (c.updLive i fun l => { l with state := .final }) := c.updLive_vacating fun _ h => h
  exact final.then (Chip.vacantRun_vacating hi (final.live hc))

theorem Live.closed_vacated {l : Live} (k : Byte) (h : l.Vacated r) : (l.closed k).Vacated r := by
  unfold Live.closed
  split <;> exact h

theorem Chip.vacantClose_vacating (hi : i < 2048) (hc : (c.sub i).live.Vacated r) :
    Vacating r i c (c.vacantClose i) := by
  have closed : Vacating r i c (c.closeIfStale i (c.eventMinute i)) :=
    vacating_of_reaches (Chip.closeIfStale_within (fun _ k h => Live.closed_vacated k h) c _) (c.closeIfStale_reaches i _) (by rfl)
  unfold Chip.vacantClose
  split
  · exact c.holdTake_vacating .close
  · exact closed.then (Chip.vacantFinal_vacating hi (closed.live hc))

end

/-! ### The release of the port (R28) -/

/-- The live block of a record whose port has been released. -/
def Live.vacated (l : Live) (r : Half) : Live :=
  { l with takenRev := r, owned := none, appliedOn := false, appliedTiers := 0, confirmed := false, stuck := false }

/-- The part after steps 1 and 2 of R29. -/
def Chip.vacatedOf (c : Chip) (i : Nat) (n : Intent) : Chip := (c.copyIntent i n).releasePort i

theorem Chip.takeVacant_inUse {c : Chip} {i : Nat} (n : Intent) (use : (c.sub i).live.state.inUse = true) :
    c.takeVacant i n = (c.vacatedOf i n).vacantClose i := if_pos use
theorem Chip.takeVacant_other {c : Chip} {i : Nat} (n : Intent) (use : (c.sub i).live.state.inUse = false) :
    c.takeVacant i n = (c.copyIntent i n).takeOutcome i .done := if_neg (by rw [use]; decide)

/-- The record and the port released. -/
structure Released (i : Nat) (n : Intent) (c d : Chip) : Prop where
  others : ∀ j, j ≠ i → d.sub j = c.sub j
  taken : (d.sub i).taken = n
  live : (d.sub i).live = (c.sub i).live.vacated n.revision
  port : ∀ p, c.ownedPort i = some p → p < 2560 → (d.port p).owner = none ∧ (d.port p).desired = .off

theorem Chip.vacatedOf_released {c : Chip} {i : Nat} (n : Intent) (hi : i < 2048) :
    Released i n c (c.vacatedOf i n) := by
  generalize hd : ((c.copyIntent i n).updLive i fun l => { l with owned := none }).dropSummary i = d
  have others : ∀ j, j ≠ i → d.sub j = c.sub j := fun j ne => by
    rw [← hd]
    simp only [Chip.dropSummary, Chip.copyIntent, Chip.sub_updLive_other _ _ _ _ ne, Chip.sub_updSub_other _ _ ne]
  have taken : (d.sub i).taken = n := by
    rw [← hd]
    simp only [Chip.dropSummary, Chip.copyIntent, Chip.taken_updLive, Chip.sub_updSub _ _ hi]
  have live : (d.sub i).live = (c.sub i).live.vacated n.revision := by
    rw [← hd]
    simp only [Chip.dropSummary, Chip.copyIntent, Chip.live_updLive _ hi, Chip.sub_updSub _ _ hi, Live.vacated]
  have owned : (c.copyIntent i n).ownedPort i = c.ownedPort i := by
    simp only [Chip.ownedPort, Chip.copyIntent, Chip.live_updLive _ hi, Chip.sub_updSub _ _ hi]
  unfold Chip.vacatedOf Chip.releasePort
  rw [hd, owned]
  cases old : c.ownedPort i with
  | none => exact ⟨others, taken, live, fun p own => absurd (old.symm.trans own) (by simp)⟩
  | some p =>
    have free := d.owner_released p
    have within : ∀ P, Within P i d ((d.setOwner p none).recompute p) := fun P =>
      (Within.of_reaches (d.setOwner_reaches p none) (by decide)).trans
        (Chip.recompute_within (.inl free) fun own => absurd (free.symm.trans own) (by simp))
    refine ⟨fun j ne => ((within fun _ => True).others j ne).trans (others j ne),
      (within fun _ => True).taken.trans taken, (within (· = _)).kept live, fun q own hq => ?_⟩
    obtain rfl := Option.some.inj (old.symm.trans own)
    refine ⟨((Chip.recompute_alike _ p).owners p).trans free, (Chip.recompute_desired _ hq).trans ?_⟩
    rw [Chip.desiredOf, free, Chip.desiredFor]

theorem Chip.vacatedOf_reaches (c : Chip) (i : Nat) (n : Intent) : Reaches portBlocks c (c.vacatedOf i n) :=
  (c.copyIntent_reaches i n).then (by rfl) (Chip.releasePort_reaches _ i)

end Sys2Proof.Machine

namespace Sys2Proof.Machine

/-! ### The purchases of a vacated record (R29 step 5, R137) -/

/-- An entry as it stands in the queue before a tenure takes it. -/
def Entry.queued (e : Entry) : Queued := { entry := e, ring := 0, writing := false }

/-- The journal with entries joined at its tail. -/
def Journal.joined (j : Journal) (l : List Queued) : Journal := { j with queue := j.queue ++ l }

theorem Journal.joined_nil (j : Journal) : j.joined [] = j := by rw [Journal.joined, List.append_nil]
theorem Journal.joined_append (j : Journal) (l m : List Queued) : (j.joined l).joined m = j.joined (l ++ m) := by
  rw [Journal.joined, Journal.joined, Journal.joined, List.append_assoc]

theorem Chip.money_joins {c : Chip} (room : c.journal.queue.length < 64) (e : Entry) : c.money e = c.join e :=
  if_pos (decide_eq_true room)
theorem Chip.notice_joins {c : Chip} (room : c.journal.queue.length < 56) (e : Entry) : c.notice e = c.join e :=
  if_pos (decide_eq_true room)
theorem Chip.moneyRoom_full {c : Chip} (full : 64 ≤ c.journal.queue.length) : ¬ c.moneyRoom = true := fun room =>
  absurd (of_decide_eq_true room : c.journal.queue.length < 64) (by omega)
theorem Chip.join_journal (c : Chip) (e : Entry) : (c.join e).journal = c.journal.joined [e.queued] := rfl

theorem Chip.join_sub (c : Chip) (e : Entry) (i : Nat) : (c.join e).sub i = c.sub i := rfl

/-- Within the limit of an amount (R128). -/
def InLimit (x : Int) : Prop := -2000000000 ≤ x ∧ x ≤ 2000000000

/-- An amount within the limit is not clamped. -/
theorem clampTo_within {l x : Int} (low : -l ≤ x) (high : x ≤ l) : clampTo l x = x := by
  unfold clampTo
  omega

theorem Chip.addEvent_within_limit {c : Chip} {i : Nat} {x : Int} (m : Option Nat)
    (fit : InLimit ((c.sub i).live.eventAmount + x)) :
    c.addEvent i x m = c.updLive i fun l => { l with eventAmount := (c.sub i).live.eventAmount + x } := by
  have fits : clampTo Config.amountLimit ((c.sub i).live.eventAmount + x) = (c.sub i).live.eventAmount + x :=
    clampTo_within fit.1 fit.2
  unfold Chip.addEvent
  dsimp only
  rw [fits]
  exact if_pos rfl

/-- What a purchase of a vacated record adds to the event amount. -/
def Purchase.vacantPrice (p : Purchase) : Int := if p.state = .confirmed then p.price else 0

/-- The entry that a purchase of a vacated record leaves with. -/
def Chip.vacantEntry (c : Chip) (i : Nat) (p : Purchase) : Option Queued :=
  match p.state with
  | .booked => none
  | .opening => some (c.entryFor i (c.eventMinute i) 0 (.purchaseLapsed p.position p.start p.stop)).queued
  | .confirmed => some (c.chargeEntry i p (c.eventMinute i)).queued
  | .charged => none

/-- The first purchase of record i has left the list, with its price and its entry. -/
structure PurchaseLeft (i : Nat) (c d : Chip) (p : Purchase) : Prop where
  reaches : Reaches billBlocks c d
  taken : (d.sub i).taken = (c.sub i).taken
  live : (d.sub i).live =
    { (c.sub i).live with
      eventAmount := (c.sub i).live.eventAmount + p.vacantPrice, purchases := (c.sub i).live.purchases.eraseIdx 0 }
  journal : d.journal = c.journal.joined (c.vacantEntry i p).toList

/-- The first purchase of a record that owns no port leaves the list, with the entry of a lapse or a charge where
there is room for it. -/
theorem Chip.vacantPurchases_first {i : Nat} (hi : i < 2048) {c : Chip} (fuel : Nat) {p : Purchase} {rest : List Purchase}
    (list : (c.sub i).live.purchases = p :: rest) (owned : (c.sub i).live.owned = none)
    (lapse : p.state = .opening → c.journal.queue.length < 56)
    (charge : p.state = .confirmed → c.journal.queue.length < 64 ∧ InLimit ((c.sub i).live.eventAmount + p.price)) :
    ∃ d, Chip.vacantPurchases i (fuel + 1) c = Chip.vacantPurchases i fuel d ∧ PurchaseLeft i c d p := by
  have dropped : ∀ d : Chip, Reaches billBlocks c d → (d.sub i).taken = (c.sub i).taken →
      (d.sub i).live = { (c.sub i).live with eventAmount := (c.sub i).live.eventAmount + p.vacantPrice } →
      d.journal = c.journal.joined (c.vacantEntry i p).toList → PurchaseLeft i c (d.dropFirst i) p := by
    intro d reach taken live journal
    rw [Chip.dropFirst_unowned hi (by rw [live]; exact owned)]
    exact ⟨reach.then (by rfl) (d.updLive_reaches _ _), (d.taken_updLive i i _).trans taken,
      by rw [d.live_updLive hi, live], journal⟩
  have silent : c.vacantEntry i p = none → p.vacantPrice = 0 → PurchaseLeft i c (c.dropFirst i) p := fun none zero =>
    dropped c (.same _ c) rfl (by rw [zero, Int.add_zero]) (by rw [none]; exact c.journal.joined_nil.symm)
  rw [Chip.vacantPurchases]
  simp only [list]
  cases state : p.state with
  | booked => exact ⟨_, rfl, silent (by simp [Chip.vacantEntry, state]) (by simp [Purchase.vacantPrice, state])⟩
  | charged => exact ⟨_, rfl, silent (by simp [Chip.vacantEntry, state]) (by simp [Purchase.vacantPrice, state])⟩
  | opening =>
    refine ⟨_, rfl, dropped _ ((c.lapsed_reaches i p _).wider (by rfl)) ?_ ?_ ?_⟩
    · rw [Chip.lapsed, Chip.notice_joins (lapse state)]
      rfl
    · rw [Chip.lapsed, Chip.notice_joins (lapse state), Purchase.vacantPrice, state, if_neg (by decide), Int.add_zero]
      rfl
    · rw [Chip.lapsed, Chip.notice_joins (lapse state), Chip.vacantEntry, state]
      rfl
  | confirmed =>
    obtain ⟨room, fit⟩ := charge state
    have charged : c.charge i p (c.eventMinute i) =
        (c.updLive i fun l => { l with eventAmount := (c.sub i).live.eventAmount + p.price }).join
          (c.chargeEntry i p (c.eventMinute i)) := by
      rw [Chip.charge, Chip.addEvent_within_limit _ fit]
      refine Chip.money_joins ?_ _
      rwa [(c.updLive_reaches i _).journal (by decide)]
    simp only [if_pos (show c.moneyRoom = true from decide_eq_true room)]
    refine ⟨_, rfl, dropped _ (c.charge_reaches i p _) ?_ ?_ ?_⟩
    · rw [charged, Chip.join_sub, Chip.taken_updLive]
    · rw [charged, Chip.join_sub, c.live_updLive hi, Purchase.vacantPrice, if_pos state]
    · rw [charged, Chip.join_journal, (c.updLive_reaches i _).journal (by decide), Chip.vacantEntry, state]
      rfl

/-- The entries of a vacated record depend on its intent, its cycle and the time alone. -/
theorem Chip.vacantEntry_congr {i : Nat} {c d : Chip} (taken : (d.sub i).taken = (c.sub i).taken)
    (cycle : (d.sub i).live.cycle = (c.sub i).live.cycle) (clock : d.clock = c.clock) (pass : d.pass = c.pass) :
    d.vacantEntry i = c.vacantEntry i := by
  have minute : d.eventMinute i = c.eventMinute i := by rw [Chip.eventMinute, clock, pass]; rfl
  funext p
  simp only [Chip.vacantEntry, Chip.chargeEntry, Chip.entryFor, Chip.account, taken, cycle, minute]
theorem PurchaseLeft.entries {i : Nat} {c d : Chip} {p : Purchase} (h : PurchaseLeft i c d p) :
    d.vacantEntry i = c.vacantEntry i :=
  Chip.vacantEntry_congr h.taken (by rw [h.live]) (h.reaches.clock (by decide)) (h.reaches.pass (by decide))

/-- The take of a VACANT intent has ended: the live block, the entries made on the way, and the store as it was. -/
structure VacantDone (i : Nat) (c d : Chip) (x : Live) (l : List Queued) : Prop where
  live : (d.sub i).live = { x with outcome := .done }
  store : d.store = c.store
  journal : d.journal = c.journal.joined l

/-- The take has stopped for a slot and holds the store. -/
structure VacantStopped (i : Nat) (c d : Chip) (x : Live) (step : TakeStep) : Prop where
  live : (d.sub i).live = x
  store : d.store = { c.store with hold := some (.take i step), answered := false }
  journal : d.journal = c.journal

/-- What has been done before the rest of a take: entries at the tail, the store as it was. -/
structure LedTo (c d : Chip) (l : List Queued) : Prop where
  store : d.store = c.store
  journal : d.journal = c.journal.joined l

section
variable {i : Nat} {c d e : Chip} {x : Live}

theorem LedTo.done {l m : List Queued} (h : LedTo c d l) (h' : VacantDone i d e x m) : VacantDone i c e x (l ++ m) :=
  ⟨h'.live, h'.store.trans h.store, by rw [h'.journal, h.journal, Journal.joined_append]⟩
theorem LedTo.stopped {k : TakeStep} (h : LedTo c d []) (h' : VacantStopped i d e x k) : VacantStopped i c e x k :=
  ⟨h'.live, by rw [h'.store, h.store], by rw [h'.journal, h.journal, Journal.joined_nil]⟩
theorem LedTo.updLive (i : Nat) (f : Live → Live) (c : Chip) : LedTo c (c.updLive i f) [] :=
  ⟨(c.updLive_reaches i f).store (by decide), by rw [(c.updLive_reaches i f).journal (by decide), Journal.joined_nil]⟩
theorem PurchaseLeft.ledTo {p : Purchase} (h : PurchaseLeft i c d p) : LedTo c d (c.vacantEntry i p).toList :=
  ⟨h.reaches.store (by decide), h.journal⟩

/-- The take that holds the store for a slot. -/
theorem Chip.holdTake_stopped (c : Chip) (i : Nat) (k : TakeStep) :
    VacantStopped i c (c.holdTake i k) (c.sub i).live k := ⟨rfl, rfl, rfl⟩

/-- An empty list of purchases ends the take. -/
theorem Chip.vacantPurchases_none (hi : i < 2048) (fuel : Nat) (none : (c.sub i).live.purchases = []) :
    VacantDone i c (Chip.vacantPurchases i fuel c) (c.sub i).live [] := by
  have ends : Chip.vacantPurchases i fuel c = c.takeOutcome i .done := by
    cases fuel with
    | zero => rfl
    | succ fuel => rw [Chip.vacantPurchases, none]
  have led := LedTo.updLive i (fun l => { l with outcome := .done }) c
  rw [ends]
  exact ⟨c.live_updLive hi _, led.store, led.journal⟩

/-- Purchases of which each has room for its entry and fits the event amount all leave the list. -/
theorem Chip.vacantPurchases_settles (hi : i < 2048) {ps : List Purchase} {fuel : Nat} (enough : ps.length ≤ fuel)
    (list : (c.sub i).live.purchases = ps) (owned : (c.sub i).live.owned = none)
    (room : c.journal.queue.length + ps.length ≤ 56)
    (fits : ∀ k, k ≤ ps.length →
      InLimit ((c.sub i).live.eventAmount + ((ps.take k).map Purchase.vacantPrice).sum)) :
    VacantDone i c (Chip.vacantPurchases i fuel c)
      { (c.sub i).live with
        eventAmount := (c.sub i).live.eventAmount + (ps.map Purchase.vacantPrice).sum, purchases := [] }
      (ps.filterMap (c.vacantEntry i)) := by
  induction ps generalizing fuel c with
  | nil =>
    have done := Chip.vacantPurchases_none hi fuel list
    refine ⟨done.live.trans ?_, done.store, done.journal⟩
    rw [List.map_nil, List.sum_nil, Int.add_zero, ← list]
  | cons p rest ih =>
    cases fuel with
    | zero => exact absurd enough (by simp)
    | succ fuel =>
      simp only [List.length_cons] at enough room fits
      have first := fits 1 (by omega)
      simp only [List.take_succ_cons, List.take_zero, List.map_cons, List.map_nil, List.sum_cons, List.sum_nil,
        Int.add_zero] at first
      obtain ⟨d, next, left⟩ := Chip.vacantPurchases_first hi fuel list owned (fun _ => by omega) fun confirmed =>
        ⟨by omega, by rwa [Purchase.vacantPrice, if_pos confirmed] at first⟩
      have length : d.journal.queue.length ≤ c.journal.queue.length + 1 := by
        rw [left.journal, Journal.joined, List.length_append]
        cases c.vacantEntry i p <;> simp
      have event : (d.sub i).live.eventAmount = (c.sub i).live.eventAmount + p.vacantPrice := by rw [left.live]
      have done := ih (c := d) (fuel := fuel) (by omega) (by rw [left.live, list]; rfl) (by rw [left.live]; exact owned)
        (by omega) fun k hk => by
          have next := fits (k + 1) (by omega)
          rw [List.take_succ_cons, List.map_cons, List.sum_cons, ← Int.add_assoc] at next
          rwa [event]
      rw [next, List.map_cons, List.sum_cons, ← Int.add_assoc, List.filterMap_cons]
      rw [event, left.entries] at done
      have whole := left.ledTo.done done
      refine ⟨whole.live.trans ?_, whole.store, whole.journal.trans ?_⟩
      · rw [left.live]
      · cases c.vacantEntry i p <;> rfl

/-- Purchases without an entry leave the list; a CONFIRMED one behind them without room for its charge stops the
take. -/
theorem Chip.vacantPurchases_stops (hi : i < 2048) {before after : List Purchase} {p : Purchase} {fuel : Nat}
    (enough : before.length < fuel) (list : (c.sub i).live.purchases = before ++ p :: after)
    (owned : (c.sub i).live.owned = none) (silent : ∀ x ∈ before, x.state = .booked ∨ x.state = .charged)
    (confirmed : p.state = .confirmed) (full : 64 ≤ c.journal.queue.length) :
    VacantStopped i c (Chip.vacantPurchases i fuel c) { (c.sub i).live with purchases := p :: after } .purchases := by
  induction before generalizing fuel c with
  | nil =>
    cases fuel with
    | zero => exact absurd enough (by simp)
    | succ fuel =>
      have stops : Chip.vacantPurchases i (fuel + 1) c = c.holdTake i .purchases := by
        have room : ¬ c.moneyRoom = true := Chip.moneyRoom_full full
        rw [Chip.vacantPurchases]
        simp only [list, List.nil_append, confirmed, if_neg room]
      rw [stops]
      have held := c.holdTake_stopped i .purchases
      exact ⟨held.live.trans (by rw [← List.nil_append (p :: after), ← list]), held.store, held.journal⟩
  | cons x before ih =>
    cases fuel with
    | zero => exact absurd enough (by simp)
    | succ fuel =>
      have quiet := silent x List.mem_cons_self
      obtain ⟨d, next, left⟩ := Chip.vacantPurchases_first hi fuel list owned
        (fun opening => by simp [opening] at quiet) fun confirmed => by simp [confirmed] at quiet
      have entry : c.vacantEntry i x = none := by
        rcases quiet with state | state <;> rw [Chip.vacantEntry, state]
      have price : x.vacantPrice = 0 := by
        rcases quiet with state | state <;> rw [Purchase.vacantPrice, state, if_neg (by decide)]
      have led : LedTo c d [] := by
        have led := left.ledTo
        rwa [entry] at led
      rw [next]
      have stopped := led.stopped (ih (c := d) (fuel := fuel) (by simpa using enough) (by rw [left.live, list]; rfl)
        (by rw [left.live]; exact owned) (fun y hy => silent y (List.mem_cons_of_mem _ hy))
        (by rw [led.journal, Journal.joined_nil]; exact full))
      refine ⟨stopped.live.trans ?_, stopped.store, stopped.journal⟩
      rw [left.live, price, Int.add_zero]

end

end Sys2Proof.Machine

namespace Sys2Proof.Machine

/-! ### A VACANT take with one kind of open business (R29) -/

section
variable {i : Nat} {c : Chip}

/-- The one purchase of a record, lapsing where the queue takes no notice. -/
theorem Chip.vacantPurchases_dropped (hi : i < 2048) (fuel : Nat) {p : Purchase} (list : (c.sub i).live.purchases = [p])
    (owned : (c.sub i).live.owned = none) (opening : p.state = .opening) (full : 56 ≤ c.journal.queue.length) :
    let d := Chip.vacantPurchases i (fuel + 1) c
    (d.sub i).live = { (c.sub i).live with purchases := [], outcome := .done } ∧ d.store = c.store
      ∧ d.journal = { c.journal with dropped := c.journal.dropped + 1 } := by
  have room : ¬ c.noticeRoom = true := fun room => absurd (of_decide_eq_true room : c.journal.queue.length < 56) (by omega)
  have lapsed : c.lapsed i p (c.eventMinute i) = c.setJournal { c.journal with dropped := c.journal.dropped + 1 } :=
    if_neg room
  have next : Chip.vacantPurchases i (fuel + 1) c =
      Chip.vacantPurchases i fuel ((c.lapsed i p (c.eventMinute i)).dropFirst i) := by
    rw [Chip.vacantPurchases]
    simp only [list, opening]
  rw [next, lapsed]
  generalize hd : c.setJournal { c.journal with dropped := c.journal.dropped + 1 } = d
  have sub : d.sub i = c.sub i := by rw [← hd]; rfl
  rw [Chip.dropFirst_unowned hi (by rw [sub]; exact owned)]
  have led := LedTo.updLive i (fun l => { l with purchases := l.purchases.eraseIdx 0 }) d
  have live : ((d.updLive i fun l => { l with purchases := l.purchases.eraseIdx 0 }).sub i).live =
      { (c.sub i).live with purchases := [] } := by
    rw [d.live_updLive hi, sub, list]
    rfl
  have done := led.done (Chip.vacantPurchases_none hi fuel (by rw [live]))
  refine ⟨done.live.trans (by rw [live]), done.store.trans (by rw [← hd]; rfl), done.journal.trans ?_⟩
  rw [List.nil_append, Journal.joined_nil, ← hd]
  rfl

/-- A record without an open held run. -/
theorem Chip.vacantRun_none (none : (c.sub i).live.outSince = none) : c.vacantRun i = Chip.vacantPurchases i 5 c :=
  if_pos (by rw [none]; rfl)

/-- A credit that finds no slot stops the take. -/
theorem Chip.vacantRun_stops (run : (c.sub i).live.outSince.isSome = true)
    (due : c.config.creditThreshold ≤ (c.sub i).live.heldMinutes) (full : 64 ≤ c.journal.queue.length) :
    c.vacantRun i = c.holdTake i .credit := by
  have open' : ¬ (c.sub i).live.outSince.isNone = true := by simp [Option.isSome_iff_ne_none.mp run]
  have stop : (c.creditDue i && !c.moneyRoom) = true := by
    rw [Chip.creditDue, decide_eq_true due, Bool.not_eq_true _ |>.mp (Chip.moneyRoom_full full)]
    rfl
  rw [Chip.vacantRun, if_neg open', if_pos stop]

/-- An open held run with room for its credit, or without one due, is resolved. -/
theorem Chip.vacantRun_resolves (run : (c.sub i).live.outSince.isSome = true)
    (free : c.config.creditThreshold ≤ (c.sub i).live.heldMinutes → c.journal.queue.length < 64) :
    c.vacantRun i = Chip.vacantPurchases i 5 (c.resolveHeld i (c.eventMinute i)) := by
  have open' : ¬ (c.sub i).live.outSince.isNone = true := by simp [Option.isSome_iff_ne_none.mp run]
  have goes : ¬ (c.creditDue i && !c.moneyRoom) = true := by
    rw [Bool.and_eq_true]
    rintro ⟨due, full⟩
    have room : c.moneyRoom = true := decide_eq_true (free (of_decide_eq_true due))
    rw [room] at full
    exact absurd full (by decide)
  rw [Chip.vacantRun, if_neg open', if_neg goes]

/-- The credit of a held run, with a slot free. -/
theorem Chip.credit_joins (hi : i < 2048) (room : c.journal.queue.length < 64) (m : Option Nat) :
    LedTo c (c.credit i m) [(c.creditEntry i m).queued]
      ∧ ((c.credit i m).sub i).live = { (c.sub i).live with heldMinutes := 0, heldNumerator := 0, outSince := none }
      ∧ ((c.credit i m).sub i).taken = (c.sub i).taken := by
  rw [Chip.credit, Chip.money_joins room, Chip.clearHeld]
  have led := LedTo.updLive i (fun l => { l with heldMinutes := 0, heldNumerator := 0, outSince := none })
    (c.join (c.creditEntry i m))
  refine ⟨⟨led.store, ?_⟩, Chip.live_updLive _ hi _, Chip.taken_updLive _ i i _⟩
  rw [led.journal, Journal.joined_nil, Chip.join_journal]

/-- The back-charge of a held run whose tier amount is not clamped. -/
theorem Chip.backCharge_within_limit (hi : i < 2048) (m : Option Nat)
    (fit : InLimit ((c.sub i).live.tierAmount +
      (((c.sub i).live.remainder : Int) + (c.sub i).live.heldNumerator) / (c.clock.cal.m : Int))) :
    LedTo c (c.backCharge i m) []
      ∧ ((c.backCharge i m).sub i).live =
        { (c.sub i).live with
          tierAmount := (c.sub i).live.tierAmount +
            (((c.sub i).live.remainder : Int) + (c.sub i).live.heldNumerator) / (c.clock.cal.m : Int)
          remainder := ((((c.sub i).live.remainder : Int) + (c.sub i).live.heldNumerator) % (c.clock.cal.m : Int)).toNat
          heldMinutes := 0, heldNumerator := 0, outSince := none } := by
  generalize hr : ((c.sub i).live.remainder : Int) + (c.sub i).live.heldNumerator = r at fit
  generalize hd : (c.updLive i fun l => { l with remainder := (r % (c.clock.cal.m : Int)).toNat }) = d
  have live : (d.sub i).live = { (c.sub i).live with remainder := (r % (c.clock.cal.m : Int)).toNat } := by
    rw [← hd]
    exact c.live_updLive hi _
  have added : c.accrue i (c.sub i).live.heldNumerator m =
      d.updLive i fun l => { l with tierAmount := (c.sub i).live.tierAmount + r / (c.clock.cal.m : Int) } := by
    have fits : clampTo Config.amountLimit ((d.sub i).live.tierAmount + r / (c.clock.cal.m : Int)) =
        (c.sub i).live.tierAmount + r / (c.clock.cal.m : Int) := by
      rw [live]
      exact clampTo_within fit.1 fit.2
    rw [Chip.accrue, hr, hd, Chip.addTier, fits, live]
    exact if_pos rfl
  rw [Chip.backCharge, added, Chip.clearHeld]
  refine ⟨⟨?_, ?_⟩, ?_⟩
  · exact (LedTo.updLive i _ _).store.trans ((LedTo.updLive i _ _).store.trans (by rw [← hd]; exact (LedTo.updLive i _ _).store))
  · rw [(LedTo.updLive i _ _).journal, (LedTo.updLive i _ d).journal, ← hd, (LedTo.updLive i _ c).journal]
    simp only [Journal.joined_nil]
  · rw [Chip.live_updLive _ hi, Chip.live_updLive _ hi, live]

/-- The close of a record whose cycle is the calendar's is none. -/
theorem Chip.vacantClose_current (current : (c.sub i).live.cycle = c.clock.cal.cycle) :
    c.vacantClose i = c.vacantFinal i := by
  have fresh : c.stale i = false := by simp [Chip.stale, current]
  rw [Chip.vacantClose, Chip.closeIfStale, fresh]
  rfl
theorem Chip.vacantClose_stops (stale : (c.sub i).live.cycle ≠ c.clock.cal.cycle) (full : 64 ≤ c.journal.queue.length) :
    c.vacantClose i = c.holdTake i .close := by
  have stop : (c.stale i && !c.moneyRoom) = true := by
    rw [Bool.not_eq_true _ |>.mp (Chip.moneyRoom_full full)]
    simpa [Chip.stale] using stale
  rw [Chip.vacantClose, if_pos stop]

/-- The close on touch of a stale record, with a slot free. -/
theorem Chip.closeIfStale_joins (hi : i < 2048) (stale : (c.sub i).live.cycle ≠ c.clock.cal.cycle)
    (room : c.journal.queue.length < 64) (m : Option Nat) :
    LedTo c (c.closeIfStale i m) [(c.cycleEntry i m).queued]
      ∧ ((c.closeIfStale i m).sub i).live = (c.sub i).live.closed c.clock.cal.cycle
      ∧ ∀ j, j ≠ i → (c.closeIfStale i m).sub j = c.sub j := by
  have due : c.stale i = true := by simpa [Chip.stale] using stale
  have led := LedTo.updLive i (fun l => l.closed c.clock.cal.cycle) (c.join (c.cycleEntry i m))
  rw [Chip.closeIfStale, if_pos due, Chip.closeOnTouch, Chip.money_joins room]
  refine ⟨⟨led.store, ?_⟩, Chip.live_updLive _ hi _, fun j ne => Chip.sub_updLive_other _ i j _ ne⟩
  rw [led.journal, Journal.joined_nil, Chip.join_journal]

/-- A close with a slot free, on the way to steps 3 to 6. -/
theorem Chip.vacantClose_closes (room : c.journal.queue.length < 64) :
    c.vacantClose i = (c.closeIfStale i (c.eventMinute i)).vacantFinal i := by
  have goes : ¬ (c.stale i && !c.moneyRoom) = true := by
    rw [show c.moneyRoom = true from decide_eq_true room]
    simp
  rw [Chip.vacantClose, if_neg goes]

end

/-! ### The VACANT take (R29, R30) -/

theorem Chip.serveTake_vacant {c : Chip} {i : Nat} (new : (c.intent i).revision ≠ (c.sub i).live.takenRev)
    (status : (c.intent i).status = 0) : c.serveTake i = c.takeVacant i (c.intent i) := by
  unfold Chip.serveTake
  dsimp only
  rw [if_neg new, if_pos status]

/-- A VACANT take of a record that is not in use. -/
theorem Chip.takeVacant_unused {c : Chip} {i : Nat} (n : Intent) (hi : i < 2048)
    (unused : (c.sub i).live.state = .free ∨ (c.sub i).live.state = .final) :
    let d := c.takeVacant i n
    (∀ j, j ≠ i → d.sub j = c.sub j) ∧ (d.sub i).taken = n
      ∧ VacantDone i c d { (c.sub i).live with takenRev := n.revision } [] := by
  have idle : (c.sub i).live.state.inUse = false := by rcases unused with state | state <;> rw [state] <;> rfl
  rw [Chip.takeVacant_other n idle]
  have copied : Reaches [.subs] c ((c.copyIntent i n).takeOutcome i .done) :=
    (c.copyIntent_reaches i n).then (by rfl) (Chip.takeOutcome_reaches _ _ _)
  refine ⟨fun j ne => ?_, ?_, ?_, copied.store (by decide), ?_⟩
  · simp only [Chip.takeOutcome, Chip.copyIntent, Chip.sub_updLive_other _ _ _ _ ne, Chip.sub_updSub_other _ _ ne]
  · simp only [Chip.takeOutcome, Chip.copyIntent, Chip.taken_updLive, Chip.sub_updSub _ _ hi]
  · simp only [Chip.takeOutcome, Chip.copyIntent, Chip.live_updLive _ hi, Chip.sub_updSub _ _ hi]
  · rw [copied.journal (by decide), Journal.joined_nil]

/-- A part whose record has become FINAL. -/
def Chip.madeFinal (c : Chip) (i : Nat) : Chip := c.updLive i fun l => { l with state := .final }

theorem Chip.madeFinal_live (c : Chip) {i : Nat} (hi : i < 2048) :
    ((c.madeFinal i).sub i).live = { (c.sub i).live with state := .final } := c.live_updLive hi _
theorem Chip.madeFinal_ledTo (c : Chip) (i : Nat) : LedTo c (c.madeFinal i) [] := LedTo.updLive i _ c
theorem Chip.madeFinal_reaches (c : Chip) (i : Nat) : Reaches [.subs] c (c.madeFinal i) := c.updLive_reaches i _
theorem Chip.madeFinal_queue (c : Chip) (i : Nat) : (c.madeFinal i).journal = c.journal :=
  (c.madeFinal_reaches i).journal (by decide)

section
variable {i : Nat} {c : Chip}

/-- A record of the calendar's cycle goes on as a FINAL one. -/
theorem Chip.vacantClose_final (current : (c.sub i).live.cycle = c.clock.cal.cycle) :
    c.vacantClose i = (c.madeFinal i).vacantRun i := Chip.vacantClose_current current

/-- No open business. -/
theorem Chip.vacantClose_plain (hi : i < 2048) (current : (c.sub i).live.cycle = c.clock.cal.cycle)
    (run : (c.sub i).live.outSince = none) (purchases : (c.sub i).live.purchases = []) :
    VacantDone i c (c.vacantClose i) { (c.sub i).live with state := .final } [] := by
  have live := c.madeFinal_live hi
  rw [Chip.vacantClose_final current, Chip.vacantRun_none (by rw [live]; exact run), ← live]
  exact (c.madeFinal_ledTo i).done (Chip.vacantPurchases_none hi 5 (by rw [live]; exact purchases))

/-- A close on touch alone. -/
theorem Chip.vacantClose_stale (hi : i < 2048) (stale : (c.sub i).live.cycle ≠ c.clock.cal.cycle)
    (room : c.journal.queue.length < 64) (state : (c.sub i).live.state ≠ .final)
    (run : (c.sub i).live.outSince = none) (purchases : (c.sub i).live.purchases = []) :
    VacantDone i c (c.vacantClose i)
      { (c.sub i).live with
        state := .final, tierAmount := 0, eventAmount := 0, remainder := 0, saturated := false
        cycle := c.clock.cal.cycle }
      [(c.cycleEntry i (c.eventMinute i)).queued] := by
  obtain ⟨led, live, -⟩ := Chip.closeIfStale_joins hi stale room (c.eventMinute i)
  rw [Live.closed_other state] at live
  rw [Chip.vacantClose_closes room]
  generalize c.closeIfStale i (c.eventMinute i) = d at led live
  have final := d.madeFinal_live hi
  rw [Chip.vacantFinal, ← Chip.madeFinal, Chip.vacantRun_none (by rw [final, live]; exact run)]
  have done := led.done ((d.madeFinal_ledTo i).done
    (Chip.vacantPurchases_none hi 5 (by rw [final, live]; exact purchases)))
  exact ⟨done.live.trans (by rw [final, live]), done.store, done.journal⟩

/-- A held run alone, resolved by a credit. -/
theorem Chip.vacantClose_credits (hi : i < 2048) (current : (c.sub i).live.cycle = c.clock.cal.cycle)
    (run : (c.sub i).live.outSince.isSome = true) (purchases : (c.sub i).live.purchases = [])
    (due : c.config.creditThreshold ≤ (c.sub i).live.heldMinutes) (room : c.journal.queue.length < 64) :
    VacantDone i c (c.vacantClose i)
      { (c.sub i).live with state := .final, heldMinutes := 0, heldNumerator := 0, outSince := none }
      [((c.madeFinal i).creditEntry i ((c.madeFinal i).eventMinute i)).queued] := by
  have live := c.madeFinal_live hi
  have config : (c.madeFinal i).config = c.config := rfl
  have resolve : (c.madeFinal i).resolveHeld i ((c.madeFinal i).eventMinute i) =
      (c.madeFinal i).credit i ((c.madeFinal i).eventMinute i) := by
    rw [Chip.resolveHeld, Chip.creditDue, config, live]
    exact if_pos (decide_eq_true due)
  obtain ⟨led, credited, -⟩ := Chip.credit_joins (c := c.madeFinal i) hi (by rwa [c.madeFinal_queue])
    ((c.madeFinal i).eventMinute i)
  rw [live] at credited
  rw [Chip.vacantClose_final current,
    Chip.vacantRun_resolves (by rw [live]; exact run) (fun _ => by rwa [c.madeFinal_queue]), resolve]
  have done := (c.madeFinal_ledTo i).done (led.done
    (Chip.vacantPurchases_none hi 5 (by rw [credited]; exact purchases)))
  exact ⟨done.live.trans (by rw [credited]), done.store, done.journal⟩

/-- A held run alone, charged back. -/
theorem Chip.vacantClose_chargesBack (hi : i < 2048) (current : (c.sub i).live.cycle = c.clock.cal.cycle)
    (run : (c.sub i).live.outSince.isSome = true) (purchases : (c.sub i).live.purchases = [])
    (short : (c.sub i).live.heldMinutes < c.config.creditThreshold)
    (fit : InLimit ((c.sub i).live.tierAmount +
      (((c.sub i).live.remainder : Int) + (c.sub i).live.heldNumerator) / (c.clock.cal.m : Int))) :
    VacantDone i c (c.vacantClose i)
      { (c.sub i).live with
        state := .final
        tierAmount := (c.sub i).live.tierAmount +
          (((c.sub i).live.remainder : Int) + (c.sub i).live.heldNumerator) / (c.clock.cal.m : Int)
        remainder := ((((c.sub i).live.remainder : Int) + (c.sub i).live.heldNumerator) % (c.clock.cal.m : Int)).toNat
        heldMinutes := 0, heldNumerator := 0, outSince := none } [] := by
  have live := c.madeFinal_live hi
  have config : (c.madeFinal i).config = c.config := rfl
  have clock : (c.madeFinal i).clock = c.clock := rfl
  have resolve : (c.madeFinal i).resolveHeld i ((c.madeFinal i).eventMinute i) =
      (c.madeFinal i).backCharge i ((c.madeFinal i).eventMinute i) := by
    rw [Chip.resolveHeld, Chip.creditDue, config, live, decide_eq_false (Nat.not_le.mpr short)]
    rfl
  obtain ⟨led, charged⟩ := Chip.backCharge_within_limit (c := c.madeFinal i) hi ((c.madeFinal i).eventMinute i)
    (by rw [live, clock]; exact fit)
  rw [live, clock] at charged
  rw [Chip.vacantClose_final current, Chip.vacantRun_resolves (by rw [live]; exact run) (fun due => absurd due ?_), resolve]
  · have done := (c.madeFinal_ledTo i).done (led.done
      (Chip.vacantPurchases_none hi 5 (by rw [charged]; exact purchases)))
    exact ⟨done.live.trans (by rw [charged]), done.store, done.journal⟩
  · rw [config, live]
    exact Nat.not_le.mpr short

end

end Sys2Proof.Machine

namespace Sys2Proof.Machine

/-- A money entry of a record, its parts as the statements name them. -/
theorem Chip.entryFor_money {c : Chip} {i : Nat} {n : Intent} {k : Byte} {m m' : Option Nat} {body : EntryBody}
    (money : body.money = true) (taken : (c.sub i).taken = n) (cycle : (c.sub i).live.cycle = k)
    (minute : m' = m) (amount : Int) :
    (c.entryFor i m' amount body).queued =
      { entry := { index := i, minute := m, account := n.account, amount := amount, cycle := k, body := body }
        ring := 0, writing := false } := by
  unfold Chip.entryFor
  rw [if_pos money, Chip.account, taken, cycle, minute]
  rfl

/-- The time and the configuration are those of another part. -/
structure SameHour (c d : Chip) : Prop where
  clock : d.clock = c.clock
  pass : d.pass = c.pass
  part : d.part = c.part

theorem SameHour.eventMinute {c d : Chip} (h : SameHour c d) (i : Nat) : d.eventMinute i = c.eventMinute i := by
  rw [Chip.eventMinute, h.clock, h.pass]; rfl

theorem SameHour.of_reaches {bs : List Block} {c d : Chip} (h : Reaches bs c d)
    (hb : Block.clock ∉ bs ∧ Block.pass ∉ bs ∧ Block.part ∉ bs) : SameHour c d :=
  ⟨h.clock hb.1, h.pass hb.2.1, h.part hb.2.2⟩

/-- A record whose port has been released, with the intent taken, in a part that otherwise stands as before. -/
structure VacatedRecord (i : Nat) (n : Intent) (l : Live) (s c : Chip) : Prop where
  taken : (c.sub i).taken = n
  live : (c.sub i).live = l.vacated n.revision
  hour : SameHour s c
  journal : c.journal = s.journal

section
variable {i : Nat} {n : Intent} {l : Live} {s c : Chip}

theorem VacatedRecord.current (h : VacatedRecord i n l s c) (k : l.cycle = s.clock.cal.cycle) :
    (c.sub i).live.cycle = c.clock.cal.cycle := by
  rw [h.live, h.hour.clock]; exact k
theorem VacatedRecord.stale (h : VacatedRecord i n l s c) (k : l.cycle ≠ s.clock.cal.cycle) :
    (c.sub i).live.cycle ≠ c.clock.cal.cycle := by
  rw [h.live, h.hour.clock]; exact k
theorem VacatedRecord.config (h : VacatedRecord i n l s c) : c.config = s.config := by
  rw [Chip.config, h.hour.part]; rfl

/-- The record made FINAL. -/
theorem VacatedRecord.final_live (h : VacatedRecord i n l s c) (hi : i < 2048) :
    ((c.madeFinal i).sub i).live = { l.vacated n.revision with state := .final } := by
  rw [c.madeFinal_live hi, h.live]
theorem VacatedRecord.final_taken (h : VacatedRecord i n l s c) : ((c.madeFinal i).sub i).taken = n :=
  (c.taken_updLive i i _).trans h.taken
theorem VacatedRecord.final_minute (h : VacatedRecord i n l s c) : (c.madeFinal i).eventMinute i = s.eventMinute i :=
  h.hour.eventMinute i

theorem VacatedRecord.entry (h : VacatedRecord i n l s c) {body : EntryBody} (money : body.money = true)
    (amount : Int) : (c.entryFor i (c.eventMinute i) amount body).queued =
      { entry := { index := i, minute := s.eventMinute i, account := n.account, amount := amount, cycle := l.cycle
                   body := body }
        ring := 0, writing := false } :=
  Chip.entryFor_money money h.taken (by rw [h.live]; rfl) (h.hour.eventMinute i) amount

/-! ### One kind of open business, in the terms of the record before the take -/

/-- The live block of a record that has become FINAL with its port released. -/
def Live.finalOf (l : Live) (r : Half) : Live := { l.vacated r with state := .final }

theorem VacatedRecord.plain (h : VacatedRecord i n l s c) (hi : i < 2048) (current : l.cycle = s.clock.cal.cycle)
    (run : l.outSince = none) (purchases : l.purchases = []) :
    VacantDone i c (c.vacantClose i) (l.finalOf n.revision) [] := by
  have done := Chip.vacantClose_plain hi (h.current current) (by rw [h.live]; exact run) (by rw [h.live]; exact purchases)
  rwa [h.live] at done

theorem VacatedRecord.closeStops (h : VacatedRecord i n l s c) (stale : l.cycle ≠ s.clock.cal.cycle)
    (full : 64 ≤ s.journal.queue.length) : VacantStopped i c (c.vacantClose i) (l.vacated n.revision) .close := by
  rw [Chip.vacantClose_stops (h.stale stale) (by rwa [h.journal]), ← h.live]
  exact c.holdTake_stopped i .close

theorem VacatedRecord.closes (h : VacatedRecord i n l s c) (hi : i < 2048) (stale : l.cycle ≠ s.clock.cal.cycle)
    (room : s.journal.queue.length < 64) (state : l.state ≠ .final) (run : l.outSince = none)
    (purchases : l.purchases = []) :
    VacantDone i c (c.vacantClose i)
      { l.finalOf n.revision with
        tierAmount := 0, eventAmount := 0, remainder := 0, saturated := false, cycle := s.clock.cal.cycle }
      [{ entry :=
          { index := i, minute := s.eventMinute i, account := n.account
            amount := max (-2000000000) (min 2000000000 (l.tierAmount + l.eventAmount)), cycle := l.cycle
            body := .cycleTotal false l.saturated 0 l.remainder l.tierAmount l.eventAmount l.heldMinutes 65535 }
         ring := 0, writing := false }] := by
  have done := Chip.vacantClose_stale hi (h.stale stale) (by rwa [h.journal]) (by rw [h.live]; exact state)
    (by rw [h.live]; exact run) (by rw [h.live]; exact purchases)
  have total : (c.cycleEntry i (c.eventMinute i)).queued = _ := h.entry rfl _
  have other : (l.state == RecordState.final) = false := beq_false_of_ne state
  rw [h.live] at total
  simp only [Live.vacated, run, purchases, other] at total
  rw [total, h.live, h.hour.clock] at done
  exact done

theorem VacatedRecord.creditStops (h : VacatedRecord i n l s c) (hi : i < 2048) (current : l.cycle = s.clock.cal.cycle)
    (run : l.outSince.isSome = true) (due : s.config.creditThreshold ≤ l.heldMinutes)
    (full : 64 ≤ s.journal.queue.length) : VacantStopped i c (c.vacantClose i) (l.finalOf n.revision) .credit := by
  have live := h.final_live hi
  have config : (c.madeFinal i).config = s.config := h.config
  rw [Chip.vacantClose_final (h.current current), Chip.vacantRun_stops (by rw [live]; exact run)
    (by rw [config, live]; exact due) (by rw [c.madeFinal_queue, h.journal]; exact full)]
  have held := (c.madeFinal_ledTo i).stopped ((c.madeFinal i).holdTake_stopped i .credit)
  rwa [live] at held

theorem VacatedRecord.credits (h : VacatedRecord i n l s c) (hi : i < 2048) (current : l.cycle = s.clock.cal.cycle)
    (run : l.outSince.isSome = true) (purchases : l.purchases = [])
    (due : s.config.creditThreshold ≤ l.heldMinutes) (room : s.journal.queue.length < 64) :
    VacantDone i c (c.vacantClose i)
      { l.finalOf n.revision with heldMinutes := 0, heldNumerator := 0, outSince := none }
      [{ entry :=
          { index := i, minute := s.eventMinute i, account := n.account
            amount := l.heldNumerator.fdiv s.clock.cal.m, cycle := l.cycle
            body := .outageCredit s.clock.cal.m l.heldMinutes l.heldNumerator l.outSince }
         ring := 0, writing := false }] := by
  have done := Chip.vacantClose_credits hi (h.current current) (by rw [h.live]; exact run)
    (by rw [h.live]; exact purchases) (by rw [h.config, h.live]; exact due) (by rwa [h.journal])
  have live := h.final_live hi
  have credit : ((c.madeFinal i).creditEntry i ((c.madeFinal i).eventMinute i)).queued = _ :=
    Chip.entryFor_money rfl h.final_taken (by rw [live]) h.final_minute _
  have clock : (c.madeFinal i).clock = s.clock := h.hour.clock
  rw [credit, h.live, live, clock] at done
  rw [Int.fdiv_eq_ediv_of_nonneg _ (Int.natCast_nonneg _)]
  exact done

theorem VacatedRecord.chargesBack (h : VacatedRecord i n l s c) (hi : i < 2048)
    (current : l.cycle = s.clock.cal.cycle) (run : l.outSince.isSome = true) (purchases : l.purchases = [])
    (short : l.heldMinutes < s.config.creditThreshold)
    (fit : InLimit (l.tierAmount + ((l.remainder : Int) + l.heldNumerator).fdiv s.clock.cal.m)) :
    VacantDone i c (c.vacantClose i)
      { l.finalOf n.revision with
        tierAmount := l.tierAmount + ((l.remainder : Int) + l.heldNumerator).fdiv s.clock.cal.m
        remainder := (((l.remainder : Int) + l.heldNumerator).fmod s.clock.cal.m).toNat
        heldMinutes := 0, heldNumerator := 0, outSince := none } [] := by
  have positive : (0 : Int) ≤ (s.clock.cal.m : Int) := Int.natCast_nonneg _
  rw [Int.fdiv_eq_ediv_of_nonneg _ positive] at fit ⊢
  rw [Int.fmod_eq_emod_of_nonneg _ positive]
  have done := Chip.vacantClose_chargesBack hi (h.current current) (by rw [h.live]; exact run)
    (by rw [h.live]; exact purchases) (by rw [h.config, h.live]; exact short)
    (by rw [h.live, h.hour.clock]; exact fit)
  rw [h.live, h.hour.clock] at done
  exact done

/-- The entry that a purchase of the record leaves with, in the terms of the statement. -/
theorem VacatedRecord.purchaseEntry (h : VacatedRecord i n l s c) (hi : i < 2048) (p : Purchase) :
    (c.madeFinal i).vacantEntry i p =
      match p.state with
      | .booked => none
      | .opening => some
        { entry := { index := i, minute := s.eventMinute i, account := n.account, amount := 0, cycle := 0
                     body := .purchaseLapsed p.position p.start p.stop }
          ring := 0, writing := false }
      | .confirmed => some
        { entry := { index := i, minute := s.eventMinute i, account := n.account, amount := p.price, cycle := l.cycle
                     body := .purchaseCharge p.position p.start p.stop }
          ring := 0, writing := false }
      | .charged => none := by
  rw [Chip.vacantEntry]
  cases p.state with
  | booked => rfl
  | charged => rfl
  | opening =>
    refine congrArg some ?_
    unfold Chip.entryFor
    rw [h.final_minute, Chip.account, h.final_taken]
    rfl
  | confirmed => exact congrArg some (Chip.entryFor_money rfl h.final_taken (by rw [h.final_live hi]; rfl) h.final_minute _)

/-- The record goes on at its purchases. -/
theorem VacatedRecord.atPurchases (h : VacatedRecord i n l s c) (hi : i < 2048)
    (current : l.cycle = s.clock.cal.cycle) (run : l.outSince = none) :
    c.vacantClose i = Chip.vacantPurchases i 5 (c.madeFinal i) := by
  rw [Chip.vacantClose_final (h.current current), Chip.vacantRun_none (by rw [h.final_live hi]; exact run)]

theorem VacatedRecord.settles (h : VacatedRecord i n l s c) (hi : i < 2048) (current : l.cycle = s.clock.cal.cycle)
    (run : l.outSince = none) (four : l.purchases.length ≤ 4)
    (fits : ∀ k, k ≤ 4 → InLimit (l.eventAmount + ((l.purchases.take k).map Purchase.vacantPrice).sum))
    (room : s.journal.queue.length + l.purchases.length ≤ 56) :
    VacantDone i c (c.vacantClose i)
      { l.finalOf n.revision with
        eventAmount := l.eventAmount + ((l.purchases.take 4).map Purchase.vacantPrice).sum, purchases := [] }
      (l.purchases.filterMap ((c.madeFinal i).vacantEntry i)) := by
  have live := h.final_live hi
  have queue : (c.madeFinal i).journal = s.journal := (c.madeFinal_queue i).trans h.journal
  rw [h.atPurchases hi current run, List.take_of_length_le four]
  have done := Chip.vacantPurchases_settles (c := c.madeFinal i) (fuel := 5) hi (ps := l.purchases) (by omega)
    (by rw [live]; rfl) (by rw [live]; rfl) (by rwa [queue]) fun k hk => by
      rw [live]
      exact fits k (hk.trans four)
  have whole := (c.madeFinal_ledTo i).done done
  rwa [live] at whole

theorem VacatedRecord.chargeStops (h : VacatedRecord i n l s c) (hi : i < 2048) (current : l.cycle = s.clock.cal.cycle)
    (run : l.outSince = none) {before after : List Purchase} {p : Purchase} (four : l.purchases.length ≤ 4)
    (list : l.purchases = before ++ p :: after) (silent : ∀ x ∈ before, x.state = .booked ∨ x.state = .charged)
    (confirmed : p.state = .confirmed) (full : 64 ≤ s.journal.queue.length) :
    VacantStopped i c (c.vacantClose i) { l.finalOf n.revision with purchases := p :: after } .purchases := by
  have live := h.final_live hi
  have queue : (c.madeFinal i).journal = s.journal := (c.madeFinal_queue i).trans h.journal
  have few : before.length < 5 := by
    rw [list, List.length_append] at four
    omega
  rw [h.atPurchases hi current run]
  have held := (c.madeFinal_ledTo i).stopped (Chip.vacantPurchases_stops (c := c.madeFinal i) hi few
    (by rw [live]; exact list) (by rw [live]; rfl) silent confirmed (by rwa [queue]))
  rwa [live] at held

theorem VacatedRecord.lapseDropped (h : VacatedRecord i n l s c) (hi : i < 2048)
    (current : l.cycle = s.clock.cal.cycle) (run : l.outSince = none) {p : Purchase} (list : l.purchases = [p])
    (opening : p.state = .opening) (full : 56 ≤ s.journal.queue.length) :
    ((c.vacantClose i).sub i).live = { l.finalOf n.revision with purchases := [], outcome := .done }
      ∧ (c.vacantClose i).store = c.store
      ∧ (c.vacantClose i).journal = { s.journal with dropped := s.journal.dropped + 1 } := by
  have live := h.final_live hi
  have queue : (c.madeFinal i).journal = s.journal := (c.madeFinal_queue i).trans h.journal
  have dropped := Chip.vacantPurchases_dropped (c := c.madeFinal i) hi 4 (by rw [live]; exact list) (by rw [live]; rfl)
    opening (by rwa [queue])
  rw [h.atPurchases hi current run]
  obtain ⟨after, store, journal⟩ := dropped
  refine ⟨after.trans (by rw [live]; rfl), store.trans (c.madeFinal_ledTo i).store, journal.trans (by rw [queue])⟩
end

/-- The record after the steps 1 and 2 of R29, behind the store's own turn. -/
theorem Chip.vacatedOf_record (s : Chip) {i : Nat} (n : Intent) (hi : i < 2048) :
    VacatedRecord i n (s.sub i).live s ((s.takenUp i).vacatedOf i n) := by
  have released := Chip.vacatedOf_released (c := s.takenUp i) n hi
  have reach : Reaches [.store, .subs, .ports, .branches] s ((s.takenUp i).vacatedOf i n) :=
    (s.setStore_reaches _).then (by rfl) ((s.takenUp i).vacatedOf_reaches i n)
  exact ⟨released.taken, released.live, .of_reaches reach (by decide), reach.journal (by decide)⟩

/-- Settles O32: the port first, then one kind of open business at a time. -/
theorem revisionTakeVacates : Obligations.RevisionTakeVacates := by
  intro i s turn servable hi n l M vacated final entry joined served done stopped within current new status
  obtain ⟨t, next, chip, outside⟩ := exec_revisionTake_eq turn servable
  rw [Chip.serveTake_vacant (c := s.chip.takenUp i) new status] at chip
  change t.chip = ((s.chip.takenUp i).takeVacant i n).settle at chip
  have whole : Reaches storeBlocks s.chip ((s.chip.takenUp i).takeVacant i n) :=
    (s.chip.setStore_reaches _).then (by rfl) (Chip.takeVacant_reaches _ _ _)
  have rest : SameSupervision s t ∧ SameTime s t ∧ SameLineUp s t ∧ SameOutside s t :=
    ⟨sameSupervision_of_reaches whole chip (by decide), sameTime_of_reaches whole chip (by decide),
      sameLineUp_of_reaches whole chip (by decide), outside⟩
  have sub : ∀ j, t.chip.sub j = ((s.chip.takenUp i).takeVacant i n).sub j := fun j => by
    rw [chip, Chip.sub, Chip.settle_subs]; rfl
  have store : t.chip.store = ((s.chip.takenUp i).takeVacant i n).store := by rw [chip, Chip.settle_store]
  have journal : t.chip.journal = ((s.chip.takenUp i).takeVacant i n).journal := by rw [chip, Chip.settle_journal]
  refine ⟨t, next, ?_⟩
  by_cases use : l.state = .active ∨ l.state = .suspended
  case neg =>
    have idle : l.state = .free ∨ l.state = .final := by
      generalize l.state = st at use
      cases st <;> simp at use ⊢
    obtain ⟨others, taken, ended⟩ := Chip.takeVacant_unused (c := s.chip.takenUp i) n hi idle
    have live : (t.chip.sub i).live = { l with takenRev := n.revision, outcome := .done } := by rw [sub]; exact ended.live
    refine ⟨by rw [sub]; exact taken, fun _ => ⟨live, store.trans ended.store, journal.trans ended.journal⟩,
      by rw [live], fun other => absurd other use, fun j ne => (sub j).trans (others j ne), rest⟩
  case pos =>
    have serves := Chip.takeVacant_inUse (c := s.chip.takenUp i) n ((RecordState.inUse_iff l.state).mpr use)
    have released := Chip.vacatedOf_released (c := s.chip.takenUp i) n hi
    have record := s.chip.vacatedOf_record n hi
    have kept : ((s.chip.takenUp i).vacatedOf i n).store = served :=
      ((s.chip.takenUp i).vacatedOf_reaches i n).store (by decide)
    rw [serves] at chip sub store journal
    generalize (s.chip.takenUp i).vacatedOf i n = c at released record kept chip sub store journal
    have gone : (c.sub i).live.Vacated n.revision := by rw [released.live]; exact ⟨rfl, rfl, rfl⟩
    have vacating := Chip.vacantClose_vacating hi gone
    obtain ⟨revision, unowned, off⟩ := vacating.live gone
    have alike := (c.vacantClose i).settle_alike steady_desired
    have busy : l.state ≠ .free ∧ l.state ≠ .final := by rcases use with state | state <;> rw [state] <;> decide
    have finish : ∀ {x q}, VacantDone i c (c.vacantClose i) x q → done t x q := fun h =>
      ⟨by rw [sub]; exact h.live, by rw [store, h.store, kept], journal.trans (h.journal.trans (by rw [record.journal]; rfl))⟩
    have halt : ∀ {x k}, VacantStopped i c (c.vacantClose i) x k → stopped t x k := fun h =>
      ⟨by rw [sub]; exact h.live, journal.trans (h.journal.trans (record.journal.trans (Journal.joined_nil _).symm)),
        by rw [store, h.store, kept]⟩
    refine ⟨by rw [sub]; exact vacating.within.taken.trans released.taken, fun other => ?_, by rw [sub]; exact revision,
      fun _ => ⟨by rw [sub]; exact unowned, by rw [sub]; exact off, fun p own hp => ?_,
        fun now run none => finish (record.plain hi now run none),
        fun stale full => halt (record.closeStops stale full),
        fun stale room run none => finish (record.closes hi stale room busy.2 run none),
        fun now run due full => halt (record.creditStops hi now run due full),
        fun now run none => ⟨fun due room => finish (record.credits hi now run none due room),
          fun short fit => finish (record.chargesBack hi now run none short fit)⟩,
        fun now run four => ⟨fun fits room => ?_,
          fun before after p list silent confirmed full =>
            halt (record.chargeStops hi now run four list silent confirmed full),
          fun p list opening full => ?_⟩⟩, fun j ne => ?_, rest⟩
    · exact absurd other (by simp [busy])
    · obtain ⟨owner, desired⟩ := released.port p own hp
      have port : (c.vacantClose i).port p = c.port p := by
        rw [Chip.port, vacating.reaches.ports (by decide)]; rfl
      rw [chip]
      exact ⟨(alike.owners p).trans (by rw [port]; exact owner), (alike.kept p).trans (by rw [port]; exact desired)⟩
    · have entries : (c.madeFinal i).vacantEntry i = _ := funext (record.purchaseEntry hi)
      have settled := finish (record.settles hi now run four fits room)
      rw [entries] at settled
      exact settled
    · obtain ⟨live, still, dropped⟩ := record.lapseDropped hi now run list opening full
      exact ⟨by rw [sub]; exact live, by rw [store, still, kept], by rw [journal, dropped]⟩
    · rw [sub]
      exact (vacating.within.others j ne).trans (released.others j ne)

end Sys2Proof.Machine

namespace Sys2Proof.Machine

/-! ### A visit with nothing to do (R117) -/

/-- A change of a live block that changes nothing. -/
theorem Chip.updLive_id {c : Chip} {i : Nat} {f : Live → Live} (h : f (c.sub i).live = (c.sub i).live) :
    c.updLive i f = c := by
  have same : vupd c.subs i (fun r => if f r.live = r.live then r else { r with live := f r.live, dirty := true }) =
      c.subs := vupd_id _ _ _ (if_pos h)
  rw [Chip.updLive, Chip.updSub, same]
  rfl

/-- A live block that a visit leaves alone: not ACTIVE, no held run, no purchases. -/
structure Live.Idle (l : Live) : Prop where
  state : l.state ≠ .active
  run : l.outSince = none
  purchases : l.purchases = []

theorem Work.andThen_goesOn (c : Chip) (f : Chip → Work) : ({ chip := c, stop := none } : Work).andThen f = f c := rfl
theorem Work.plain_goesOn (c : Chip) (f : Chip → Chip) :
    ({ chip := c, stop := none } : Work).plain f = { chip := f c, stop := none } := rfl

section
variable {i m : Nat} {c : Chip}

theorem Chip.stagesFrom_idle (current : (c.sub i).live.cycle = c.clock.cal.cycle) (idle : (c.sub i).live.Idle) :
    c.stagesFrom i m { stage := 1, place := 0 } = { chip := c, stop := none } := by
  have close : c.stageClose i m = { chip := c, stop := none } := by
    have fresh : c.stale i = false := by simp [Chip.stale, current]
    rw [Chip.stageClose, fresh]
    rfl
  have owed : Chip.stageOwed i m 5 0 c = { chip := c, stop := none } := by
    rw [Chip.stageOwed, idle.purchases]
    rfl
  have windows : Chip.stageWindows i m 5 0 c = { chip := c, stop := none } := by
    rw [Chip.stageWindows, idle.purchases]
    rfl
  have minute : c.stageMinute i m = c := if_neg fun on => idle.state on.1
  have run : c.stageRun i m = { chip := c, stop := none } := by
    have ended : c.runEnded i = false := by rw [Chip.runEnded, idle.run]; rfl
    rw [Chip.stageRun, ended]
    rfl
  have dark : c.stageDark i m = c := Chip.updLive_id (by rw [idle.purchases]; exact congrArg _ idle.purchases.symm)
  calc c.stagesFrom i m { stage := 1, place := 0 }
      = (((((c.stageClose i m).andThen (Chip.stageOwed i m 5 0)).andThen (Chip.stageWindows i m 5 0)).plain
          fun c => c.stageMinute i m).andThen fun c => c.stageRun i m).plain fun c => c.stageDark i m := rfl
    _ = { chip := c, stop := none } := by
      rw [close, Work.andThen_goesOn, owed, Work.andThen_goesOn, windows, Work.plain_goesOn, minute,
        Work.andThen_goesOn, run, Work.plain_goesOn, dark]

/-- The pass after a visit of a record below 2047. -/
theorem Chip.runVisit_idle (current : (c.sub c.pass.cursor).live.cycle = c.clock.cal.cycle)
    (idle : (c.sub c.pass.cursor).live.Idle) (below : c.pass.cursor < 2047) :
    let d := c.runVisit { stage := 1, place := 0 }
    Reaches [.pass, .store] c d ∧ d.store = { c.store with turn := .fresh }
      ∧ d.pass = { state := .visiting, minute := c.pass.minute, cursor := c.pass.cursor + 1, point := none } := by
  generalize hd : c.setPass { c.pass with state := .visiting, point := none } = d
  have pass : d.pass = { c.pass with state := .visiting, point := none } := by rw [← hd]; rfl
  have store : d.store = c.store := by rw [← hd]; rfl
  have reach : Reaches [.pass] c d := by rw [← hd]; exact c.setPass_reaches _
  have visit : d.stagesFrom c.pass.cursor (c.pass.minute.getD 0) { stage := 1, place := 0 } =
      { chip := d, stop := none } := by
    have sub : d.sub c.pass.cursor = c.sub c.pass.cursor := by rw [← hd]; rfl
    exact Chip.stagesFrom_idle (by rw [sub, reach.clock (by decide)]; exact current) (by rw [sub]; exact idle)
  have runs : c.runVisit { stage := 1, place := 0 } = d.advancePass := by
    rw [Chip.runVisit, hd, visit]
  have advance : d.advancePass = (d.setStore { d.store with turn := .fresh }).setPass
      { d.pass with state := .visiting, cursor := d.pass.cursor + 1, point := none } :=
    if_pos (by rw [pass]; exact below)
  rw [runs, advance]
  refine ⟨(reach.then (by rfl) (d.setStore_reaches _) (bs := [.pass, .store])).then (by rfl) (Chip.setPass_reaches _ _),
    ?_, ?_⟩
  · rw [Chip.setPass_store, Chip.setStore_store, store]
  · rw [Chip.setPass_pass, pass]

/-! ### The answer to a waiting entry (R153) -/

theorem Chip.answerMoney_answers (waits : c.moneyWaiting = true) (room : c.journal.queue.length < 64) :
    c.answerMoney = c.answerHeld.setAnswered true := by
  have free : c.moneyRoom = true := decide_eq_true room
  rw [Chip.answerMoney, waits, free]
  rfl

/-- The waiting entry of a pass stopped at a close. -/
theorem Chip.answerMoney_close (paused : c.pass.state = .paused) (waits : c.store.answered = false)
    (point : c.pass.point = some { stage := 1, place := 0 }) (minute : c.pass.minute = some m)
    (room : c.journal.queue.length < 64) :
    c.answerMoney = (c.closeIfStale c.pass.cursor (some m)).setAnswered true := by
  have waiting : c.moneyWaiting = true := by simp [Chip.moneyWaiting, paused, waits]
  rw [Chip.answerMoney_answers waiting room, Chip.answerHeld, if_pos paused, point, minute]
  rfl

/-- The waiting entry of a take stopped at a credit. -/
theorem Chip.answerMoney_credit (hold : c.store.hold = some (.take i .credit)) (other : c.pass.state ≠ .paused)
    (waits : c.store.answered = false) (run : (c.sub i).live.outSince.isSome = true)
    (due : c.config.creditThreshold ≤ (c.sub i).live.heldMinutes) (room : c.journal.queue.length < 64) :
    c.answerMoney = (c.credit i (c.eventMinute i)).setAnswered true := by
  have waiting : c.moneyWaiting = true := by simp [Chip.moneyWaiting, hold, waits]
  have credit : ((c.sub i).live.outSince.isSome && c.creditDue i) = true := by
    rw [run, Chip.creditDue, decide_eq_true due]
    rfl
  rw [Chip.answerMoney_answers waiting room, Chip.answerHeld, if_neg other, hold]
  exact congrArg (Chip.setAnswered · true) (if_pos credit)

/-- The CYCLE TOTAL of a record without a held run and purchases. -/
theorem Chip.cycleEntry_plain (run : (c.sub i).live.outSince = none) (purchases : (c.sub i).live.purchases = [])
    (x : Option Nat) :
    let l := (c.sub i).live
    (c.cycleEntry i x).queued =
      { entry :=
          { index := i, minute := x, account := (c.sub i).taken.account
            amount := max (-2000000000) (min 2000000000 (l.tierAmount + l.eventAmount)), cycle := l.cycle
            body := .cycleTotal (l.state == .final) l.saturated 0 l.remainder l.tierAmount l.eventAmount
              l.heldMinutes 65535 }
        ring := 0, writing := false } := by
  have entry : (c.cycleEntry i x).queued = _ := Chip.entryFor_money rfl rfl rfl rfl _
  rw [run, purchases] at entry
  exact entry

/-- The OUTAGE CREDIT of a record. -/
theorem Chip.creditEntry_queued (x : Option Nat) :
    let l := (c.sub i).live
    (c.creditEntry i x).queued =
      { entry :=
          { index := i, minute := x, account := (c.sub i).taken.account
            amount := l.heldNumerator.fdiv (c.clock.cal.m : Int), cycle := l.cycle
            body := .outageCredit c.clock.cal.m l.heldMinutes l.heldNumerator l.outSince }
        ring := 0, writing := false } := by
  have entry : (c.creditEntry i x).queued = _ := Chip.entryFor_money rfl rfl rfl rfl _
  rw [← Int.fdiv_eq_ediv_of_nonneg _ (Int.natCast_nonneg _)] at entry
  exact entry

end

/-! ### The entries of a tenure written while a money entry waits (R153, R155) -/

/-- The end of a tenure of entries: they leave the queue, which has a slot free, and the waiting entry is answered. -/
theorem exec_tenureComplete_answers {s : State} {n : Nat} (way : EntriesUnderWay s n) :
    ∃ c t, exec .tenureComplete s = .next t ∧ t.chip = c.answerMoney.settle ∧ t.pending = s.pending
      ∧ Reaches [.path, .engine, .journal] s.chip c ∧ c.journal.queue.length < 64
      ∧ c.journal = { s.chip.journal with
          queue := s.chip.journal.queue.drop n, tail := s.chip.journal.tail + BitVec.ofNat 16 n } := by
  obtain ⟨holding, tenure, some, bounded, others⟩ := way
  refine ⟨s.chip.tenureEnded.dropWritten n, _, exec_tenureComplete_eq holding tenure, ?_, s.endTenure_pending _, ?_, ?_,
    rfl⟩
  · rw [State.endTenure_chip, Chip.complete_unread _ rfl]
    refine congrArg Chip.settle (Chip.entriesWritten_eq (c := s.chip.tenureEnded) (n := n) (by omega) fun q hq i d o p r same => ?_)
    have open' := List.all_eq_true.mp others q hq
    rw [same] at open'
    exact absurd open' Bool.false_ne_true
  · exact s.chip.tenureEnded_reaches.then (by rfl) (Chip.dropWritten_reaches _ n)
  · have dropped : (s.chip.tenureEnded.dropWritten n).journal.queue = s.chip.journal.queue.drop n := rfl
    rw [dropped, List.length_drop]
    omega

/-! ### The resume of a pass (R119) -/

section
variable {i m : Nat} {s c d : Chip}

/-- A record closed on touch on behalf of a paused pass, its entry at the tail. -/
structure ClosedAtPass (i m : Nat) (s c d : Chip) : Prop where
  reaches : Reaches storeBlocks c d
  others : ∀ j, j ≠ i → d.sub j = s.sub j
  live : (d.sub i).live = (s.sub i).live.closed s.clock.cal.cycle
  store : d.store = { s.store with answered := true }
  journal : d.journal = c.journal.joined [(s.cycleEntry i (some m)).queued]

/-- The answer to the close that a pass waits for, in a part that has the records, the clock, the pass and the store of
another. -/
theorem Chip.answerMoney_closes {bs : List Block} (hi : i < 2048) (same : Reaches bs s c)
    (hb : Block.subs ∉ bs ∧ Block.clock ∉ bs ∧ Block.pass ∉ bs ∧ Block.store ∉ bs) (paused : s.pass.state = .paused)
    (cursor : s.pass.cursor = i) (waits : s.store.answered = false)
    (point : s.pass.point = some { stage := 1, place := 0 }) (minute : s.pass.minute = some m)
    (stale : (s.sub i).live.cycle ≠ s.clock.cal.cycle) (room : c.journal.queue.length < 64) :
    ClosedAtPass i m s c c.answerMoney := by
  obtain ⟨subs, clock, pass, store⟩ := hb
  have sub : ∀ j, c.sub j = s.sub j := fun j => by rw [Chip.sub, same.subs subs]; rfl
  have hour := same.clock clock
  have visit := same.pass pass
  have kept := same.store store
  have answer := Chip.answerMoney_close (c := c) (by rw [visit]; exact paused) (by rw [kept]; exact waits)
    (by rw [visit]; exact point) (by rw [visit]; exact minute) room
  obtain ⟨led, live, others⟩ := Chip.closeIfStale_joins hi (by rw [sub, hour]; exact stale) room (some m)
  have entry : c.cycleEntry i (some m) = s.cycleEntry i (some m) := by
    simp only [Chip.cycleEntry, Chip.entryFor, Chip.account, sub]
  rw [visit, cursor] at answer
  have reach := c.answerMoney_reaches
  rw [answer] at reach ⊢
  refine ⟨reach, fun j ne => (others j ne).trans (sub j), live.trans (by rw [sub, hour]), ?_, ?_⟩
  · rw [Chip.setAnswered, Chip.setStore_store, led.store, kept]
  · rw [Chip.setAnswered, Chip.setStore_journal, led.journal, entry]

/-- A record closed in a FINAL state. -/
theorem Live.closed_final {l : Live} (state : l.state = .final) (run : l.outSince = none) (purchases : l.purchases = [])
    (k : Byte) : l.closed k =
      { l with
        tierAmount := 0, eventAmount := 0, remainder := 0, saturated := false, cycle := k, state := .free
        heldMinutes := 0, heldNumerator := 0 } := by
  rw [Live.closed, if_pos state]
  obtain ⟨⟩ := l
  subst run purchases
  rfl

theorem Live.closed_cycle (l : Live) (k : Byte) : (l.closed k).cycle = k := by
  unfold Live.closed
  split <;> rfl
theorem Live.closed_idle {l : Live} (state : l.state = .suspended ∨ l.state = .final) (run : l.outSince = none)
    (purchases : l.purchases = []) (k : Byte) : (l.closed k).Idle := by
  rcases state with suspended | final
  · rw [Live.closed_other (by rw [suspended]; decide)]
    exact ⟨by rw [suspended]; decide, run, purchases⟩
  · rw [Live.closed_final final run purchases]
    exact ⟨(by decide : RecordState.free ≠ .active), run, purchases⟩

/-- A pass goes on behind its entry and finds nothing more to do at its record. -/
theorem Chip.resumePass_idle (point : c.pass.point = some { stage := 1, place := 0 })
    (current : (c.sub c.pass.cursor).live.cycle = c.clock.cal.cycle) (idle : (c.sub c.pass.cursor).live.Idle)
    (below : c.pass.cursor < 2047) :
    Reaches [.pass, .store] c c.resumePass ∧ c.resumePass.store.answered = false
      ∧ c.resumePass.pass =
          { state := .visiting, minute := c.pass.minute, cursor := c.pass.cursor + 1, point := none } := by
  have resumes : c.resumePass = (c.setAnswered false).runVisit { stage := 1, place := 0 } := by
    rw [Chip.resumePass, point]
  obtain ⟨reach, store, pass⟩ := Chip.runVisit_idle (c := c.setAnswered false) current idle below
  rw [resumes]
  exact ⟨(c.setAnswered_reaches false).then (by rfl) reach, by rw [store]; rfl, pass⟩

end


/-! ### The resume of a take (R29) -/

section
variable {i : Nat} {s c : Chip}

/-- A credit made on behalf of a stopped take, its entry at the tail. -/
structure CreditedAtTake (i : Nat) (s c d : Chip) : Prop where
  reaches : Reaches storeBlocks c d
  others : ∀ j, j ≠ i → d.sub j = s.sub j
  live : (d.sub i).live = { (s.sub i).live with heldMinutes := 0, heldNumerator := 0, outSince := none }
  store : d.store = { s.store with answered := true }
  journal : d.journal = c.journal.joined [(s.creditEntry i (s.eventMinute i)).queued]

/-- The answer to the credit that a take waits for, in a part that has the records, the time, the configuration and the
store of another. -/
theorem Chip.answerMoney_credits {bs : List Block} (hi : i < 2048) (same : Reaches bs s c)
    (hb : Block.subs ∉ bs ∧ Block.store ∉ bs) (hour : Block.clock ∉ bs ∧ Block.pass ∉ bs ∧ Block.part ∉ bs)
    (hold : s.store.hold = some (.take i .credit)) (other : s.pass.state ≠ .paused) (waits : s.store.answered = false)
    (run : (s.sub i).live.outSince.isSome = true) (due : s.config.creditThreshold ≤ (s.sub i).live.heldMinutes)
    (room : c.journal.queue.length < 64) : CreditedAtTake i s c c.answerMoney := by
  have sub : ∀ j, c.sub j = s.sub j := fun j => by rw [Chip.sub, same.subs hb.1]; rfl
  have kept := same.store hb.2
  have time : SameHour s c := .of_reaches same hour
  have config : c.config = s.config := by rw [Chip.config, time.part]; rfl
  have answer := Chip.answerMoney_credit (c := c) (by rw [kept]; exact hold) (by rw [time.pass]; exact other)
    (by rw [kept]; exact waits) (by rw [sub]; exact run) (by rw [sub, config]; exact due) room
  obtain ⟨led, live, -⟩ := Chip.credit_joins hi room (c.eventMinute i)
  have entry : c.creditEntry i (c.eventMinute i) = s.creditEntry i (s.eventMinute i) := by
    simp only [Chip.creditEntry, Chip.entryFor, Chip.account, sub, time.clock, time.eventMinute]
  have within : Within (fun _ => True) i c (c.credit i (c.eventMinute i)) :=
    (Within.of_reaches (c.money_reaches _) (by decide)).trans (Chip.clearHeld_within (fun _ _ h => h) _)
  have reach := c.answerMoney_reaches
  rw [answer] at reach ⊢
  refine ⟨reach, fun j ne => (within.others j ne).trans (sub j), live.trans (by rw [sub]), ?_, ?_⟩
  · rw [Chip.setAnswered, Chip.setStore_store, led.store, kept]
  · rw [Chip.setAnswered, Chip.setStore_journal, led.journal, entry]

/-- A take goes on behind its credit and finds no purchases. -/
theorem Chip.resumeHeldTake_ends (hi : i < 2048) (hold : c.store.hold = some (.take i .credit))
    (run : (c.sub i).live.outSince = none) (purchases : (c.sub i).live.purchases = []) :
    (∀ j, j ≠ i → c.resumeHeldTake.sub j = c.sub j)
      ∧ (c.resumeHeldTake.sub i).live = { (c.sub i).live with outcome := .done }
      ∧ c.resumeHeldTake.store = { c.store with hold := none, answered := false }
      ∧ c.resumeHeldTake.journal = c.journal ∧ Reaches storeBlocks c c.resumeHeldTake := by
  have resumes : c.resumeHeldTake = Chip.vacantPurchases i 5 c.unhold := by
    rw [Chip.resumeHeldTake, hold]
    exact Chip.vacantRun_none (c := c.unhold) run
  have done := Chip.vacantPurchases_none (c := c.unhold) hi 5 purchases
  have ends : Chip.vacantPurchases i 5 c.unhold = c.unhold.takeOutcome i .done := by
    rw [Chip.vacantPurchases]
    rw [show (c.unhold.sub i).live.purchases = [] from purchases]
  rw [resumes]
  refine ⟨fun j ne => ?_, done.live, done.store, done.journal.trans (Journal.joined_nil _),
    c.unhold_reaches.then (by rfl) (Chip.vacantPurchases_reaches i 5 _)⟩
  rw [ends]
  exact Chip.sub_updLive_other _ i j _ ne

end

/-- PASS_RESUME, where the entry has joined or a slot is free for it. -/
theorem exec_passResume_eq {s : State} (running : s.chip.running = true) (paused : s.chip.pass.state = .paused)
    (free : s.chip.store.answered = true ∨ s.chip.journal.queue.length < 64) :
    ∃ t, exec .passResume s = .next t ∧ t.chip = s.chip.answerMoney.resumePass.settle ∧ SameOutside s t := by
  have slot : (s.chip.store.answered || s.chip.moneyRoom) = true := by
    rw [Bool.or_eq_true]
    exact free.imp id fun room => decide_eq_true room
  have ready : (s.chip.slotFree && s.chip.pass.state == .paused) = true := by
    rw [Chip.slotFree, running, slot, paused]
    rfl
  exact ⟨_, congrArg Host.Outcome.next (State.actIf_ready (ready := fun c => c.slotFree && c.pass.state == .paused) ready
    fun c => c.answerMoney.resumePass), State.act_chip _ _, State.act_outside _ _⟩

/-- TAKE_RESUME, where the entry has joined or a slot is free for it. -/
theorem exec_takeResume_eq {s : State} {i : Nat} {k : TakeStep} (running : s.chip.running = true)
    (hold : s.chip.store.hold = some (.take i k))
    (free : s.chip.store.answered = true ∨ s.chip.journal.queue.length < 64) :
    ∃ t, exec .takeResume s = .next t ∧ t.chip = s.chip.answerMoney.resumeHeldTake.settle ∧ SameOutside s t := by
  have slot : (s.chip.store.answered || s.chip.moneyRoom) = true := by
    rw [Bool.or_eq_true]
    exact free.imp id fun room => decide_eq_true room
  have ready : (s.chip.slotFree && s.chip.takeHeld) = true := by
    rw [Chip.slotFree, running, slot, Chip.takeHeld, hold]
    rfl
  exact ⟨_, congrArg Host.Outcome.next (State.actIf_ready (ready := fun c => c.slotFree && c.takeHeld) ready
    fun c => c.answerMoney.resumeHeldTake), State.act_chip _ _, State.act_outside _ _⟩

/-- An entry that has been answered is not answered again. -/
theorem Chip.answerMoney_answered {c : Chip} (answered : c.store.answered = true) : c.answerMoney = c :=
  Chip.answerMoney_none (by rw [Chip.moneyWaiting, answered, Bool.not_true, Bool.and_false])

end Sys2Proof.Machine

namespace Sys2Proof.Machine

/-- The clock, supervision and line-up over an operation of the producers of money entries. -/
theorem sameFrame_of_reaches {bs : List Block} {s t : State} {d : Chip} (reach : Reaches bs s.chip d)
    (ht : t.chip = d.settle) (clock : Block.clock ∉ bs) (lineUp : Block.lineUp ∉ bs ∧ Block.sweep ∉ bs)
    (hb : Block.elements ∉ bs ∧ Block.plant ∉ bs ∧ Block.sources ∉ bs ∧ Block.outages ∉ bs) :
    t.chip.clock = s.chip.clock ∧ SameSupervision s t ∧ SameLineUp s t :=
  ⟨by rw [ht, Chip.settle_clock, reach.clock clock], sameSupervision_of_reaches reach ht hb,
    sameLineUp_of_reaches reach ht lineUp⟩

/-- Settles O47: the entry is answered, by a freed slot or at the resume; the producer goes on behind it. -/
theorem resumesGoOnBehindTheEntry : Obligations.ResumesGoOnBehindTheEntry := by
  constructor
  · intro i m s running paused cursor minute below point hold l closed closing total advanced frame run purchases
    have entry : (s.chip.cycleEntry i (some m)).queued = total := Chip.cycleEntry_plain run purchases (some m)
    have hi : i < 2048 := by omega
    have closes : ∀ {t c d}, ClosedAtPass i m s.chip c d → t.chip.subs = d.subs → closing t := by
      intro t c d done subs
      have sub : ∀ j, t.chip.sub j = d.sub j := fun j => by rw [Chip.sub, subs]; rfl
      have live := (congrArg Subscriber.live (sub i)).trans done.live
      exact ⟨fun j ne => (sub j).trans (done.others j ne),
        fun suspended => live.trans (Live.closed_other (by rw [suspended]; decide) _),
        fun final => live.trans (Live.closed_final final run purchases _)⟩
    refine ⟨fun waits stale state => ⟨fun room => ?_, fun n way => ?_⟩, fun answered current idle => ?_⟩
    · obtain ⟨t, next, chip, outside⟩ := exec_passResume_eq running paused (.inr room)
      have done := Chip.answerMoney_closes hi (.same [] s.chip) (by decide) paused cursor waits point minute stale room
      generalize s.chip.answerMoney = d at chip done
      have visit : d.pass = s.chip.pass := done.reaches.pass (by decide)
      have live : (d.sub d.pass.cursor).live = l.closed s.chip.clock.cal.cycle := by
        rw [visit, cursor]; exact done.live
      obtain ⟨reach, -, pass⟩ := Chip.resumePass_idle (c := d) (by rw [visit]; exact point)
        (by rw [live, Live.closed_cycle, done.reaches.clock (by decide)])
        (by rw [live]; exact Live.closed_idle state run purchases _) (by rw [visit, cursor]; exact below)
      refine ⟨t, next, closes done (by rw [chip, Chip.settle_subs, reach.subs (by decide)]), ?_, ?_,
        sameFrame_of_reaches (done.reaches.then (by rfl) reach (bs := .pass :: storeBlocks)) chip (by decide) (by decide)
          (by decide), outside⟩
      · rw [visit, cursor, minute] at pass
        exact (congrArg Chip.pass chip).trans ((Chip.settle_pass _).trans pass)
      · rw [chip, Chip.settle_journal, reach.journal (by decide), done.journal, entry]
        rfl
    · obtain ⟨c, t, next, chip, pending, same, room, journal⟩ := exec_tenureComplete_answers way
      have done := Chip.answerMoney_closes hi same (by decide) paused cursor waits point minute stale room
      have whole : Reaches (.path :: .engine :: storeBlocks) s.chip c.answerMoney := same.then (by rfl) done.reaches
      refine ⟨t, next, closes done (by rw [chip, Chip.settle_subs]), by rw [chip, Chip.settle_pass, whole.pass (by decide)],
        by rw [chip, Chip.settle_store, done.store], ?_,
        sameFrame_of_reaches whole chip (by decide) (by decide) (by decide), pending⟩
      rw [chip, Chip.settle_journal, done.journal, journal, entry]
      rfl
    · obtain ⟨t, next, chip, outside⟩ := exec_passResume_eq running paused (.inl answered)
      rw [Chip.answerMoney_answered answered] at chip
      obtain ⟨reach, unanswered, pass⟩ := Chip.resumePass_idle (c := s.chip) point (by rw [cursor]; exact current)
        (by rw [cursor]; exact ⟨idle, run, purchases⟩) (by rw [cursor]; exact below)
      rw [cursor, minute] at pass
      refine ⟨t, next, by rw [chip, Chip.settle_subs, reach.subs (by decide)],
        by rw [chip, Chip.settle_journal, reach.journal (by decide)], by rw [chip, Chip.settle_store, unanswered], ?_,
        sameFrame_of_reaches reach chip (by decide) (by decide) (by decide), outside⟩
      exact (congrArg Chip.pass chip).trans ((Chip.settle_pass _).trans pass)
  · intro i s running hold other hi l credit frame purchases
    have entry : (s.chip.creditEntry i (s.chip.eventMinute i)).queued = credit := Chip.creditEntry_queued _
    have framed : ∀ {bs t d}, Reaches bs s.chip d → t.chip = d.settle → (∀ j, j ≠ i → d.sub j = s.chip.sub j) →
        (Block.clock ∉ bs ∧ Block.pass ∉ bs) → (Block.lineUp ∉ bs ∧ Block.sweep ∉ bs) →
        (Block.elements ∉ bs ∧ Block.plant ∉ bs ∧ Block.sources ∉ bs ∧ Block.outages ∉ bs) → frame t := by
      intro bs t d reach chip others time lineUp supervision
      refine ⟨fun j ne => ?_, sameSupervision_of_reaches reach chip supervision, sameTime_of_reaches reach chip time,
        sameLineUp_of_reaches reach chip lineUp⟩
      rw [chip, Chip.sub, Chip.settle_subs]
      exact others j ne
    refine ⟨fun waits run due => ⟨fun room => ?_, fun n way => ?_⟩, fun answered run => ?_⟩
    · obtain ⟨t, next, chip, outside⟩ := exec_takeResume_eq running hold (.inr room)
      have done := Chip.answerMoney_credits hi (.same [] s.chip) (by decide) (by decide) hold other waits run due room
      generalize s.chip.answerMoney = d at chip done
      obtain ⟨others, live, store, journal, reach⟩ := Chip.resumeHeldTake_ends (c := d) hi (by rw [done.store]; exact hold)
        (by rw [done.live]) (by rw [done.live]; exact purchases)
      refine ⟨t, next, ?_, ?_, ?_, framed (done.reaches.then (by rfl) reach (bs := storeBlocks)) chip
        (fun j ne => (others j ne).trans (done.others j ne)) (by decide) (by decide) (by decide), outside⟩
      · rw [chip, Chip.settle_store, store, done.store, ← waits]
      · rw [chip, Chip.sub, Chip.settle_subs]
        exact live.trans (by rw [done.live])
      · rw [chip, Chip.settle_journal, journal, done.journal, entry]
        rfl
    · obtain ⟨c, t, next, chip, pending, same, room, journal⟩ := exec_tenureComplete_answers way
      have done := Chip.answerMoney_credits hi same (by decide) (by decide) hold other waits run due room
      have whole : Reaches (.path :: .engine :: storeBlocks) s.chip c.answerMoney := same.then (by rfl) done.reaches
      refine ⟨t, next, by rw [chip, Chip.settle_store, done.store], ?_, ?_,
        framed whole chip done.others (by decide) (by decide) (by decide), pending⟩
      · rw [chip, Chip.sub, Chip.settle_subs]
        exact done.live
      · rw [chip, Chip.settle_journal, done.journal, journal, entry]
        rfl
    · obtain ⟨t, next, chip, outside⟩ := exec_takeResume_eq running hold (.inl answered)
      rw [Chip.answerMoney_answered answered] at chip
      obtain ⟨others, live, store, journal, reach⟩ := Chip.resumeHeldTake_ends hi hold run purchases
      refine ⟨t, next, by rw [chip, Chip.settle_store, store], ?_, by rw [chip, Chip.settle_journal, journal],
        framed reach chip others (by decide) (by decide) (by decide), outside⟩
      rw [chip, Chip.sub, Chip.settle_subs]
      exact live

end Sys2Proof.Machine

namespace Sys2Proof.Machine

/-! ### The bytes of a host word (R162) -/

/-- The unmasked bytes of a host word, each put through f, written to a memory whose keys are byte addresses less
`base`. -/
def putHost (f : Byte → Byte) (m : Memory) (base : Nat) (w : HostWord) : Memory :=
  forIndices 4 (fun m k => if w.touches k then Memory.write m (w.addr - base + k) (f (lane w.data k)) else m) m

theorem writeHost_eq_putHost (m : Memory) (base : Nat) (w : HostWord) : Memory.writeHost m base w = putHost id m base w :=
  rfl
theorem markBytes_eq_putHost (m : Memory) (w : HostWord) : markBytes m w = putHost (fun _ => 1) m 0 w := rfl

theorem putHost_wf {m : Memory} (f : Byte → Byte) (base : Nat) (w : HostWord) (h : Memory.wf m = true) :
    Memory.wf (putHost f m base w) = true :=
  forIndices_keeps (P := fun m => Memory.wf m = true) 4 h fun m k _ h => by
    split
    · exact Memory.write_wf _ _ h
    · exact h

/-- A read of a byte of the word, and of any other byte. -/
theorem read_putHost {m : Memory} (h : Memory.wf m = true) (f : Byte → Byte) (base : Nat) (w : HostWord) :
    (∀ j, j < 4 → Memory.read (putHost f m base w) (w.addr - base + j) =
        if w.mask.getLsbD j then Memory.read m (w.addr - base + j) else f (lane w.data j))
      ∧ ∀ x, (x < w.addr - base ∨ w.addr - base + 4 ≤ x) → Memory.read (putHost f m base w) x = Memory.read m x := by
  unfold putHost
  generalize w.addr - base = o
  have upTo : ∀ n, n ≤ 4 →
      let d := forIndices n (fun m k => if w.touches k then Memory.write m (o + k) (f (lane w.data k)) else m) m
      Memory.wf d = true ∧ ∀ x, Memory.read d x =
        if o ≤ x ∧ x < o + n ∧ w.mask.getLsbD (x - o) = false then f (lane w.data (x - o)) else Memory.read m x := by
    intro n hn
    induction n with
    | zero => exact ⟨h, fun x => by rw [forIndices_zero, if_neg (by omega)]⟩
    | succ n ih =>
      obtain ⟨wf, read⟩ := ih (by omega)
      rw [forIndices_succ]
      generalize forIndices n _ m = d at wf read ⊢
      have touch : w.touches n = !w.mask.getLsbD n := by simp [HostWord.touches, show n < 4 by omega]
      rw [touch]
      cases masked : w.mask.getLsbD n with
      | true =>
        refine ⟨wf, fun x => ?_⟩
        rw [Bool.not_true, if_neg Bool.false_ne_true, read]
        by_cases here : x = o + n
        · subst here
          rw [Nat.add_sub_cancel_left, masked, if_neg (by simp), if_neg (by simp)]
        · have same : x < o + (n + 1) ↔ x < o + n := by omega
          simp only [same]
      | false =>
        rw [Bool.not_false, if_pos rfl]
        refine ⟨Memory.write_wf _ _ wf, fun x => ?_⟩
        rw [Memory.read_write wf, read]
        by_cases here : x = o + n
        · subst here
          rw [if_pos rfl, Nat.add_sub_cancel_left, masked, if_pos ⟨by omega, by omega, rfl⟩]
        · have same : x < o + (n + 1) ↔ x < o + n := by omega
          simp only [if_neg here, same]
  obtain ⟨-, read⟩ := upTo 4 (Nat.le_refl 4)
  refine ⟨fun j hj => (read (o + j)).trans ?_, fun x out => (read x).trans (if_neg (by omega))⟩
  rw [Nat.add_sub_cancel_left]
  cases masked : w.mask.getLsbD j with
  | true => rw [if_neg (by simp), if_pos rfl]
  | false => rw [if_pos ⟨by omega, by omega, rfl⟩, if_neg Bool.false_ne_true]

/-- A loop of which one index alone does something. -/
theorem forIndices_only {α : Type} {f : α → Nat → α} {n k : Nat} (hk : k < n) (other : ∀ j, j < n → j ≠ k → ∀ y, f y j = y)
    (x : α) : forIndices n f x = f x k := by
  obtain ⟨y, -, before, after⟩ := forIndices_around (P := fun _ => True) (R := fun a b => b = a) (x := x) (f := f)
    (fun _ => rfl) (fun h h' => h'.trans h) hk (fun y j hj ne _ => other j hj ne y) (fun _ _ _ _ => trivial) trivial
  rw [after, before]

theorem allMasked_bit : ∀ k, k < 4 → (15 : BitVec 4).getLsbD k = true := by decide

/-- A word whose four bytes are masked. -/
theorem HostWord.touches_masked {w : HostWord} (h : w.mask = 15) (k : Nat) : w.touches k = false := by
  rw [HostWord.touches, h]
  by_cases hk : k < 4
  · rw [allMasked_bit k hk, Bool.not_true, Bool.and_false]
  · simp [hk]
theorem putHost_masked {w : HostWord} (h : w.mask = 15) (f : Byte → Byte) (m : Memory) (base : Nat) :
    putHost f m base w = m :=
  forIndices_keeps (P := (· = m)) 4 rfl fun y k _ same => by
    rw [HostWord.touches_masked h, if_neg Bool.false_ne_true, same]

/-! ### The bytes of a burst -/

/-- The words of a burst, at their addresses (R162). -/
def burstWord (a : Nat → Nat) (ww : Nat → WriteWord) (k : Nat) : HostWord :=
  { addr := a k, data := (ww k).data, mask := (ww k).mask }

/-- The first n words of a burst put into a memory. -/
def putBurst (f : Byte → Byte) (a : Nat → Nat) (ww : Nat → WriteWord) (base n : Nat) (m : Memory) : Memory :=
  forIndices n (fun m k => putHost f m base (burstWord a ww k)) m

/-- A memory that holds a burst's unmasked bytes and otherwise stands as before. -/
def BurstHeld (a : Nat → Nat) (ww : Nat → WriteWord) (m m' : Memory) (base : Nat) (f : Byte → Byte) : Prop :=
  (∀ k j, k < 4 → j < 4 → Memory.read m' (a k - base + j) =
      if (ww k).mask.getLsbD j then Memory.read m (a k - base + j) else f (lane (ww k).data j))
    ∧ ∀ x, (∀ k, k < 4 → x < a k - base ∨ a k - base + 4 ≤ x) → Memory.read m' x = Memory.read m x

/-- Four words of four bytes each, none over another, all from `base` on. -/
structure Apart (a : Nat → Nat) (base : Nat) : Prop where
  low : ∀ k, k < 4 → base ≤ a k
  apart : ∀ k j, k < 4 → j < 4 → k ≠ j → a k + 4 ≤ a j ∨ a j + 4 ≤ a k

section
variable {a : Nat → Nat} {ww : Nat → WriteWord} {base : Nat} {m : Memory}

/-- A whole burst put into a memory is held by it. -/
theorem burstHeld_putBurst (ap : Apart a base) (w : Memory.wf m = true) (f : Byte → Byte) :
    BurstHeld a ww m (putBurst f a ww base 4 m) base f := by
  have upTo : ∀ n, n ≤ 4 →
      Memory.wf (putBurst f a ww base n m) = true
        ∧ (∀ k j, k < n → j < 4 → Memory.read (putBurst f a ww base n m) (a k - base + j) =
          if (ww k).mask.getLsbD j then Memory.read m (a k - base + j) else f (lane (ww k).data j))
        ∧ ∀ x, (∀ k, k < n → x < a k - base ∨ a k - base + 4 ≤ x) →
          Memory.read (putBurst f a ww base n m) x = Memory.read m x := by
    intro n hn
    induction n with
    | zero => exact ⟨w, fun k j hk => absurd hk (Nat.not_lt_zero k), fun x _ => rfl⟩
    | succ n ih =>
      obtain ⟨wf, inside, outside⟩ := ih (by omega)
      obtain ⟨here, elsewhere⟩ := read_putHost wf f base (burstWord a ww n)
      have next : putBurst f a ww base (n + 1) m = putHost f (putBurst f a ww base n m) base (burstWord a ww n) :=
        forIndices_succ _ _ _
      rw [next]
      refine ⟨putHost_wf f base _ wf, fun k j hk hj => ?_, fun x out => ?_⟩
      · by_cases same : k = n
        · subst same
          refine (here j hj).trans ?_
          have before : Memory.read (putBurst f a ww base k m) (a k - base + j) = Memory.read m (a k - base + j) := by
            refine outside _ fun i hi => ?_
            have := ap.apart k i (by omega) (by omega) (by omega)
            have := ap.low k (by omega)
            have := ap.low i (by omega)
            omega
          show (if (ww k).mask.getLsbD j then Memory.read (putBurst f a ww base k m) (a k - base + j)
            else f (lane (ww k).data j)) = _
          rw [before]
        · rw [elsewhere _ ?_]
          · exact inside k j (by omega) hj
          · have := ap.apart k n (by omega) (by omega) same
            have := ap.low k (by omega)
            have := ap.low n (by omega)
            show _ < a n - base ∨ a n - base + 4 ≤ _
            omega
      · rw [elsewhere x (out n (by omega))]
        exact outside x fun k hk => out k (by omega)
  obtain ⟨-, inside, outside⟩ := upTo 4 (Nat.le_refl 4)
  exact ⟨inside, outside⟩

/-- A burst of which one word alone is not masked. -/
theorem putBurst_alone {k : Nat} (hk : k < 4) (masked : ∀ j, j < 4 → j ≠ k → (ww j).mask = 15) (f : Byte → Byte) :
    putBurst f a ww base 4 m = putHost f m base (burstWord a ww k) :=
  forIndices_only hk (fun j hj ne _ => putHost_masked (w := burstWord a ww j) (masked j hj ne) f _ base) m

end

/-- The words of a burst lie apart from each other. -/
theorem burstAddr_apart (bank : BitVec 2) (row : BitVec 13) (col : BitVec 9) {base : Nat}
    (low : ∃ k, k < 4 ∧ base ≤ burstAddr bank row col k) (aligned : base % 64 = 0) :
    Apart (burstAddr bank row col) base := by
  obtain ⟨i, hi, below⟩ := low
  unfold burstAddr at *
  exact ⟨fun k hk => by omega, fun k j hk hj ne => by omega⟩

end Sys2Proof.Machine

namespace Sys2Proof.Machine

/-! ### One word of a WRITE burst (R168, R169) -/

/-- What becomes of a host word in a part. -/
def Chip.ruleOf (c : Chip) (w : HostWord) : WriteRule := writeRule (c.kindOf w.addr) c.part.state

/-- A word of a burst that is masked, captured, or a candidate. -/
def Chip.Taken (c : Chip) (w : HostWord) : Prop :=
  w.writes = false ∨ (w.writes = true ∧ c.ruleOf w = .capture)
    ∨ (w.writes = true ∧ c.ruleOf w = .candidate ∧ w.touchesLow = true)

/-- The part after such a word. -/
def Chip.withWord (c : Chip) (w : HostWord) : Chip :=
  if w.writes && c.ruleOf w == .capture then (c.mirrorWord (c.kindOf w.addr) w).markWord w else c

/-- The array after such a word: a candidate waits for the end of its burst. -/
def Chip.arrayWith (c : Chip) (m : Memory) (w : HostWord) : Memory :=
  if w.writes && c.ruleOf w == .candidate then m else Memory.writeHost m 0 w

/-- The event of such a word. -/
def Chip.eventOf (c : Chip) (w : HostWord) : Option TakeEvent :=
  if w.writes then
    if c.ruleOf w = .capture then takeEventOf (c.kindOf w.addr) w else candidateEvent (c.kindOf w.addr) w
  else none

theorem State.hostWrite_taken {s : State} {w : HostWord} (h : s.chip.Taken w) :
    (s.hostWrite w).1.chip = s.chip.withWord w ∧ (s.hostWrite w).1.array = s.chip.arrayWith s.array w
      ∧ (s.hostWrite w).2 = s.chip.eventOf w := by
  unfold State.hostWrite Chip.withWord Chip.arrayWith Chip.eventOf
  dsimp only
  rcases h with masked | ⟨writes, rule⟩ | ⟨writes, rule, low⟩
  · simp [masked]
  · have rule' : writeRule (s.chip.kindOf w.addr) s.chip.part.state = .capture := rule
    simp [writes, rule, rule', State.captureWord]
  · have rule' : writeRule (s.chip.kindOf w.addr) s.chip.part.state = .candidate := rule
    simp [writes, rule, rule', low]

/-- Two parts that map the addresses alike: but for the valid marks the part state is the same. -/
def SameMap (c d : Chip) : Prop := d.part = { c.part with marks := d.part.marks }

section
variable {c d e : Chip}

theorem SameMap.refl (c : Chip) : SameMap c c := rfl
theorem SameMap.trans (h : SameMap c d) (h' : SameMap d e) : SameMap c e := by
  unfold SameMap at *
  rw [h', h]
theorem SameMap.of_part (h : d.part = c.part) : SameMap c d := by rw [SameMap, h]

theorem SameMap.kindOf (h : SameMap c d) : d.kindOf = c.kindOf := by
  funext a
  unfold Chip.kindOf Chip.configBase Chip.config
  rw [h]
theorem SameMap.state (h : SameMap c d) : d.part.state = c.part.state := by rw [h]
theorem SameMap.config (h : SameMap c d) : d.config = c.config := by rw [Chip.config, h]; rfl
theorem SameMap.ruleOf (h : SameMap c d) (w : HostWord) : d.ruleOf w = c.ruleOf w := by
  rw [Chip.ruleOf, h.kindOf, h.state]; rfl
theorem SameMap.taken (h : SameMap c d) {w : HostWord} (t : c.Taken w) : d.Taken w := by
  unfold Chip.Taken
  rw [h.ruleOf]
  exact t
theorem SameMap.eventOf (h : SameMap c d) (w : HostWord) : d.eventOf w = c.eventOf w := by
  rw [Chip.eventOf, h.ruleOf, h.kindOf]; rfl
theorem SameMap.arrayWith (h : SameMap c d) (m : Memory) (w : HostWord) : d.arrayWith m w = c.arrayWith m w := by
  rw [Chip.arrayWith, h.ruleOf]; rfl

theorem Chip.markWord_part (c : Chip) (w : HostWord) :
    (c.markWord w).part =
      { c.part with marks := if c.part.state = .fill then markBytes c.part.marks w else c.part.marks } := by
  unfold Chip.markWord
  split <;> rfl
theorem Chip.mirrorWord_part (c : Chip) (k : WordKind) (w : HostWord) : (c.mirrorWord k w).part = c.part :=
  (c.mirrorWord_reaches k w).part (by decide)

theorem Chip.withWord_map (c : Chip) (w : HostWord) : SameMap c (c.withWord w) := by
  unfold Chip.withWord
  split
  · rw [SameMap, Chip.markWord_part, Chip.mirrorWord_part]
  · exact .refl c

/-- A burst in progress does not bear on what becomes of a word. -/
theorem Chip.withWord_setBurst (c : Chip) (b : Burst) (w : HostWord) :
    (c.setBurst b).withWord w = (c.withWord w).setBurst b := by
  have mirror : ∀ k, (c.setBurst b).mirrorWord k w = (c.mirrorWord k w).setBurst b := fun k => by cases k <;> rfl
  have mark : ∀ d : Chip, (d.setBurst b).markWord w = (d.markWord w).setBurst b := fun d => by
    unfold Chip.markWord
    rw [apply_ite (Chip.setBurst · b)]
    rfl
  have map : SameMap c (c.setBurst b) := .of_part rfl
  unfold Chip.withWord
  rw [map.ruleOf, map.kindOf, mirror, mark, apply_ite (Chip.setBurst · b)]

end

/-! ### The words of a WRITE burst, one after the other (R163) -/

/-- The part after the first n words of a burst. -/
def Chip.withWords (c : Chip) (hw : Nat → HostWord) (n : Nat) : Chip := forIndices n (fun d k => d.withWord (hw k)) c

/-- The array after the first n words. -/
def Chip.arrayAfter (c : Chip) (hw : Nat → HostWord) (n : Nat) (m : Memory) : Memory :=
  forIndices n (fun m k => c.arrayWith m (hw k)) m

/-- The events of the first n words, in burst order. -/
def Chip.eventsOf (c : Chip) (hw : Nat → HostWord) (n : Nat) : List TakeEvent :=
  forIndices n (fun l k => l ++ (c.eventOf (hw k)).toList) []

theorem Chip.withWords_succ (c : Chip) (hw : Nat → HostWord) (n : Nat) :
    c.withWords hw (n + 1) = (c.withWords hw n).withWord (hw n) := forIndices_succ _ _ _
theorem Chip.arrayAfter_succ (c : Chip) (hw : Nat → HostWord) (n : Nat) (m : Memory) :
    c.arrayAfter hw (n + 1) m = c.arrayWith (c.arrayAfter hw n m) (hw n) := forIndices_succ _ _ _
theorem Chip.eventsOf_succ (c : Chip) (hw : Nat → HostWord) (n : Nat) :
    c.eventsOf hw (n + 1) = c.eventsOf hw n ++ (c.eventOf (hw n)).toList := forIndices_succ _ _ _

theorem Chip.withWords_map (c : Chip) (hw : Nat → HostWord) (n : Nat) : SameMap c (c.withWords hw n) :=
  forIndices_keeps (P := SameMap c) n (.refl c) fun d k _ h => h.trans (d.withWord_map (hw k))

/-- The state with n words of a WRITE burst transferred. -/
structure Written (s : State) (b : Burst) (hw : Nat → HostWord) (n : Nat) (t : State) : Prop where
  chip : t.chip = (s.chip.withWords hw n).setBurst { b with next := n, events := s.chip.eventsOf hw n }
  array : t.array = s.chip.arrayAfter hw n s.array
  pending : t.pending = s.pending

/-- Word k of a burst as the Memory Path sees it. -/
def Burst.word (b : Burst) (l : List WriteWord) (k : Nat) : HostWord :=
  burstWord b.addr (fun k => l.getD k { data := 0, mask := 15 }) k

section
variable {s t : State} {b : Burst} {l : List WriteWord} {n : Nat}

theorem Written.step (h : Written s b (b.word l) n t) (data : b.data = .writing l) (watched : b.blind = false)
    (taken : s.chip.Taken (b.word l n)) : Written s b (b.word l) (n + 1) t.transferWord := by
  obtain ⟨bank, row, col, blind, auto, first, words, events⟩ := b
  obtain rfl : words = .writing l := data
  obtain rfl : blind = false := watched
  generalize hb : ({ bank := bank, row := row, col := col, blind := false, autoPrecharge := auto, next := first
                     data := .writing l, events := events } : Burst) = b at h taken ⊢
  have burst : t.chip.path.burst = some { b with next := n, events := s.chip.eventsOf (b.word l) n } := by
    rw [h.chip]; rfl
  have map : SameMap s.chip t.chip := by
    rw [h.chip]
    exact (s.chip.withWords_map (b.word l) n).trans (.of_part rfl)
  obtain ⟨chip, array, event⟩ := State.hostWrite_taken (map.taken taken)
  have next : t.transferWord = (t.hostWrite (b.word l n)).1.onChip fun c => c.setBurst
      { b with
        next := n + 1
        events := s.chip.eventsOf (b.word l) n ++ (t.hostWrite (b.word l n)).2.toList } := by
    unfold State.transferWord
    rw [burst, ← hb]
    rfl
  rw [next]
  refine ⟨?_, ?_, ?_⟩
  · rw [State.onChip_chip, chip, event, map.eventOf, h.chip, Chip.withWord_setBurst, ← Chip.withWords_succ,
      ← Chip.eventsOf_succ]
    rfl
  · rw [State.onChip_array, array, map.arrayWith, h.array, ← Chip.arrayAfter_succ]
  · rw [State.onChip_pending, State.hostWrite_pending, h.pending]

/-- The four words of a WRITE burst whose words are masked, captured or candidates. -/
theorem written_burst (burst : s.chip.path.burst = some b) (first : b.next = 0) (events : b.events = [])
    (data : b.data = .writing l) (watched : b.blind = false) (taken : ∀ k, k < 4 → s.chip.Taken (b.word l k)) :
    Written s b (b.word l) 4
      (forIndices 4 (fun (s : State) _ => if s.chip.burstDone then s else s.transferWord) s) := by
  have upTo : ∀ n, n ≤ 4 → Written s b (b.word l) n
      (forIndices n (fun (s : State) _ => if s.chip.burstDone then s else s.transferWord) s) := by
    intro n hn
    induction n with
    | zero =>
      have same : ({ b with next := 0, events := [] } : Burst) = b := by rw [← first, ← events]
      refine ⟨?_, rfl, rfl⟩
      have chip := Chip.setBurst_same burst
      rw [Chip.eventsOf, Chip.withWords, forIndices_zero, forIndices_zero, forIndices_zero, same, chip]
    | succ n ih =>
      have before := ih (by omega)
      rw [forIndices_succ]
      generalize forIndices n _ s = t at before ⊢
      have goesOn : t.chip.burstDone = false := by
        rw [before.chip, Chip.burstDone_iff (b := { b with next := n, events := s.chip.eventsOf (b.word l) n }) rfl,
          decide_eq_false_iff_not]
        exact Nat.not_le.mpr hn
      rw [goesOn]
      exact before.step data watched (taken n (by omega))
  exact upTo 4 (Nat.le_refl 4)

end

end Sys2Proof.Machine

namespace Sys2Proof.Machine

/-! ### A whole WRITE burst (R163, R168, R169) -/

/-- The part whose bank is CLOSED after a burst with auto-precharge. -/
def Chip.closedAfter (c : Chip) (auto : Bool) (bank : BitVec 2) : Chip := if auto then c.closeBank bank else c

/-- The state at the end of a WRITE burst of four words, before its events. -/
structure BurstWritten (s : State) (hw : Nat → HostWord) (auto : Bool) (bank : BitVec 2) (r : State) : Prop where
  chip : r.chip = (s.chip.withWords hw 4).closedAfter auto bank
  array : r.array = s.chip.arrayAfter hw 4 s.array
  pending : r.pending = s.pending

/-- What a captured word, or its valid marks, reach. -/
abbrev wordBlocks : List Block := [.store, .lineUp, .plant, .orders, .part]

theorem Chip.withWord_reaches (c : Chip) (w : HostWord) : Reaches wordBlocks c (c.withWord w) := by
  unfold Chip.withWord
  exact .ite ((c.mirrorWord_reaches _ w).then (by rfl) (Chip.markWord_reaches _ w)) (.same _ c)
theorem Chip.withWords_reaches (c : Chip) (hw : Nat → HostWord) (n : Nat) : Reaches wordBlocks c (c.withWords hw n) :=
  forIndices_reaches (fun d k => d.withWord_reaches (hw k)) n c
theorem Chip.closedAfter_reaches (c : Chip) (auto : Bool) (bank : BitVec 2) : Reaches [.path] c (c.closedAfter auto bank) :=
  .ite (c.setPath_reaches _) (.same _ c)

theorem forIndices_agree {α : Type} {f g : α → Nat → α} {n : Nat} (h : ∀ k, k < n → ∀ x, f x k = g x k) (x : α) :
    forIndices n f x = forIndices n g x := by
  induction n with
  | zero => rfl
  | succ n ih => rw [forIndices_succ, forIndices_succ, ih fun k hk => h k (by omega), h n (by omega)]

/-- A burst in progress and words that agree with these do not bear on what the words make. -/
theorem Chip.withWords_setBurst (c : Chip) (b : Burst) {hw hw' : Nat → HostWord} {n : Nat}
    (each : ∀ k, k < n → hw' k = hw k) : (c.setBurst b).withWords hw' n = (c.withWords hw n).setBurst b := by
  have agree := forIndices_agree (f := fun d k => Chip.withWord d (hw' k)) (g := fun d k => d.withWord (hw k))
    (fun k hk x => by rw [each k hk]) (c.setBurst b)
  exact agree.trans (forIndices_comm (Chip.setBurst · b) (fun y k => Chip.withWord_setBurst y b (hw k)) n c)
theorem Chip.eventsOf_setBurst (c : Chip) (b : Burst) {hw hw' : Nat → HostWord} {n : Nat}
    (each : ∀ k, k < n → hw' k = hw k) : (c.setBurst b).eventsOf hw' n = c.eventsOf hw n :=
  forIndices_agree (fun k hk x => by rw [each k hk, SameMap.eventOf (c := c) (d := c.setBurst b) (.of_part rfl)]) []
theorem Chip.arrayAfter_setBurst (c : Chip) (b : Burst) {hw hw' : Nat → HostWord} {n : Nat}
    (each : ∀ k, k < n → hw' k = hw k) (m : Memory) : (c.setBurst b).arrayAfter hw' n m = c.arrayAfter hw n m :=
  forIndices_agree (fun k hk x => by rw [each k hk, SameMap.arrayWith (c := c) (d := c.setBurst b) (.of_part rfl)]) m

/-- The end of a watched burst. -/
theorem State.endBurst_watched {s : State} {b : Burst} (burst : s.chip.path.burst = some b) (watched : b.blind = false) :
    s.endBurst = (s.onChip fun c => c.burstEnded b).handEvents b.events := by
  simp only [State.endBurst, burst, watched]
  rfl

/-- A WRITE of four words to an open row, at its end: the words, then the events they made. -/
theorem State.writeBurst_open {s : State} (free : s.chip.path.burst = none) {bank : BitVec 2} {row : BitVec 13}
    (entry : vget s.chip.path.banks bank.toNat = some row) (i : Instr) (col : BitVec 9) (auto : Bool)
    (w0 w1 w2 w3 : WriteWord) {hw : Nat → HostWord}
    (words : hw = burstWord (burstAddr bank row col) fun k => [w0, w1, w2, w3].getD k w0)
    (taken : ∀ k, k < 4 → s.chip.Taken (hw k)) :
    ∃ r, BurstWritten s hw auto bank r
      ∧ s.writeBurst i bank col auto [w0, w1, w2, w3] 4 = r.handEvents (s.chip.eventsOf hw 4) := by
  rw [State.writeBurst, State.cutForward_none s i free, State.startBurst_eq]
  have open' : (s.forward i).chip.lookedUp bank = s.chip := Chip.lookedUp_open entry
  have rowAt : (s.forward i).chip.rowAt bank = row := by rw [Chip.rowAt]; exact congrArg (Option.getD · _) entry
  have known : (vget (s.forward i).chip.path.banks bank.toNat).isNone = false := by
    rw [show (s.forward i).chip = s.chip from rfl, entry]; rfl
  rw [rowAt, known]
  generalize hb : ({ bank := bank, row := row, col := col, blind := false, autoPrecharge := auto, next := 0
                     data := .writing [w0, w1, w2, w3], events := [] } : Burst) = b
  generalize hs : (s.forward i).onChip (fun c => (c.lookedUp bank).setBurst b) = s'
  have chip : s'.chip = s.chip.setBurst b := by
    rw [← hs, State.onChip_chip, open']
  have burst : s'.chip.path.burst = some b := by rw [chip]; rfl
  have same : SameMap s.chip s'.chip := .of_part (by rw [chip]; rfl)
  have each : ∀ k, k < 4 → b.word [w0, w1, w2, w3] k = hw k := by
    intro k hk
    rw [words, ← hb]
    obtain rfl | rfl | rfl | rfl : k = 0 ∨ k = 1 ∨ k = 2 ∨ k = 3 := by omega
    all_goals rfl
  have done := written_burst burst (by rw [← hb]) (by rw [← hb]) (by rw [← hb]) (by rw [← hb]) (l := [w0, w1, w2, w3])
    fun k hk => by rw [each k hk]; exact same.taken (taken k hk)
  have ended : s'.transferWords 4 =
      (forIndices 4 (fun (s : State) _ => if s.chip.burstDone then s else s.transferWord) s').endBurst := by
    have full := Chip.burstDone_iff (c := (forIndices 4 (fun (s : State) _ =>
      if s.chip.burstDone then s else s.transferWord) s').chip) (b := _) (by rw [done.chip]; rfl)
    exact if_pos (full.trans rfl)
  generalize forIndices 4 (fun (s : State) _ => if s.chip.burstDone then s else s.transferWord) s' = u at done ended
  have whole : u.chip = (s.chip.withWords hw 4).setBurst { b with next := 4, events := s.chip.eventsOf hw 4 } := by
    rw [done.chip, chip, Chip.withWords_setBurst _ _ each, Chip.eventsOf_setBurst _ _ each]
    rfl
  have none : (s.chip.withWords hw 4).path.burst = Option.none := by
    rw [(s.chip.withWords_reaches hw 4).path (by decide), free]
  refine ⟨u.onChip fun c => c.burstEnded { b with next := 4, events := s.chip.eventsOf hw 4 }, ⟨?_, ?_, ?_⟩, ?_⟩
  · rw [State.onChip_chip, whole, Chip.burstEnded_setBurst none, ← hb]
    rfl
  · rw [State.onChip_array, done.array, chip, Chip.arrayAfter_setBurst _ _ each, ← hs]
    rfl
  · rw [State.onChip_pending, done.pending, ← hs]
    rfl
  · rw [ended]
    exact State.endBurst_watched (b := { b with next := 4, events := s.chip.eventsOf hw 4 }) (by rw [whole]; rfl)
      (by rw [← hb])

/-- WRITE and WRITE AUTO PRECHARGE of four words to an open row of a free bus. -/
theorem exec_write_open {s : State} (free : BusFree s) {bank : BitVec 2} {row : BitVec 13}
    (entry : vget s.chip.path.banks bank.toNat = some row) {col : BitVec 9} {w0 w1 w2 w3 : WriteWord} {c : Instr}
    (write : c = .write bank col w0 w1 w2 w3 4 ∨ c = .writeAutoPrecharge bank col w0 w1 w2 w3 4) {hw : Nat → HostWord}
    (words : hw = burstWord (burstAddr bank row col) fun k => [w0, w1, w2, w3].getD k w0)
    (taken : ∀ k, k < 4 → s.chip.Taken (hw k)) :
    ∃ auto r t, exec c s = .next t ∧ BurstWritten s hw auto bank r ∧ t = r.handEvents (s.chip.eventsOf hw 4)
      ∧ (auto = true ↔ c ≠ .write bank col w0 w1 w2 w3 4) := by
  obtain ⟨idle, none⟩ := free
  have host : s.hostBus = true := bne_iff_ne.mpr idle
  rcases write with rfl | rfl
  · obtain ⟨r, written, ends⟩ := State.writeBurst_open none entry (.write bank col w0 w1 w2 w3 4) col false w0 w1 w2 w3
      words taken
    exact ⟨false, r, _, congrArg Host.Outcome.next (if_pos host), written, ends, by simp⟩
  · obtain ⟨r, written, ends⟩ := State.writeBurst_open none entry (.writeAutoPrecharge bank col w0 w1 w2 w3 4) col true
      w0 w1 w2 w3 words taken
    exact ⟨true, r, _, congrArg Host.Outcome.next (if_pos host), written, ends, by simp⟩

end Sys2Proof.Machine

namespace Sys2Proof.Machine

/-! ### Bursts whose words are captured (R169, R183) -/

/-- Every word of a burst that writes is captured. -/
def Chip.Captures (c : Chip) (hw : Nat → HostWord) : Prop :=
  ∀ k, k < 4 → (hw k).writes = true → c.ruleOf (hw k) = .capture

theorem HostWord.touches_silent {w : HostWord} (h : w.writes = false) (k : Nat) : w.touches k = false := by
  simp only [HostWord.writes, Bool.or_eq_false_iff] at h
  obtain ⟨⟨⟨t0, t1⟩, t2⟩, t3⟩ := h
  by_cases hk : k < 4
  · obtain rfl | rfl | rfl | rfl : k = 0 ∨ k = 1 ∨ k = 2 ∨ k = 3 := by omega
    all_goals assumption
  · simp [HostWord.touches, hk]

/-- A word that writes nothing puts nothing into a memory. -/
theorem putHost_silent {w : HostWord} (h : w.writes = false) (f : Byte → Byte) (m : Memory) (base : Nat) :
    putHost f m base w = m :=
  forIndices_keeps (P := (· = m)) 4 rfl fun y k _ same => by
    rw [HostWord.touches_silent h, if_neg Bool.false_ne_true, same]

theorem HostWord.writes_masked {w : HostWord} (h : w.mask = 15) : w.writes = false := by
  simp only [HostWord.writes, HostWord.touches_masked h, Bool.or_false]
theorem HostWord.writes_of_mask {w : HostWord} (h : w.mask ≠ 15) : w.writes = true := by
  by_contra silent
  rw [Bool.not_eq_true] at silent
  refine h (BitVec.eq_of_getLsbD_eq fun k hk => ?_)
  have masked := HostWord.touches_silent silent k
  rw [allMasked_bit k hk]
  simpa [HostWord.touches, hk] using masked
theorem HostWord.writes_of_low {w : HostWord} (h : w.touchesLow = true) : w.writes = true := by
  rw [HostWord.writes, ← HostWord.touchesLow, h, Bool.true_or, Bool.true_or]
theorem HostWord.touchesLow_iff {w : HostWord} :
    w.touchesLow = true ↔ w.mask.getLsbD 0 = false ∨ w.mask.getLsbD 1 = false := by
  simp [HostWord.touchesLow, HostWord.touches]

section
variable {a : Nat → Nat} {ww : Nat → WriteWord} {c : Chip}

theorem Chip.Captures.taken {hw : Nat → HostWord} (h : c.Captures hw) {k : Nat} (hk : k < 4) : c.Taken (hw k) := by
  cases writes : (hw k).writes with
  | false => exact .inl writes
  | true => exact .inr (.inl ⟨writes, h k hk writes⟩)

theorem Chip.withWord_silent {w : HostWord} (h : w.writes = false) (c : Chip) : c.withWord w = c :=
  if_neg (by rw [h, Bool.false_and]; exact Bool.false_ne_true)
theorem Chip.withWord_captured {w : HostWord} (writes : w.writes = true) (rule : c.ruleOf w = .capture) :
    c.withWord w = (c.mirrorWord (c.kindOf w.addr) w).markWord w :=
  if_pos (by rw [writes, rule]; decide)

/-- The words of a captured burst reach the array (R168). -/
theorem Chip.arrayAfter_captured (h : c.Captures (burstWord a ww)) (m : Memory) :
    c.arrayAfter (burstWord a ww) 4 m = putBurst id a ww 0 4 m :=
  forIndices_agree (fun k hk x => by
    have pass : ¬ ((burstWord a ww k).writes && c.ruleOf (burstWord a ww k) == .candidate) = true := by
      cases writes : (burstWord a ww k).writes with
      | false => simp
      | true => rw [h k hk writes]; decide
    rw [Chip.arrayWith, if_neg pass, writeHost_eq_putHost]) m

theorem putBurst_succ (f : Byte → Byte) (a : Nat → Nat) (ww : Nat → WriteWord) (base n : Nat) (m : Memory) :
    putBurst f a ww base (n + 1) m = putHost f (putBurst f a ww base n m) base (burstWord a ww n) :=
  forIndices_succ _ _ _

/-- The part state with the valid marks of the first n words of a burst. -/
def Part.markedWith (p : Part) (a : Nat → Nat) (ww : Nat → WriteWord) (n : Nat) : Part :=
  { p with marks := if p.state = .fill then putBurst (fun _ => 1) a ww 0 n p.marks else p.marks }

/-- In FILL the bytes of a captured burst are valid-marked. -/
theorem Chip.withWords_part (h : c.Captures (burstWord a ww)) {n : Nat} (hn : n ≤ 4) :
    (c.withWords (burstWord a ww) n).part = c.part.markedWith a ww n := by
  induction n with
  | zero =>
    rw [Part.markedWith]
    split <;> rfl
  | succ n ih =>
    have before := ih (by omega)
    have map := c.withWords_map (burstWord a ww) n
    rw [Chip.withWords_succ]
    generalize c.withWords (burstWord a ww) n = d at before map ⊢
    rw [Part.markedWith, putBurst_succ]
    cases writes : (burstWord a ww n).writes with
    | false =>
      rw [Chip.withWord_silent writes, putHost_silent writes]
      exact before
    | true =>
      rw [Chip.withWord_captured writes (by rw [map.ruleOf]; exact h n hn writes), Chip.markWord_part,
        Chip.mirrorWord_part, before]
      by_cases fill : c.part.state = .fill
      · simp only [Part.markedWith, if_pos fill, markBytes_eq_putHost]
      · simp only [Part.markedWith, if_neg fill]

/-- What a captured burst leaves in the array and of the part state. -/
structure BurstCaptured (s : State) (a : Nat → Nat) (ww : Nat → WriteWord) (t : State) : Prop where
  array : BurstHeld a ww s.array t.array 0 id
  part : t.chip.part = { s.chip.part with marks := t.chip.part.marks }
  running : s.chip.part.state = .running → t.chip.part = s.chip.part
  fill : s.chip.part.state = .fill → Memory.wf s.chip.part.marks = true →
    BurstHeld a ww s.chip.part.marks t.chip.part.marks 0 (fun _ => 1)

theorem burstCaptured_of_written {s r t : State} {auto : Bool} {bank : BitVec 2} (canonical : ArrayCanonical s)
    (ap : Apart a 0) (h : s.chip.Captures (burstWord a ww)) (written : BurstWritten s (burstWord a ww) auto bank r)
    (array : t.array = r.array) (part : t.chip.part = r.chip.part) : BurstCaptured s a ww t := by
  have marked : t.chip.part = s.chip.part.markedWith a ww 4 := by
    rw [part, written.chip, (Chip.closedAfter_reaches _ auto bank).part (by decide), Chip.withWords_part h (Nat.le_refl 4)]
  refine ⟨?_, ?_, fun running => ?_, fun fill wf => ?_⟩
  · rw [array, written.array, Chip.arrayAfter_captured h]
    exact burstHeld_putBurst ap canonical id
  · rw [marked, Part.markedWith]
  · rw [marked, Part.markedWith, if_neg (by rw [running]; decide)]
  · have marks : t.chip.part.marks = putBurst (fun _ => 1) a ww 0 4 s.chip.part.marks := by
      rw [marked, Part.markedWith, if_pos fill]
    rw [marks]
    exact burstHeld_putBurst ap wf _

/-! ### A burst of intent words (R24, R169) -/

/-- The store with the intent mirror of the first n words of a burst. -/
theorem Chip.withWords_intents (watched : c.part.state = .fill ∨ c.part.state = .running)
    (kinds : ∀ k, k < 4 → ∃ off, c.kindOf (a k) = .intent off) {n : Nat} (hn : n ≤ 4) :
    Reaches [.store, .part] c (c.withWords (burstWord a ww) n)
      ∧ (c.withWords (burstWord a ww) n).store =
        { c.store with mirror := putBurst id a ww c.config.subscriber.base n c.store.mirror } := by
  induction n with
  | zero => exact ⟨.same _ c, rfl⟩
  | succ n ih =>
    obtain ⟨reach, store⟩ := ih (by omega)
    have map := c.withWords_map (burstWord a ww) n
    rw [Chip.withWords_succ, putBurst_succ]
    generalize c.withWords (burstWord a ww) n = d at reach store map ⊢
    cases writes : (burstWord a ww n).writes with
    | false =>
      rw [Chip.withWord_silent writes, putHost_silent writes]
      exact ⟨reach, store⟩
    | true =>
      obtain ⟨off, kind⟩ := kinds n hn
      have rule : d.ruleOf (burstWord a ww n) = .capture := by
        rw [map.ruleOf, Chip.ruleOf, show c.kindOf (burstWord a ww n).addr = .intent off from kind]
        rcases watched with state | state <;> rw [state] <;> rfl
      have kind' : d.kindOf (burstWord a ww n).addr = .intent off := by rw [map.kindOf]; exact kind
      rw [Chip.withWord_captured writes rule, kind']
      have word : Reaches [.store, .part] d ((d.mirrorWord (.intent off) (burstWord a ww n)).markWord (burstWord a ww n)) :=
        (d.setStore_reaches _).then (by rfl) (Chip.markWord_reaches _ _)
      refine ⟨reach.then (by rfl) word, ?_⟩
      rw [(Chip.markWord_reaches _ _).store (by decide), Chip.mirrorWord, Chip.setStore_store, store, map.config,
        writeHost_eq_putHost]

end

end Sys2Proof.Machine

namespace Sys2Proof.Machine

/-! ### Where the words of a region stand (R167) -/

/-- A captured kind of word stands in its region. -/
def WordKind.Placed (v : ConfigValues) (a : Nat) : WordKind → Prop
  | .intent off => v.subscriber.base ≤ a ∧ off = a - v.subscriber.base
  | .lineUp _ => v.lineUp.base ≤ a
  | .plant _ => v.plant.base ≤ a
  | .slot _ => v.orderRing.base ≤ a
  | _ => True

theorem Span.base_le {r : Span} {a : Nat} (h : r.holds a = true) : r.base ≤ a := by
  simp only [Span.holds, Bool.and_eq_true, decide_eq_true_eq] at h
  exact h.1

theorem configKind_placed (v : ConfigValues) (a off : Nat) : (configKind off).Placed v a := by
  unfold configKind
  split
  · trivial
  · split
    · trivial
    · split <;> trivial

theorem mapKind_placed (v : ConfigValues) (a : Nat) : (mapKind v a).Placed v a := by
  unfold mapKind
  dsimp only
  split
  · split
    · trivial
    · split <;> trivial
  · split
    · next held =>
      split
      · exact ⟨Span.base_le held, rfl⟩
      · trivial
    · split
      · next held =>
        split
        · trivial
        · exact Span.base_le held
      · split
        · next held =>
          split
          · trivial
          · exact Span.base_le held
        · split
          · next held =>
            split
            · trivial
            · exact Span.base_le held
          · split <;> trivial

theorem Chip.kindOf_placed (c : Chip) (a : Nat) : (c.kindOf a).Placed c.config a := by
  unfold Chip.kindOf
  split
  · exact configKind_placed _ _ _
  · split
    · exact mapKind_placed _ _
    · trivial

/-! ### The events of a burst (R169) -/

section
variable {c : Chip} {hw : Nat → HostWord}

theorem Chip.eventOf_silent {w : HostWord} (h : w.writes = false) (c : Chip) : c.eventOf w = none :=
  if_neg (by rw [h]; exact Bool.false_ne_true)
theorem Chip.eventOf_captured {w : HostWord} (writes : w.writes = true) (rule : c.ruleOf w = .capture) :
    c.eventOf w = takeEventOf (c.kindOf w.addr) w := by
  rw [Chip.eventOf, if_pos writes, if_pos rule]

/-- A burst of which one word alone may make an event. -/
theorem Chip.eventsOf_one {k : Nat} (hk : k < 4) (others : ∀ j, j < 4 → j ≠ k → c.eventOf (hw j) = none) :
    c.eventsOf hw 4 = (c.eventOf (hw k)).toList :=
  (forIndices_only (f := fun l j => l ++ (c.eventOf (hw j)).toList) hk (fun j hj ne y => by
    rw [others j hj ne]; exact List.append_nil y) []).trans (List.nil_append _)

/-- A burst of which no word makes an event. -/
theorem Chip.eventsOf_none (none : ∀ j, j < 4 → c.eventOf (hw j) = none) : c.eventsOf hw 4 = [] := by
  rw [Chip.eventsOf_one (k := 0) (by omega) fun j hj _ => none j hj, none 0 (by omega)]
  rfl

end

/-- The event of an intent word: its record's request where the revision word is touched. -/
theorem takeEventOf_intent (off : Nat) (w : HostWord) :
    takeEventOf (.intent off) w = if w.touchesLow = true ∧ off % 128 = 0 then some (.revision (off / 128)) else none := by
  unfold takeEventOf
  cases low : w.touchesLow <;> simp

section
variable {s r t : State} {bank : BitVec 2} {row : BitVec 13} {col : BitVec 9} {ww : Nat → WriteWord} {c : Chip}

theorem Chip.Captures.of_kinds {a : Nat → Nat} (watched : c.part.state = .fill ∨ c.part.state = .running)
    (kinds : ∀ k, k < 4 → ∃ off, c.kindOf (a k) = .intent off) : c.Captures (burstWord a ww) := by
  intro k hk _
  obtain ⟨off, kind⟩ := kinds k hk
  rw [Chip.ruleOf, show c.kindOf (burstWord a ww k).addr = .intent off from kind]
  rcases watched with state | state <;> rw [state] <;> rfl

/-- Of the four words of a burst one alone can stand at the start of a record. -/
theorem revision_unique {base k j : Nat} (aligned : base % 64 = 0) (hk : k < 4) (hj : j < 4)
    (low : base ≤ burstAddr bank row col k) (low' : base ≤ burstAddr bank row col j)
    (start : (burstAddr bank row col k - base) % 128 = 0) (start' : (burstAddr bank row col j - base) % 128 = 0) :
    k = j := by
  unfold burstAddr at *
  omega

/-- The events of a burst of intent words: one request, or none. -/
theorem Chip.eventsOf_intents (watched : c.part.state = .fill ∨ c.part.state = .running)
    (aligned : c.config.subscriber.base % 64 = 0)
    (kinds : ∀ k, k < 4 → ∃ off, c.kindOf (burstAddr bank row col k) = .intent off) :
    (c.eventsOf (burstWord (burstAddr bank row col) ww) 4 = []
        ∧ ∀ k i, k < 4 → c.kindOf (burstAddr bank row col k) = .intent (128 * i) →
          (burstWord (burstAddr bank row col) ww k).touchesLow = false)
      ∨ ∃ k i, k < 4 ∧ c.kindOf (burstAddr bank row col k) = .intent (128 * i)
        ∧ (burstWord (burstAddr bank row col) ww k).touchesLow = true
        ∧ c.eventsOf (burstWord (burstAddr bank row col) ww) 4 = [.revision i]
        ∧ ∀ j i', j < 4 → c.kindOf (burstAddr bank row col j) = .intent (128 * i') → i' = i := by
  have captures : c.Captures (burstWord (burstAddr bank row col) ww) := .of_kinds watched kinds
  have place : ∀ {k off}, c.kindOf (burstAddr bank row col k) = .intent off →
      c.config.subscriber.base ≤ burstAddr bank row col k
        ∧ off = burstAddr bank row col k - c.config.subscriber.base := by
    intro k off kind
    have placed := c.kindOf_placed (burstAddr bank row col k)
    rwa [kind] at placed
  have event : ∀ {k off}, k < 4 → c.kindOf (burstAddr bank row col k) = .intent off →
      c.eventOf (burstWord (burstAddr bank row col) ww k) =
        if (burstWord (burstAddr bank row col) ww k).touchesLow = true ∧ off % 128 = 0 then some (.revision (off / 128))
        else none := by
    intro k off hk kind
    cases writes : (burstWord (burstAddr bank row col) ww k).writes with
    | false =>
      have silent : (burstWord (burstAddr bank row col) ww k).touchesLow = false := by
        rw [HostWord.touchesLow, HostWord.touches_silent writes, HostWord.touches_silent writes]; rfl
      rw [Chip.eventOf_silent writes, if_neg (by rw [silent]; simp)]
    | true =>
      rw [Chip.eventOf_captured writes (captures k hk writes), ← takeEventOf_intent]
      exact congrArg (takeEventOf · _) kind
  by_cases made : ∃ k i, k < 4 ∧ c.kindOf (burstAddr bank row col k) = .intent (128 * i)
      ∧ (burstWord (burstAddr bank row col) ww k).touchesLow = true
  · obtain ⟨k, i, hk, kind, low⟩ := made
    have only : ∀ j off, j < 4 → c.kindOf (burstAddr bank row col j) = .intent off → off % 128 = 0 → j = k := by
      intro j off hj kind' start
      obtain ⟨lowJ, offJ⟩ := place kind'
      obtain ⟨lowK, offK⟩ := place kind
      exact revision_unique aligned hj hk lowJ lowK (by omega) (by omega)
    refine .inr ⟨k, i, hk, kind, low, ?_, fun j i' hj kind' => ?_⟩
    · rw [Chip.eventsOf_one hk fun j hj ne => ?_, event hk kind, if_pos ⟨low, Nat.mul_mod_right 128 i⟩,
        Nat.mul_div_cancel_left i (by omega)]
      · rfl
      · obtain ⟨off, kind'⟩ := kinds j hj
        rw [event hj kind', if_neg fun both => ne (only j off hj kind' both.2)]
    · obtain rfl := only j _ hj kind' (Nat.mul_mod_right 128 i')
      have same : 128 * i' = 128 * i := WordKind.intent.inj (kind'.symm.trans kind)
      omega
  · refine .inl ⟨Chip.eventsOf_none fun j hj => ?_, fun k i hk kind => ?_⟩
    · obtain ⟨off, kind⟩ := kinds j hj
      rw [event hj kind, if_neg]
      rintro ⟨low, start⟩
      exact made ⟨j, off / 128, hj, by rw [kind]; congr 1; omega, low⟩
    · by_contra low
      exact made ⟨k, i, hk, kind, by simpa using low⟩

end

end Sys2Proof.Machine

namespace Sys2Proof.Machine

/-! ### The end of a burst -/

section
variable {s r t : State} {hw : Nat → HostWord} {auto : Bool} {b : BitVec 2}

/-- The bank entry after a burst: CLOSED with auto-precharge. -/
theorem BurstWritten.bank_entry {row : BitVec 13} (h : BurstWritten s hw auto b r)
    (entry : vget s.chip.path.banks b.toNat = some row) :
    vget r.chip.path.banks b.toNat = if auto = true then none else some row := by
  have path : (s.chip.withWords hw 4).path = s.chip.path := (s.chip.withWords_reaches hw 4).path (by decide)
  rw [h.chip, Chip.closedAfter]
  cases auto with
  | true => exact Chip.closeBank_entry _ b
  | false => exact (congrArg (fun p => vget p.banks b.toNat) path).trans entry

theorem BurstWritten.reaches (h : BurstWritten s hw auto b r) {bs bs' : List Block}
    (words : Reaches bs s.chip (s.chip.withWords hw 4)) (w : within (bs ++ [.path]) bs' = true) :
    Reaches bs' s.chip r.chip := by
  rw [h.chip]
  exact words.then w (Chip.closedAfter_reaches _ auto b)

/-- A take request of a record in a part that captures. -/
theorem State.handEvent_revision (watched : r.chip.part.state = .fill ∨ r.chip.part.state = .running) (i : Nat) :
    (r.handEvent (.revision i)).chip = (r.chip.queueTake i).settle
      ∧ (r.handEvent (.revision i)).array = r.array := by
  have queued : r.chip.revisionEvent i = r.chip.queueTake i := by
    refine if_neg fun stopped => ?_
    rcases watched with state | state
    · exact stopped.1 state
    · exact stopped.2 state
  have handed : r.handEvent (.revision i) = (r.onChip fun c => c.revisionEvent i).onChip Chip.settle := rfl
  rw [handed, State.onChip_chip, State.onChip_chip, State.onChip_array, State.onChip_array, queued]
  exact ⟨rfl, rfl⟩

/-- What the request of a record leaves of the store and the records. -/
structure RequestMade (s t : State) (i : Nat) : Prop where
  joins : i < 2048 → i ∉ s.chip.store.queue → t.chip.store.queue = s.chip.store.queue ++ [i]
    ∧ (t.chip.sub i).live.outcome = .pending ∧ (t.chip.sub i).taken = (s.chip.sub i).taken
    ∧ ∀ j, j ≠ i → t.chip.sub j = s.chip.sub j
  waits : i ∈ s.chip.store.queue → t.chip.store.queue = s.chip.store.queue ∧ t.chip.subs = s.chip.subs

theorem requestMade {d : Chip} {i : Nat} (queue : r.chip.store.queue = s.chip.store.queue)
    (subs : r.chip.subs = s.chip.subs) (store : t.chip.store = d.store) (records : t.chip.subs = d.subs)
    (made : d = r.chip.queueTake i) : RequestMade s t i := by
  subst made
  have sub : ∀ j, t.chip.sub j = (r.chip.queueTake i).sub j := fun j => by rw [Chip.sub, records]; rfl
  have before : ∀ j, r.chip.sub j = s.chip.sub j := fun j => by rw [Chip.sub, subs]; rfl
  refine ⟨fun hi free => ?_, fun waits => ?_⟩
  · rw [Chip.queueTake_joins (by rw [queue]; exact free)] at store sub
    have taken := Chip.taken_updLive (r.chip.setStore { r.chip.store with queue := r.chip.store.queue ++ [i] }) i i
      fun l => { l with outcome := .pending }
    refine ⟨?_, ?_, ?_, fun j ne => ?_⟩
    · rw [store, ← queue]
      rfl
    · rw [sub]
      exact congrArg Live.outcome (Chip.live_updLive _ hi _)
    · rw [sub, ← before]
      exact taken
    · rw [sub, ← before]
      exact Chip.sub_updLive_other _ i j _ ne
  · rw [Chip.queueTake_waiting (by rw [queue]; exact waits)] at store records
    exact ⟨by rw [store, queue], by rw [records, subs]⟩

/-- The orders behind the selections, where the Order Taker had nothing to take before. -/
theorem settle_orders_kept {d : Chip} (quiet : s.chip.quiet = true) (orders : d.orders = s.chip.orders)
    (running : d.running = s.chip.running) : d.settle.orders = s.chip.orders := by
  have still : d.quietOrders = true := by
    rw [Chip.quietOrders, orders, running]
    exact Chip.quiet_orders quiet
  rw [Chip.settle_orders_quiet still, orders]

end

/-! ### A WRITE of intent words (R24, R169) -/

/-- What a burst of intent words leaves. -/
structure IntentsWritten (s : State) (a : Nat → Nat) (ww : Nat → WriteWord) (t : State) : Prop where
  captured : BurstCaptured s a ww t
  mirror : Memory.wf s.chip.store.mirror = true →
    BurstHeld a ww s.chip.store.mirror t.chip.store.mirror s.chip.config.subscriber.base id
  store : t.chip.store = { s.chip.store with mirror := t.chip.store.mirror, queue := t.chip.store.queue }
  supervision : SameSupervision s t
  time : SameTime s t
  lineUp : SameLineUp s t
  queues : SameQueues s t
  pending : t.pending = s.pending

section
variable {s : State} {bank : BitVec 2} {row : BitVec 13} {col : BitVec 9} {w0 w1 w2 w3 : WriteWord} {c : Instr}
  {a : Nat → Nat} {ww : Nat → WriteWord}

theorem exec_write_intents (free : BusFree s) (quiet : Settled s) (canonical : ArrayCanonical s)
    (aligned : s.chip.config.subscriber.base % 64 = 0) (entry : vget s.chip.path.banks bank.toNat = some row)
    (write : c = .write bank col w0 w1 w2 w3 4 ∨ c = .writeAutoPrecharge bank col w0 w1 w2 w3 4)
    (ha : a = burstAddr bank row col) (hww : ww = fun k => [w0, w1, w2, w3].getD k w0)
    (watched : s.chip.part.state = .fill ∨ s.chip.part.state = .running)
    (kinds : ∀ k, k < 4 → ∃ off, s.chip.kindOf (a k) = .intent off) :
    ∃ auto t, exec c s = .next t ∧ IntentsWritten s a ww t ∧ (auto = true ↔ c ≠ .write bank col w0 w1 w2 w3 4)
      ∧ vget t.chip.path.banks bank.toNat = (if auto = true then none else some row)
      ∧ (t.chip.store.queue = s.chip.store.queue ∧ t.chip.subs = s.chip.subs
          ∧ (∀ k i, k < 4 → s.chip.kindOf (a k) = .intent (128 * i) → (burstWord a ww k).touchesLow = false)
        ∨ ∃ k i, k < 4 ∧ s.chip.kindOf (a k) = .intent (128 * i) ∧ (burstWord a ww k).touchesLow = true
          ∧ RequestMade s t i ∧ ∀ j i', j < 4 → s.chip.kindOf (a j) = .intent (128 * i') → i' = i) := by
  subst ha
  have captures : s.chip.Captures (burstWord (burstAddr bank row col) ww) := .of_kinds watched kinds
  obtain ⟨auto, r, t, next, written, ends, closes⟩ := exec_write_open free entry write (hw := burstWord _ ww)
    (by rw [hww]) fun k hk => captures.taken hk
  obtain ⟨reach, store⟩ := Chip.withWords_intents (ww := ww) watched kinds (Nat.le_refl 4)
  have begun : Reaches [.store, .part, .path] s.chip r.chip := written.reaches reach (by rfl)
  have kept : r.chip.store = (s.chip.withWords (burstWord (burstAddr bank row col) ww) 4).store := by
    rw [written.chip, (Chip.closedAfter_reaches _ auto bank).store (by decide)]
  rw [store] at kept
  have base : s.chip.config.subscriber.base ≤ burstAddr bank row col 0 := by
    obtain ⟨off, kind⟩ := kinds 0 (by omega)
    have placed := s.chip.kindOf_placed (burstAddr bank row col 0)
    rw [kind] at placed
    exact placed.1
  have apart := burstAddr_apart bank row col ⟨0, by omega, base⟩ aligned
  have zero := burstAddr_apart bank row col (base := 0) ⟨0, by omega, Nat.zero_le _⟩ (by omega)
  have intents : ∀ d : Chip, Reaches [.store, .subs] r.chip d → t.array = r.array → t.chip.part = r.chip.part →
      d.store = { r.chip.store with queue := d.store.queue } → t.chip.store = d.store → t.pending = s.pending →
      t.chip = d.settle ∨ t.chip = d → IntentsWritten s (burstAddr bank row col) ww t := by
    intro d more array part only same pending chip
    have whole : Reaches [.store, .part, .path, .subs] s.chip d := begun.then (by rfl) more
    have running : d.running = s.chip.running := by
      have state : r.chip.part.state = s.chip.part.state := by
        rw [written.chip, (Chip.closedAfter_reaches _ auto bank).part (by decide), Chip.withWords_part captures
          (Nat.le_refl 4), Part.markedWith]
      rw [Chip.running, more.part (by decide), state]
      rfl
    have blocks : t.chip.orders = s.chip.orders ∧ Reaches (.store :: .part :: .path :: .subs :: settleBlocks) s.chip
        t.chip := by
      rcases chip with settled | plain
      · rw [settled]
        exact ⟨settle_orders_kept quiet (whole.orders (by decide)) running, whole.then (by rfl) d.settle_reaches⟩
      · rw [plain]
        exact ⟨whole.orders (by decide), whole.wider (by rfl)⟩
    obtain ⟨orders, all⟩ := blocks
    have mirror : t.chip.store.mirror =
        putBurst id (burstAddr bank row col) ww s.chip.config.subscriber.base 4 s.chip.store.mirror := by
      rw [same, only, kept]
    refine ⟨burstCaptured_of_written canonical zero captures written array part, fun wf => ?_, ?_,
      ⟨all.elements (by decide), all.plant (by decide), all.sources (by decide), all.outages (by decide)⟩,
      ⟨all.clock (by decide), all.pass (by decide)⟩, ⟨all.lineUp (by decide), all.sweep (by decide)⟩,
      ⟨orders, all.journal (by decide)⟩, pending⟩
    · rw [mirror]
      exact burstHeld_putBurst apart wf id
    · rw [mirror, same, only, kept]
  have state : r.chip.part.state = s.chip.part.state := by
    rw [written.chip, (Chip.closedAfter_reaches _ auto bank).part (by decide), Chip.withWords_part captures
      (Nat.le_refl 4), Part.markedWith]
  rcases Chip.eventsOf_intents (ww := ww) watched aligned kinds with ⟨none, silent⟩ | ⟨k, i, hk, kind, low, one, unique⟩
  · rw [none] at ends
    have plain : t = r := ends
    subst plain
    exact ⟨auto, t, next, intents t.chip (.same _ _) rfl rfl rfl rfl written.pending (.inr rfl), closes,
      written.bank_entry entry, .inl ⟨by rw [kept], begun.subs (by decide), silent⟩⟩
  · rw [one] at ends
    have handed : t = r.handEvent (.revision i) := ends
    obtain ⟨chip, array⟩ := State.handEvent_revision (r := r) (by rw [state]; exact watched) i
    rw [← handed] at chip array
    have only : (r.chip.queueTake i).store = { r.chip.store with queue := (r.chip.queueTake i).store.queue } := by
      unfold Chip.queueTake
      split <;> rfl
    have reachQ : Reaches [.store, .subs] r.chip (r.chip.queueTake i) := (r.chip.queueTake_reaches i).wider (by rfl)
    refine ⟨auto, t, next, intents (r.chip.queueTake i) reachQ array ?_ only (by rw [chip, Chip.settle_store]) ?_
      (.inl chip), closes, ?_, .inr ⟨k, i, hk, kind, low, ?_, unique⟩⟩
    · rw [chip, Chip.settle_part, reachQ.part (by decide)]
    · rw [handed, State.handEvent_pending, written.pending]
    · rw [chip, Chip.settle_path, reachQ.path (by decide)]
      exact written.bank_entry entry
    · exact requestMade (by rw [kept]) (begun.subs (by decide)) (by rw [chip, Chip.settle_store])
        (by rw [chip, Chip.settle_subs]) rfl

end

end Sys2Proof.Machine

namespace Sys2Proof.Machine

/-! ### A WRITE of one unmasked word (R168, R169) -/

section
variable {s t : State} {bank : BitVec 2} {row : BitVec 13} {col : BitVec 9} {w0 w1 w2 w3 : WriteWord} {c : Instr}
  {a : Nat → Nat} {ww : Nat → WriteWord} {k : Nat}

/-- The end of a WRITE burst of which word k alone is not masked, and is captured. -/
structure WordCaptured (s : State) (a : Nat → Nat) (ww : Nat → WriteWord) (k : Nat) (t : State) : Prop where
  captured : BurstCaptured s a ww t
  word : Reaches [.part, .path] (s.chip.mirrorWord (s.chip.kindOf (a k)) (burstWord a ww k)) t.chip

theorem exec_write_alone (free : BusFree s) (canonical : ArrayCanonical s)
    (entry : vget s.chip.path.banks bank.toNat = some row)
    (write : c = .write bank col w0 w1 w2 w3 4 ∨ c = .writeAutoPrecharge bank col w0 w1 w2 w3 4)
    (ha : a = burstAddr bank row col) (hww : ww = fun k => [w0, w1, w2, w3].getD k w0) (hk : k < 4)
    (masked : ∀ j, j < 4 → j ≠ k → (ww j).mask = 15) (open' : (ww k).mask ≠ 15)
    (rule : writeRule (s.chip.kindOf (a k)) s.chip.part.state = .capture) :
    ∃ r t, exec c s = .next t ∧ WordCaptured s a ww k r
      ∧ t = r.handEvents (takeEventOf (s.chip.kindOf (a k)) (burstWord a ww k)).toList := by
  have writes : (burstWord a ww k).writes = true := HostWord.writes_of_mask open'
  have silent : ∀ j, j < 4 → j ≠ k → (burstWord a ww j).writes = false := fun j hj ne =>
    HostWord.writes_masked (masked j hj ne)
  have captures : s.chip.Captures (burstWord a ww) := by
    intro j hj written
    by_cases same : j = k
    · subst same; exact rule
    · rw [silent j hj same] at written
      exact absurd written Bool.false_ne_true
  have one : s.chip.withWords (burstWord a ww) 4 =
      (s.chip.mirrorWord (s.chip.kindOf (a k)) (burstWord a ww k)).markWord (burstWord a ww k) :=
    (forIndices_only hk (fun j hj ne d => Chip.withWord_silent (silent j hj ne) d) s.chip).trans
      (Chip.withWord_captured writes rule)
  have event : s.chip.eventsOf (burstWord a ww) 4 = (takeEventOf (s.chip.kindOf (a k)) (burstWord a ww k)).toList := by
    rw [Chip.eventsOf_one hk fun j hj ne => Chip.eventOf_silent (silent j hj ne) _, Chip.eventOf_captured writes rule]
    rfl
  subst ha
  obtain ⟨auto, r, t, next, written, ends, -⟩ := exec_write_open free entry write (hw := burstWord _ ww)
    (by rw [hww]) fun k hk => captures.taken hk
  have zero := burstAddr_apart bank row col (base := 0) ⟨0, by omega, Nat.zero_le _⟩ (by omega)
  rw [event] at ends
  have word : Reaches [.part, .path]
      (s.chip.mirrorWord (s.chip.kindOf (burstAddr bank row col k)) (burstWord (burstAddr bank row col) ww k)) r.chip := by
    rw [written.chip, one]
    exact (Chip.markWord_reaches _ _).then (by rfl) (Chip.closedAfter_reaches _ auto bank)
  exact ⟨r, t, next, ⟨burstCaptured_of_written canonical zero captures written rfl rfl, word⟩, ends⟩

/-- The mirror of a region after such a burst. -/
theorem burstHeld_alone {m : Memory} {base : Nat} (ap : Apart a base) (wf : Memory.wf m = true) (hk : k < 4)
    (masked : ∀ j, j < 4 → j ≠ k → (ww j).mask = 15) :
    BurstHeld a ww m (Memory.writeHost m base (burstWord a ww k)) base id := by
  rw [writeHost_eq_putHost, ← putBurst_alone hk masked id]
  exact burstHeld_putBurst ap wf id

/-- A word of the line-up region but its take word. -/
theorem WordCaptured.lineUp {off : Nat} (h : WordCaptured s a ww k t) (kind : s.chip.kindOf (a k) = .lineUp off)
    (ap : Apart a s.chip.config.lineUp.base) (hk : k < 4) (masked : ∀ j, j < 4 → j ≠ k → (ww j).mask = 15) :
    t.chip.lineUp = { s.chip.lineUp with mirror := t.chip.lineUp.mirror }
      ∧ (Memory.wf s.chip.lineUp.mirror = true →
          BurstHeld a ww s.chip.lineUp.mirror t.chip.lineUp.mirror s.chip.config.lineUp.base id)
      ∧ t.chip.sweep = s.chip.sweep ∧ SameSupervision s t ∧ SameSubscribers s t ∧ SameTime s t := by
  obtain ⟨-, word⟩ := h
  rw [kind] at word
  have lineUp : t.chip.lineUp = { s.chip.lineUp with
      mirror := Memory.writeHost s.chip.lineUp.mirror s.chip.config.lineUp.base (burstWord a ww k) } :=
    word.lineUp (by decide)
  have reach : Reaches [.lineUp, .part, .path] s.chip t.chip := (s.chip.setLineUp_reaches _).then (by rfl) word
  exact ⟨by rw [lineUp], fun wf => by rw [lineUp]; exact burstHeld_alone ap wf hk masked, reach.sweep (by decide),
    ⟨reach.elements (by decide), reach.plant (by decide), reach.sources (by decide), reach.outages (by decide)⟩,
    ⟨reach.subs (by decide), reach.store (by decide)⟩, ⟨reach.clock (by decide), reach.pass (by decide)⟩⟩

/-- A word of the plant region but its take word. -/
theorem WordCaptured.plant {off : Nat} (h : WordCaptured s a ww k t) (kind : s.chip.kindOf (a k) = .plant off)
    (ap : Apart a s.chip.config.plant.base) (hk : k < 4) (masked : ∀ j, j < 4 → j ≠ k → (ww j).mask = 15) :
    t.chip.plant = { s.chip.plant with mirror := t.chip.plant.mirror }
      ∧ (Memory.wf s.chip.plant.mirror = true →
          BurstHeld a ww s.chip.plant.mirror t.chip.plant.mirror s.chip.config.plant.base id)
      ∧ t.chip.elements = s.chip.elements ∧ SameSubscribers s t ∧ SameTime s t ∧ SameLineUp s t := by
  obtain ⟨-, word⟩ := h
  rw [kind] at word
  have plant : t.chip.plant = { s.chip.plant with
      mirror := Memory.writeHost s.chip.plant.mirror s.chip.config.plant.base (burstWord a ww k) } :=
    word.plant (by decide)
  have reach : Reaches [.plant, .part, .path] s.chip t.chip := (s.chip.setPlant_reaches _).then (by rfl) word
  exact ⟨by rw [plant], fun wf => by rw [plant]; exact burstHeld_alone ap wf hk masked, reach.elements (by decide),
    ⟨reach.subs (by decide), reach.store (by decide)⟩, ⟨reach.clock (by decide), reach.pass (by decide)⟩,
    ⟨reach.lineUp (by decide), reach.sweep (by decide)⟩⟩

/-- What a captured word of the orders leaves of the other blocks. -/
structure OrdersWritten (s t : State) : Prop where
  supervision : SameSupervision s t
  subscribers : SameSubscribers s t
  time : SameTime s t
  lineUp : SameLineUp s t

theorem ordersWritten_of_reaches (h : Reaches (.orders :: .part :: .path :: settleBlocks) s.chip t.chip) :
    OrdersWritten s t :=
  ⟨⟨h.elements (by decide), h.plant (by decide), h.sources (by decide), h.outages (by decide)⟩,
    ⟨h.subs (by decide), h.store (by decide)⟩, ⟨h.clock (by decide), h.pass (by decide)⟩,
    ⟨h.lineUp (by decide), h.sweep (by decide)⟩⟩

/-- The order tail word of FILL: the tail written is the tail in force (R149). -/
theorem WordCaptured.orderTail (h : WordCaptured s a ww k t) (kind : s.chip.kindOf (a k) = .orderTail) :
    t.chip.orders = { s.chip.orders with tail := candidate (burstWord a ww k) s.chip.orders.tail }
      ∧ OrdersWritten s t := by
  obtain ⟨-, word⟩ := h
  rw [kind] at word
  exact ⟨word.orders (by decide), ordersWritten_of_reaches ((s.chip.setOrders_reaches _).then (by rfl) word)⟩

/-- A word of the order ring. -/
theorem WordCaptured.slot {off : Nat} (h : WordCaptured s a ww k t) (kind : s.chip.kindOf (a k) = .slot off) :
    t.chip.orders = { s.chip.orders with
      mirror := Memory.writeHost s.chip.orders.mirror s.chip.config.orderRing.base (burstWord a ww k) }
      ∧ Reaches [.orders, .part, .path] s.chip t.chip := by
  obtain ⟨-, word⟩ := h
  rw [kind] at word
  exact ⟨word.orders (by decide), (s.chip.setOrders_reaches _).then (by rfl) word⟩

/-- A kind word: the outcome of its slot becomes PENDING, and what follows. -/
theorem State.handEvent_kindWord (r : State) (j : Nat) :
    (r.handEvent (.kindWord j)).chip = (r.chip.kindEvent j).settle ∧ (r.handEvent (.kindWord j)).array = r.array := by
  have handed : r.handEvent (.kindWord j) = (r.onChip fun c => c.kindEvent j).onChip Chip.settle := rfl
  rw [handed, State.onChip_chip, State.onChip_chip, State.onChip_array, State.onChip_array]
  exact ⟨rfl, rfl⟩

/-- The event of a word of the order ring. -/
theorem takeEventOf_slot (off : Nat) (w : HostWord) :
    takeEventOf (.slot off) w = if w.touchesLow = true ∧ off % 32 = 0 then some (.kindWord (off / 32)) else none := by
  unfold takeEventOf
  cases low : w.touchesLow <;> simp

/-- A burst captured in a state is captured in one with the same array and part state. -/
theorem BurstCaptured.alike {u : State} (h : BurstCaptured s a ww t) (array : u.array = t.array)
    (part : u.chip.part = t.chip.part) : BurstCaptured s a ww u :=
  ⟨by rw [array]; exact h.array, by rw [part]; exact h.part, by rw [part]; exact h.running,
    by rw [part]; exact h.fill⟩

/-- What a WRITE of one word of the order ring leaves. -/
structure SlotWritten (s : State) (a : Nat → Nat) (ww : Nat → WriteWord) (k off : Nat) (t : State) : Prop where
  captured : BurstCaptured s a ww t
  mirror : Memory.wf s.chip.orders.mirror = true →
    BurstHeld a ww s.chip.orders.mirror t.chip.orders.mirror s.chip.config.orderRing.base id
  pending : off % 32 = 0 → (burstWord a ww k).touchesLow = true → off / 32 < 256 →
    vget t.chip.orders.outcomes (off / 32) = { vget s.chip.orders.outcomes (off / 32) with code := .pending }
      ∧ ∀ j, j ≠ off / 32 → vget t.chip.orders.outcomes j = vget s.chip.orders.outcomes j
  kept : off % 32 ≠ 0 ∨ (burstWord a ww k).touchesLow = false → t.chip.orders.outcomes = s.chip.orders.outcomes
  head : t.chip.orders.head = s.chip.orders.head
  tail : t.chip.orders.tail = s.chip.orders.tail
  rest : OrdersWritten s t

theorem slotWritten_of_captured {r : State} {off : Nat} (h : WordCaptured s a ww k r)
    (kind : s.chip.kindOf (a k) = .slot off) (ap : Apart a s.chip.config.orderRing.base) (hk : k < 4)
    (masked : ∀ j, j < 4 → j ≠ k → (ww j).mask = 15)
    (ends : t = r.handEvents (takeEventOf (.slot off) (burstWord a ww k)).toList) : SlotWritten s a ww k off t := by
  obtain ⟨orders, reach⟩ := h.slot kind
  rw [takeEventOf_slot] at ends
  by_cases event : (burstWord a ww k).touchesLow = true ∧ off % 32 = 0
  · rw [if_pos event] at ends
    have handed : t = r.handEvent (.kindWord (off / 32)) := ends
    obtain ⟨chip, array⟩ := r.handEvent_kindWord (off / 32)
    rw [← handed] at chip array
    have made : (r.chip.kindEvent (off / 32)).orders =
        { r.chip.orders with
          outcomes := vupd r.chip.orders.outcomes (off / 32) fun x => { x with code := .pending } } := rfl
    have part : t.chip.part = r.chip.part := by rw [chip, Chip.settle_part]; rfl
    refine ⟨h.captured.alike array part, fun wf => ?_, fun _ _ hj => ⟨?_, fun j ne => ?_⟩, fun other => ?_, ?_, ?_,
      ordersWritten_of_reaches ?_⟩
    · rw [chip, Chip.settle_orders_mirror, made, orders]
      exact burstHeld_alone ap wf hk masked
    · rw [chip, Chip.settle_orders_outcomes, made, orders]
      exact vget_vupd_same _ _ _ hj
    · rw [chip, Chip.settle_orders_outcomes, made, orders]
      exact vget_vupd_other _ _ _ _ ne
    · rcases other with ne | low
      · exact absurd event.2 ne
      · rw [low] at event
        exact absurd event.1 Bool.false_ne_true
    · rw [chip, Chip.settle_orders_head, made, orders]
    · rw [chip, Chip.settle_orders_tail, made, orders]
    · rw [chip]
      exact (reach.then (by rfl) (Chip.kindEvent_reaches _ _) (bs := [.orders, .part, .path])).then (by rfl)
        (Chip.settle_reaches _)
  · rw [if_neg event] at ends
    have plain : t = r := ends
    subst plain
    refine ⟨h.captured, fun wf => ?_, fun start low _ => absurd ⟨low, start⟩ event, fun _ => by rw [orders],
      by rw [orders], by rw [orders], ordersWritten_of_reaches (reach.wider (by rfl))⟩
    rw [orders]
    exact burstHeld_alone ap wf hk masked

end

end Sys2Proof.Machine

namespace Sys2Proof.Machine

/-! ### The ring indices at the end of a burst (R149, R156, R170) -/

/-- The blocks that a candidate and what follows it reach. -/
abbrev indexBlocks : List Block := .path :: .journal :: settleBlocks

/-- What the end of a burst makes of a candidate: accepted, it is in force and reaches the array; refused, it is held
back and counted. -/
structure IndexHanded (s t : State) (w : HostWord) (accepted : Prop) (tail head : Half) : Prop where
  reaches : Reaches indexBlocks s.chip t.chip
  tail : t.chip.orders.tail = tail
  head : t.chip.journal.head = head
  orderHead : t.chip.orders.head = s.chip.orders.head
  journalTail : t.chip.journal.tail = s.chip.journal.tail
  accepts : accepted → t.array = Memory.writeHost s.array 0 w ∧ t.chip.path.guarded = s.chip.path.guarded
  refuses : ¬ accepted → t.array = s.array ∧ t.chip.path.guarded = s.chip.path.guarded + 1
    ∧ t.chip.path.lastGuarded = w.addr

theorem Chip.guard_path (c : Chip) (k : WordKind) (a : Nat) :
    (c.guard k a).path = { c.path with guarded := c.path.guarded + 1, lastGuarded := a, mark := c.now } := by
  unfold Chip.guard
  dsimp only
  split
  · rfl
  · exact (Chip.noticeOf_reaches _ _ _).path (by decide)

theorem Chip.guard_ring (c : Chip) (k : WordKind) (a : Nat) :
    (c.guard k a).journal.head = c.journal.head ∧ (c.guard k a).journal.tail = c.journal.tail := by
  unfold Chip.guard
  dsimp only
  split
  · exact ⟨rfl, rfl⟩
  · unfold Chip.noticeOf
    rw [Chip.notice_queue]
    split <;> exact ⟨rfl, rfl⟩

section
variable (s : State) (w : HostWord)

/-- A candidate that is accepted, and what follows. -/
theorem State.passWord_handed {f : Chip → Chip} (reach : Reaches [.orders, .journal] s.chip (f s.chip))
    (head : (f s.chip).orders.head = s.chip.orders.head) (tail : (f s.chip).journal.tail = s.chip.journal.tail)
    {p : Prop} (h : p) :
    IndexHanded s (((s.passWord w).onChip f).onChip Chip.settle) w p (f s.chip).orders.tail (f s.chip).journal.head := by
  have chip : (((s.passWord w).onChip f).onChip Chip.settle).chip = (f s.chip).settle := by
    rw [State.onChip_chip, State.onChip_chip, State.passWord_chip]
  refine ⟨?_, ?_, ?_, ?_, ?_, fun _ => ⟨?_, ?_⟩, fun no => absurd h no⟩
  · rw [chip]
    exact reach.then (by rfl) (Chip.settle_reaches _)
  · rw [chip, Chip.settle_orders_tail]
  · rw [chip, Chip.settle_journal]
  · rw [chip, Chip.settle_orders_head, head]
  · rw [chip, Chip.settle_journal, tail]
  · rw [State.onChip_array, State.onChip_array, State.passWord_array]
  · rw [chip, Chip.settle_path, reach.path (by decide)]

/-- A candidate that is held back, and what follows. -/
theorem State.protectWord_handed (k : WordKind) {p : Prop} (h : ¬ p) :
    IndexHanded s ((s.protectWord k w).onChip Chip.settle) w p s.chip.orders.tail s.chip.journal.head := by
  have chip : ((s.protectWord k w).onChip Chip.settle).chip = (s.chip.guard k w.addr).settle.settle := by
    rw [State.onChip_chip, State.protectWord]
  have orders : (s.chip.guard k w.addr).orders = s.chip.orders := (s.chip.guard_reaches k w.addr).orders (by decide)
  obtain ⟨head, tail⟩ := s.chip.guard_ring k w.addr
  have path := s.chip.guard_path k w.addr
  refine ⟨?_, ?_, ?_, ?_, ?_, fun yes => absurd yes h, fun _ => ⟨?_, ?_, ?_⟩⟩
  · rw [chip]
    exact ((s.chip.guard_reaches k w.addr).then (by rfl) (Chip.settle_reaches _) (bs := indexBlocks)).then (by rfl)
      (Chip.settle_reaches _)
  · rw [chip, Chip.settle_orders_tail, Chip.settle_orders_tail, orders]
  · rw [chip, Chip.settle_journal, Chip.settle_journal, head]
  · rw [chip, Chip.settle_orders_head, Chip.settle_orders_head, orders]
  · rw [chip, Chip.settle_journal, Chip.settle_journal, tail]
  · rw [State.onChip_array, State.protectWord_array]
  · rw [chip, Chip.settle_path, Chip.settle_path, path]
  · rw [chip, Chip.settle_path, Chip.settle_path, path]

/-- An order tail candidate at the end of its burst (R149). -/
theorem State.handEvent_orderTail :
    let x := candidate w s.chip.orders.tail
    let accepted := (x - s.chip.orders.head).toNat ≤ s.chip.config.orderCapacity
    IndexHanded s (s.handEvent (.orderTail w)) w accepted (if accepted then x else s.chip.orders.tail)
      s.chip.journal.head := by
  intro x accepted
  have handed : s.handEvent (.orderTail w) = (s.tailEvent w).onChip Chip.settle := rfl
  rw [handed, State.tailEvent]
  by_cases h : accepted
  · rw [if_pos h, if_pos h]
    exact s.passWord_handed w (f := fun c => c.setOrders { c.orders with tail := x })
      ((s.chip.setOrders_reaches _).wider (by rfl)) rfl rfl h
  · rw [if_neg h, if_neg h]
    exact s.protectWord_handed w .orderTail h

/-- A journal head candidate at the end of its burst (R156). -/
theorem State.handEvent_journalHead :
    let x := candidate w s.chip.journal.head
    let accepted := (x - s.chip.journal.head).toNat ≤ (s.chip.journal.tail - s.chip.journal.head).toNat
    IndexHanded s (s.handEvent (.journalHead w)) w accepted s.chip.orders.tail
      (if accepted then x else s.chip.journal.head) := by
  intro x accepted
  have handed : s.handEvent (.journalHead w) = (s.headEvent w).onChip Chip.settle := rfl
  rw [handed, State.headEvent, Chip.ringUsed]
  by_cases h : accepted
  · rw [if_pos h, if_pos h]
    exact s.passWord_handed w (f := fun c => c.setJournal { c.journal with head := x })
      ((s.chip.setJournal_reaches _).wider (by rfl)) rfl rfl h
  · rw [if_neg h, if_neg h]
    exact s.protectWord_handed w .journalHead h

end

/-- Two candidates handed on one after the other. -/
structure IndicesHanded (s t : State) (w w' : HostWord) (p p' : Prop) : Prop where
  reaches : Reaches indexBlocks s.chip t.chip
  orderHead : t.chip.orders.head = s.chip.orders.head
  journalTail : t.chip.journal.tail = s.chip.journal.tail
  accepts : p → p' → t.array = Memory.writeHost (Memory.writeHost s.array 0 w) 0 w'
    ∧ t.chip.path.guarded = s.chip.path.guarded
  refuses : ¬ p → ¬ p' → t.array = s.array ∧ t.chip.path.guarded = s.chip.path.guarded + 2
    ∧ t.chip.path.lastGuarded = w'.addr

theorem IndexHanded.both {s u t : State} {w w' : HostWord} {p p' : Prop} {x y x' y' : Half}
    (h : IndexHanded s u w p x y) (h' : IndexHanded u t w' p' x' y') : IndicesHanded s t w w' p p' where
  reaches := h.reaches.then (by rfl) h'.reaches
  orderHead := h'.orderHead.trans h.orderHead
  journalTail := h'.journalTail.trans h.journalTail
  accepts one two := by
    obtain ⟨array, guarded⟩ := h.accepts one
    obtain ⟨array', guarded'⟩ := h'.accepts two
    exact ⟨by rw [array', array], guarded'.trans guarded⟩
  refuses one two := by
    obtain ⟨array, guarded, -⟩ := h.refuses one
    obtain ⟨array', guarded', last⟩ := h'.refuses two
    refine ⟨array'.trans array, ?_, last⟩
    rw [guarded', guarded, BitVec.add_assoc]
    rfl

/-! ### A burst that writes tail and head -/

section
variable {s t : State} {bank : BitVec 2} {row : BitVec 13} {col : BitVec 9} {w0 w1 w2 w3 : WriteWord} {c : Instr}
  {a : Nat → Nat} {ww : Nat → WriteWord} {lo hi : Nat}

/-- A loop of which two indices alone do something. -/
theorem forIndices_two {α : Type} {f : α → Nat → α} (order : lo < hi) (high : hi < 4)
    (other : ∀ k, k < 4 → k ≠ lo → k ≠ hi → ∀ y, f y k = y) (x : α) : forIndices 4 f x = f (f x lo) hi := by
  have upTo : ∀ n, n ≤ 4 → forIndices n f x =
      if hi < n then f (f x lo) hi else if lo < n then f x lo else x := by
    intro n hn
    induction n with
    | zero => rw [forIndices_zero, if_neg (by omega), if_neg (by omega)]
    | succ n ih =>
      rw [forIndices_succ, ih (by omega)]
      by_cases atLow : n = lo
      · subst atLow
        rw [if_neg (by omega), if_neg (by omega), if_neg (by omega), if_pos (by omega)]
      · by_cases atHigh : n = hi
        · subst atHigh
          rw [if_neg (by omega), if_pos (by omega), if_pos (by omega)]
        · rw [other n (by omega) atLow atHigh]
          have high' : hi < n + 1 ↔ hi < n := by omega
          have low' : lo < n + 1 ↔ lo < n := by omega
          simp only [high', low']
  rw [upTo 4 (Nat.le_refl 4), if_pos high]

/-- A WRITE of which two words alone are not masked, both candidates. -/
theorem exec_write_candidates (free : BusFree s) (entry : vget s.chip.path.banks bank.toNat = some row)
    (write : c = .write bank col w0 w1 w2 w3 4 ∨ c = .writeAutoPrecharge bank col w0 w1 w2 w3 4)
    (ha : a = burstAddr bank row col) (hww : ww = fun k => [w0, w1, w2, w3].getD k w0) (order : lo < hi) (high : hi < 4)
    (masked : ∀ k, k < 4 → k ≠ lo → k ≠ hi → (ww k).mask = 15)
    (low : (burstWord a ww lo).touchesLow = true) (low' : (burstWord a ww hi).touchesLow = true)
    (rule : writeRule (s.chip.kindOf (a lo)) s.chip.part.state = .candidate)
    (rule' : writeRule (s.chip.kindOf (a hi)) s.chip.part.state = .candidate) :
    ∃ r t : State, exec c s = .next t ∧ Reaches [.path] s.chip r.chip ∧ r.chip.path.guarded = s.chip.path.guarded
      ∧ r.array = s.array ∧ r.pending = s.pending
      ∧ t = r.handEvents ((candidateEvent (s.chip.kindOf (a lo)) (burstWord a ww lo)).toList
          ++ (candidateEvent (s.chip.kindOf (a hi)) (burstWord a ww hi)).toList) := by
  have silent : ∀ k, k < 4 → k ≠ lo → k ≠ hi → (burstWord a ww k).writes = false := fun k hk n n' =>
    HostWord.writes_masked (masked k hk n n')
  have candidates : ∀ k, k = lo ∨ k = hi → (burstWord a ww k).writes = true ∧ s.chip.ruleOf (burstWord a ww k) = .candidate
      ∧ (burstWord a ww k).touchesLow = true := by
    rintro k (rfl | rfl)
    · exact ⟨HostWord.writes_of_low low, rule, low⟩
    · exact ⟨HostWord.writes_of_low low', rule', low'⟩
  have taken : ∀ k, k < 4 → s.chip.Taken (burstWord a ww k) := fun k hk => by
    by_cases one : k = lo ∨ k = hi
    · exact .inr (.inr (candidates k one))
    · exact .inl (silent k hk (fun e => one (.inl e)) fun e => one (.inr e))
  have still : s.chip.withWords (burstWord a ww) 4 = s.chip :=
    forIndices_keeps (P := (· = s.chip)) 4 rfl fun d k hk same => by
      subst same
      refine if_neg fun both => ?_
      rw [Bool.and_eq_true] at both
      by_cases one : k = lo ∨ k = hi
      · rw [(candidates k one).2.1] at both
        exact absurd both.2 (by decide)
      · rw [silent k hk (fun e => one (.inl e)) fun e => one (.inr e)] at both
        exact absurd both.1 Bool.false_ne_true
  have unchanged : s.chip.arrayAfter (burstWord a ww) 4 s.array = s.array :=
    forIndices_keeps (P := (· = s.array)) 4 rfl fun m k hk same => by
      subst same
      rw [Chip.arrayWith]
      by_cases one : k = lo ∨ k = hi
      · obtain ⟨writes, candidate, -⟩ := candidates k one
        exact if_pos (by rw [writes, candidate]; decide)
      · rw [writeHost_eq_putHost, putHost_silent (silent k hk (fun e => one (.inl e)) fun e => one (.inr e)), ite_self]
  have event : ∀ k, k = lo ∨ k = hi → s.chip.eventOf (burstWord a ww k) =
      candidateEvent (s.chip.kindOf (a k)) (burstWord a ww k) := fun k one => by
    obtain ⟨writes, candidate, -⟩ := candidates k one
    rw [Chip.eventOf, if_pos writes, candidate, if_neg (by decide)]
    rfl
  have events : s.chip.eventsOf (burstWord a ww) 4 =
      (s.chip.eventOf (burstWord a ww lo)).toList ++ (s.chip.eventOf (burstWord a ww hi)).toList :=
    forIndices_two (f := fun l k => l ++ (s.chip.eventOf (burstWord a ww k)).toList) order high
      (fun k hk n n' y => by rw [Chip.eventOf_silent (silent k hk n n')]; exact List.append_nil y) []
  subst ha
  obtain ⟨auto, r, t, next, written, ends, -⟩ := exec_write_open free entry write (hw := burstWord _ ww) (by rw [hww]) taken
  have chip : r.chip = s.chip.closedAfter auto bank := by rw [written.chip, still]
  refine ⟨r, t, next, by rw [chip]; exact s.chip.closedAfter_reaches auto bank, ?_, by rw [written.array, unchanged],
    written.pending, ?_⟩
  · rw [chip, Chip.closedAfter]
    split <;> rfl
  · rw [ends, events, event lo (.inl rfl), event hi (.inr rfl)]

/-- A burst of which two words alone are not masked, put into a memory. -/
theorem burstHeld_two {m : Memory} (ap : Apart a 0) (wf : Memory.wf m = true) (order : lo < hi) (high : hi < 4)
    (masked : ∀ k, k < 4 → k ≠ lo → k ≠ hi → (ww k).mask = 15) :
    BurstHeld a ww m (Memory.writeHost (Memory.writeHost m 0 (burstWord a ww lo)) 0 (burstWord a ww hi)) 0 id := by
  have two : putBurst id a ww 0 4 m = putHost id (putHost id m 0 (burstWord a ww lo)) 0 (burstWord a ww hi) :=
    forIndices_two order high (fun k hk n n' y => putHost_masked (w := burstWord a ww k) (masked k hk n n') id y 0) m
  rw [writeHost_eq_putHost, writeHost_eq_putHost, ← two]
  exact burstHeld_putBurst ap wf id

end

end Sys2Proof.Machine

namespace Sys2Proof.Machine

/-! ### A WRITE of the order tail and the journal head in RUNNING (R149, R156, R170) -/

/-- The order tail candidate is in its range. -/
abbrev Chip.TailIn (c : Chip) (w : HostWord) : Prop :=
  (candidate w c.orders.tail - c.orders.head).toNat ≤ c.config.orderCapacity

/-- The journal head candidate is in its range. -/
abbrev Chip.HeadIn (c : Chip) (w : HostWord) : Prop :=
  (candidate w c.journal.head - c.journal.head).toNat ≤ (c.journal.tail - c.journal.head).toNat

/-- What a WRITE of two candidates leaves, the lower word's accepted where p and the higher's where p'. -/
structure IndicesTaken (s : State) (a : Nat → Nat) (ww : Nat → WriteWord) (lo hi : Nat) (p p' : Prop) (t : State) :
    Prop where
  reaches : Reaches indexBlocks s.chip t.chip
  orderHead : t.chip.orders.head = s.chip.orders.head
  journalTail : t.chip.journal.tail = s.chip.journal.tail
  accepts : p → p' → BurstHeld a ww s.array t.array 0 id ∧ t.chip.path.guarded = s.chip.path.guarded
  refuses : ¬ p → ¬ p' → t.array = s.array ∧ t.chip.path.guarded = s.chip.path.guarded + 2
    ∧ t.chip.path.lastGuarded = a hi
  pending : t.pending = s.pending

section
variable {s r t : State} {bank : BitVec 2} {row : BitVec 13} {col : BitVec 9} {w0 w1 w2 w3 : WriteWord} {c : Instr}
  {a : Nat → Nat} {ww : Nat → WriteWord} {lo hi : Nat} {p p' : Prop}

theorem IndicesHanded.taken (h : IndicesHanded r t (burstWord a ww lo) (burstWord a ww hi) p p')
    (path : Reaches [.path] s.chip r.chip) (guarded : r.chip.path.guarded = s.chip.path.guarded)
    (array : r.array = s.array) (pending : t.pending = s.pending) (canonical : ArrayCanonical s) (ap : Apart a 0)
    (order : lo < hi) (high : hi < 4) (masked : ∀ k, k < 4 → k ≠ lo → k ≠ hi → (ww k).mask = 15) :
    IndicesTaken s a ww lo hi p p' t where
  reaches := path.then (by rfl) h.reaches
  orderHead := by rw [h.orderHead, path.orders (by decide)]
  journalTail := by rw [h.journalTail, path.journal (by decide)]
  accepts one two := by
    obtain ⟨held, same⟩ := h.accepts one two
    rw [held, array, same]
    exact ⟨burstHeld_two ap canonical order high masked, guarded⟩
  refuses one two := by
    obtain ⟨held, counted, last⟩ := h.refuses one two
    exact ⟨held.trans array, by rw [counted, guarded], last⟩
  pending := pending

/-- The blocks that two candidates leave as they were. -/
theorem IndicesTaken.kept (h : IndicesTaken s a ww lo hi p p' t) :
    t.chip.orders.head = s.chip.orders.head ∧ t.chip.journal.tail = s.chip.journal.tail ∧ SameSupervision s t
      ∧ SameSubscribers s t ∧ SameTime s t ∧ SameLineUp s t ∧ t.pending = s.pending :=
  have reach := h.reaches
  ⟨h.orderHead, h.journalTail,
    ⟨reach.elements (by decide), reach.plant (by decide), reach.sources (by decide), reach.outages (by decide)⟩,
    ⟨reach.subs (by decide), reach.store (by decide)⟩, ⟨reach.clock (by decide), reach.pass (by decide)⟩,
    ⟨reach.lineUp (by decide), reach.sweep (by decide)⟩, h.pending⟩

/-- The two values in force after the words w and w' of a burst. -/
structure IndicesInForce (s t : State) (w w' : HostWord) : Prop where
  tail : t.chip.orders.tail = if s.chip.TailIn w then candidate w s.chip.orders.tail else s.chip.orders.tail
  head : t.chip.journal.head = if s.chip.HeadIn w' then candidate w' s.chip.journal.head else s.chip.journal.head

theorem State.handEvents_two (r : State) (e e' : TakeEvent) :
    r.handEvents [e, e'] = (r.handEvent e).handEvent e' := by
  rw [State.handEvents, List.foldl_cons, List.foldl_cons, List.foldl_nil]

/-- The tail's word and the head's word handed on, the tail's first. -/
theorem handed_tail_head (path : Reaches [.path] s.chip r.chip) {w w' : HostWord} {u : State}
    (first : u = r.handEvent (.orderTail w)) (last : t = u.handEvent (.journalHead w')) :
    IndicesHanded r t w w' (s.chip.TailIn w) (s.chip.HeadIn w') ∧ IndicesInForce s t w w' := by
  have config : r.chip.config = s.chip.config := (SameMap.of_part (path.part (by decide))).config
  have one := r.handEvent_orderTail w
  have two := u.handEvent_journalHead w'
  rw [← first] at one
  rw [← last] at two
  simp only [config, path.orders (by decide), path.journal (by decide)] at one
  simp only [one.head, one.journalTail, path.journal (by decide)] at two
  exact ⟨one.both two, two.tail.trans one.tail, two.head⟩

/-- The same two words, the head's first. -/
theorem handed_head_tail (path : Reaches [.path] s.chip r.chip) {w w' : HostWord} {u : State}
    (first : u = r.handEvent (.journalHead w')) (last : t = u.handEvent (.orderTail w)) :
    IndicesHanded r t w' w (s.chip.HeadIn w') (s.chip.TailIn w) ∧ IndicesInForce s t w w' := by
  have one := r.handEvent_journalHead w'
  have two := u.handEvent_orderTail w
  rw [← first] at one
  rw [← last] at two
  have config : u.chip.config = s.chip.config :=
    (SameMap.of_part ((one.reaches.part (by decide)).trans (path.part (by decide)))).config
  simp only [path.orders (by decide), path.journal (by decide)] at one
  simp only [config, one.tail, one.orderHead, path.orders (by decide)] at two
  exact ⟨one.both two, two.tail, two.head.trans one.head⟩

/-- A WRITE whose word i is the order tail and whose word j is the journal head, the other two masked. -/
theorem exec_write_indices (free : BusFree s) (canonical : ArrayCanonical s)
    (entry : vget s.chip.path.banks bank.toNat = some row)
    (write : c = .write bank col w0 w1 w2 w3 4 ∨ c = .writeAutoPrecharge bank col w0 w1 w2 w3 4)
    (ha : a = burstAddr bank row col) (hww : ww = fun k => [w0, w1, w2, w3].getD k w0)
    (running : s.chip.part.state = .running) {i j : Nat} (hi : i < 4) (hj : j < 4) (ne : i ≠ j)
    (tail : s.chip.kindOf (a i) = .orderTail) (head : s.chip.kindOf (a j) = .journalHead)
    (lowTail : (burstWord a ww i).touchesLow = true) (lowHead : (burstWord a ww j).touchesLow = true)
    (masked : ∀ k, k < 4 → k ≠ i → k ≠ j → (ww k).mask = 15) :
    let w := burstWord a ww i
    let w' := burstWord a ww j
    ∃ t, exec c s = .next t
      ∧ (IndicesTaken s a ww i j (s.chip.TailIn w) (s.chip.HeadIn w') t ∧ max i j = j
        ∨ IndicesTaken s a ww j i (s.chip.HeadIn w') (s.chip.TailIn w) t ∧ max i j = i)
      ∧ IndicesInForce s t w w' := by
  intro w w'
  have ap : Apart a 0 := by
    rw [ha]
    exact burstAddr_apart bank row col ⟨0, by omega, Nat.zero_le _⟩ (by omega)
  have tailRule : writeRule (s.chip.kindOf (a i)) s.chip.part.state = .candidate := by rw [tail, running]; rfl
  have headRule : writeRule (s.chip.kindOf (a j)) s.chip.part.state = .candidate := by rw [head, running]; rfl
  rcases Nat.lt_or_gt_of_ne ne with order | order
  · obtain ⟨r, t, next, path, guarded, array, pending, ends⟩ := exec_write_candidates free entry write ha hww order hj
      masked lowTail lowHead tailRule headRule
    rw [tail, head] at ends
    have pending' : t.pending = s.pending := by rw [ends, State.handEvents_pending, pending]
    obtain ⟨handed, inForce⟩ := handed_tail_head path rfl (ends.trans (r.handEvents_two _ _))
    exact ⟨t, next, .inl ⟨handed.taken path guarded array pending' canonical ap order hj masked, by omega⟩, inForce⟩
  · have masked' : ∀ k, k < 4 → k ≠ j → k ≠ i → (ww k).mask = 15 := fun k hk n n' => masked k hk n' n
    obtain ⟨r, t, next, path, guarded, array, pending, ends⟩ := exec_write_candidates free entry write ha hww order hi
      masked' lowHead lowTail headRule tailRule
    rw [tail, head] at ends
    have pending' : t.pending = s.pending := by rw [ends, State.handEvents_pending, pending]
    obtain ⟨handed, inForce⟩ := handed_head_tail path rfl (ends.trans (r.handEvents_two _ _))
    exact ⟨t, next, .inr ⟨handed.taken path guarded array pending' canonical ap order hi masked', by omega⟩, inForce⟩

end

end Sys2Proof.Machine

namespace Sys2Proof.Machine

/-! ### WritesAreCaptured (O18) -/

section
variable {s : State} {bank : BitVec 2} {row : BitVec 13} {col : BitVec 9} {w0 w1 w2 w3 : WriteWord} {c : Instr}
  {a : Nat → Nat} {ww : Nat → WriteWord} {k : Nat}

/-- The mirrored kinds are captured in FILL and RUNNING. -/
theorem writeRule_mirrored {st : PartState} (h : st = .fill ∨ st = .running) (off : Nat) :
    writeRule (.lineUp off) st = .capture ∧ writeRule (.plant off) st = .capture ∧ writeRule (.slot off) st = .capture := by
  rcases h with rfl | rfl <;> exact ⟨rfl, rfl, rfl⟩

/-- A word of LINE-UP or PLANT off its take word makes no event. -/
theorem takeEventOf_region {off : Nat} (h : off ≠ 0) (w : HostWord) :
    takeEventOf (.lineUp off) w = none ∧ takeEventOf (.plant off) w = none := by
  cases low : w.touchesLow <;> simp [takeEventOf, low, h]

theorem takeEventOf_orderTail (w : HostWord) : takeEventOf .orderTail w = none := by
  unfold takeEventOf
  split <;> rfl

/-- The request of a burst of intent words, by the word that makes it. -/
theorem revisions_of_requests {t : State}
    (made : t.chip.store.queue = s.chip.store.queue ∧ t.chip.subs = s.chip.subs
        ∧ (∀ k i, k < 4 → s.chip.kindOf (a k) = .intent (128 * i) → (burstWord a ww k).touchesLow = false)
      ∨ ∃ k i, k < 4 ∧ s.chip.kindOf (a k) = .intent (128 * i) ∧ (burstWord a ww k).touchesLow = true
        ∧ RequestMade s t i ∧ ∀ j i', j < 4 → s.chip.kindOf (a j) = .intent (128 * i') → i' = i) :
    (∀ k i, k < 4 → i < 2048 → s.chip.kindOf (a k) = .intent (128 * i) → (burstWord a ww k).touchesLow = true →
        i ∉ s.chip.store.queue → t.chip.store.queue = s.chip.store.queue ++ [i]
          ∧ (t.chip.sub i).live.outcome = .pending ∧ (t.chip.sub i).taken = (s.chip.sub i).taken
          ∧ ∀ j, j ≠ i → t.chip.sub j = s.chip.sub j)
      ∧ (∀ k i, k < 4 → s.chip.kindOf (a k) = .intent (128 * i) → i ∈ s.chip.store.queue →
        t.chip.store.queue = s.chip.store.queue ∧ t.chip.subs = s.chip.subs)
      ∧ ((∀ k off, k < 4 → s.chip.kindOf (a k) = .intent off →
          off % 128 ≠ 0 ∨ ¬ (burstWord a ww k).touchesLow = true) →
        t.chip.store.queue = s.chip.store.queue ∧ t.chip.subs = s.chip.subs) := by
  rcases made with ⟨queue, subs, silent⟩ | ⟨k₀, i₀, hk₀, kind₀, low₀, request, only⟩
  · refine ⟨fun k i hk _ kind low => ?_, fun _ _ _ _ _ => ⟨queue, subs⟩, fun _ => ⟨queue, subs⟩⟩
    rw [silent k i hk kind] at low
    exact absurd low Bool.false_ne_true
  · refine ⟨fun k i hk hi kind _ free => ?_, fun k i hk kind waits => ?_, fun without => ?_⟩
    · obtain rfl := only k i hk kind
      exact request.joins hi free
    · obtain rfl := only k i hk kind
      exact request.waits waits
    · rcases without k₀ _ hk₀ kind₀ with off | silent
      · exact absurd (Nat.mul_mod_right 128 i₀) off
      · exact absurd low₀ silent

/-- The one captured word that makes no event: the burst ends with its words. -/
theorem exec_write_silent (free : BusFree s) (canonical : ArrayCanonical s)
    (entry : vget s.chip.path.banks bank.toNat = some row)
    (write : c = .write bank col w0 w1 w2 w3 4 ∨ c = .writeAutoPrecharge bank col w0 w1 w2 w3 4)
    (ha : a = burstAddr bank row col) (hww : ww = fun k => [w0, w1, w2, w3].getD k w0) (hk : k < 4)
    (masked : ∀ j, j < 4 → j ≠ k → (ww j).mask = 15) (open' : (ww k).mask ≠ 15)
    (rule : writeRule (s.chip.kindOf (a k)) s.chip.part.state = .capture)
    (none : takeEventOf (s.chip.kindOf (a k)) (burstWord a ww k) = Option.none) :
    ∃ t, exec c s = .next t ∧ WordCaptured s a ww k t := by
  obtain ⟨r, t, next, captured, ends⟩ := exec_write_alone free canonical entry write ha hww hk masked open' rule
  rw [none] at ends
  have plain : t = r := ends
  exact ⟨t, next, plain ▸ captured⟩

end

/-- Settles O18: the words of a burst transferred one after the other, then their events in burst order. -/
theorem writesAreCaptured : Obligations.WritesAreCaptured := by
  intro bank row col w0 w1 w2 w3 c s free quiet canonical aligned entry write a ww hw low holds alone marked row'
  have lowIff : ∀ k, (burstWord a ww k).touchesLow = true ↔ low k := fun k => HostWord.touchesLow_iff
  have placed : ∀ k, (s.chip.kindOf (a k)).Placed s.chip.config (a k) := fun k => s.chip.kindOf_placed (a k)
  have apart : ∀ {k : Nat} {r : Span}, k < 4 → r ∈ [s.chip.config.subscriber, s.chip.config.lineUp,
      s.chip.config.plant, s.chip.config.orderRing] → r.base ≤ a k → Apart a r.base := fun hk region below =>
    burstAddr_apart bank row col ⟨_, hk, below⟩ (aligned _ region)
  have marks : ∀ {t : State}, BurstCaptured s a ww t → holds s.array t.array 0 id ∧ marked t := fun h =>
    ⟨h.array, h.part, h.running, h.fill⟩
  refine ⟨fun watched => ⟨fun kinds => ?_, fun k one open' => ?_⟩, fun running i j hi hj ne tail head lowTail lowHead
    masked => ?_⟩
  · obtain ⟨auto, t, next, written, closes, bankEntry, made⟩ := exec_write_intents free quiet canonical
      (aligned _ (by simp)) entry write rfl rfl watched kinds
    obtain ⟨joins, waits, without⟩ := revisions_of_requests made
    have closed : vget t.chip.path.banks bank.toNat = row' := by
      rw [bankEntry]
      by_cases plain : c = .write bank col w0 w1 w2 w3 4
      · rw [if_neg fun yes => closes.mp yes plain]
        exact (if_pos plain).symm
      · rw [if_pos (closes.mpr plain)]
        exact (if_neg plain).symm
    obtain ⟨held, mark⟩ := marks written.captured
    exact ⟨t, next, held, mark, closed, written.mirror, written.store,
      fun k i hk hi kind touched => joins k i hk hi kind ((lowIff k).mpr touched), waits,
      fun none => without fun k off hk kind => (none k off hk kind).imp_right fun no yes => no ((lowIff k).mp yes),
      written.supervision, written.time, written.lineUp, written.queues, written.pending⟩
  · obtain ⟨hk, masked⟩ := one
    have place := placed k
    refine ⟨fun off kind inner => ?_, fun off kind inner => ?_, fun off kind => ?_, fun fill kind => ?_⟩
    · rw [kind] at place
      obtain ⟨t, next, captured⟩ := exec_write_silent free canonical entry write rfl rfl hk masked open'
        (by rw [kind]; exact (writeRule_mirrored watched off).1) (by rw [kind]; exact (takeEventOf_region inner _).1)
      obtain ⟨held, mark⟩ := marks captured.captured
      exact ⟨t, next, held, mark, captured.lineUp kind (apart hk (by simp) place) hk masked⟩
    · rw [kind] at place
      obtain ⟨t, next, captured⟩ := exec_write_silent free canonical entry write rfl rfl hk masked open'
        (by rw [kind]; exact (writeRule_mirrored watched off).2.1) (by rw [kind]; exact (takeEventOf_region inner _).2)
      obtain ⟨held, mark⟩ := marks captured.captured
      exact ⟨t, next, held, mark, captured.plant kind (apart hk (by simp) place) hk masked⟩
    · rw [kind] at place
      obtain ⟨r, t, next, captured, ends⟩ := exec_write_alone free canonical entry write rfl rfl hk masked open'
        (by rw [kind]; exact (writeRule_mirrored watched off).2.2)
      rw [kind] at ends
      have slot := slotWritten_of_captured captured kind (apart hk (by simp) place) hk masked ends
      obtain ⟨held, mark⟩ := marks slot.captured
      exact ⟨t, next, held, mark, slot.mirror, fun start touched => slot.pending start ((lowIff k).mpr touched),
        fun other => slot.kept (other.imp_right fun no => Bool.eq_false_iff.mpr fun yes => no ((lowIff k).mp yes)),
        slot.head, slot.tail, slot.rest.supervision, slot.rest.subscribers, slot.rest.time, slot.rest.lineUp⟩
    · obtain ⟨t, next, captured⟩ := exec_write_silent free canonical entry write rfl rfl hk masked open'
        (by rw [kind, fill]; rfl) (by rw [kind]; exact takeEventOf_orderTail _)
      obtain ⟨orders, rest⟩ := captured.orderTail kind
      obtain ⟨held, mark⟩ := marks captured.captured
      exact ⟨t, next, held, mark, orders, rest.supervision, rest.subscribers, rest.time, rest.lineUp⟩
  · intro x y tailIn headIn
    obtain ⟨t, next, taken, inForce⟩ := exec_write_indices free canonical entry write rfl rfl running hi hj ne tail head
      ((lowIff i).mpr lowTail) ((lowIff j).mpr lowHead) masked
    have tails : (tailIn → t.chip.orders.tail = x) ∧ (¬ tailIn → t.chip.orders.tail = s.chip.orders.tail) :=
      ⟨fun yes => inForce.tail.trans (if_pos yes), fun no => inForce.tail.trans (if_neg no)⟩
    have heads : (headIn → t.chip.journal.head = y) ∧ (¬ headIn → t.chip.journal.head = s.chip.journal.head) :=
      ⟨fun yes => inForce.head.trans (if_pos yes), fun no => inForce.head.trans (if_neg no)⟩
    obtain ⟨tailYes, tailNo⟩ := tails
    obtain ⟨headYes, headNo⟩ := heads
    refine ⟨t, next, tailYes, tailNo, headYes, headNo, ?_⟩
    rcases taken with ⟨taken, last⟩ | ⟨taken, last⟩
    · exact ⟨taken.accepts, fun no no' => by rw [last]; exact taken.refuses no no', taken.kept⟩
    · exact ⟨fun yes yes' => taken.accepts yes' yes, fun no no' => by rw [last]; exact taken.refuses no' no, taken.kept⟩

end Sys2Proof.Machine

namespace Sys2Proof.Machine

/-! ### What a branch link with no exchange selects (R41, R57 to R59) -/

@[simp] theorem Chip.updBranch_elements (c : Chip) (b : Nat) (f : Branch → Branch) :
    (c.updBranch b f).elements = c.elements := rfl
@[simp] theorem Chip.updBranch_part (c : Chip) (b : Nat) (f : Branch → Branch) :
    (c.updBranch b f).part = c.part := rfl
@[simp] theorem Chip.updBranch_ports (c : Chip) (b : Nat) (f : Branch → Branch) :
    (c.updBranch b f).ports = c.ports := rfl
theorem Chip.updBranch_branch (c : Chip) {b : Nat} (f : Branch → Branch) (hb : b < 4) :
    (c.updBranch b f).branch b = f (c.branch b) := vget_vupd_same _ _ _ hb
theorem Chip.updBranch_branch_other (c : Chip) {b k : Nat} (f : Branch → Branch) (other : k ≠ b) :
    (c.updBranch b f).branch k = c.branch k := vget_vupd_other _ _ _ _ other

/-- Two changes of a branch link, one after the other, are one. -/
theorem Chip.updBranch_updBranch (c : Chip) (b : Nat) (f g : Branch → Branch) :
    (c.updBranch b f).updBranch b g = c.updBranch b fun r => g (f r) := by
  have same : vupd (vupd c.branches b f) b g = vupd c.branches b fun r => g (f r) := by
    refine vget_ext fun k hk => ?_
    by_cases at_b : k = b
    · subst at_b
      rw [vget_vupd_same _ _ _ hk, vget_vupd_same _ _ _ hk, vget_vupd_same _ _ _ hk]
    · rw [vget_vupd_other _ _ _ _ at_b, vget_vupd_other _ _ _ _ at_b, vget_vupd_other _ _ _ _ at_b]
  exact congrArg c.setBranches same

/-- The branch link after the arbiter has turned to a poll: the run is over, a head leaves the repoll list or the
cursor moves on (R57 to R59). -/
def Branch.polled (r : Branch) (repoll : List Nat) (cursor : Option Nat) : Branch :=
  { r with run := 0, repoll := repoll, cursor := cursor }

/-- Everything a controller can do when it may select: nothing, fall silent or idle, load the port at the head of its
dirty list, or poll (R41, R59). -/
inductive Selection (c : Chip) (b : Nat) : Chip → Prop
  | stays (quiet : c.quietBranch b = true) : Selection c b c
  | silences (none : (c.branch b).hold = none) (closed : c.linkOpen b = false) :
      Selection c b (c.updBranch b fun r => { r with link := .silent })
  | idles (none : (c.branch b).hold = none) (opened : c.linkOpen b = true) (empty : (c.branch b).dirty = [])
      (still : c.pollWaiting b = false) : Selection c b (c.updBranch b fun r => { r with link := .idle })
  | loads (p : Nat) (rest : List Nat) (none : (c.branch b).hold = none) (opened : c.linkOpen b = true)
      (head : (c.branch b).dirty = p :: rest) : Selection c b (c.startLoad b p)
  | polls (e : Nat) (repoll : List Nat) (cursor : Option Nat) (none : (c.branch b).hold = none)
      (opened : c.linkOpen b = true) :
      Selection c b ((c.updBranch b fun r => r.polled repoll cursor).startPoll b e)

/-- A change of a branch link is decided by what it makes of the link as it stands. -/
theorem Chip.updBranch_congr {c : Chip} {b : Nat} {f g : Branch → Branch} (h : f (c.branch b) = g (c.branch b)) :
    c.updBranch b f = c.updBranch b g := by
  have same : vupd c.branches b f = vupd c.branches b g := by
    refine vget_ext fun k hk => ?_
    by_cases at_b : k = b
    · subst at_b
      rw [vget_vupd_same _ _ _ hk, vget_vupd_same _ _ _ hk]
      exact h
    · rw [vget_vupd_other _ _ _ _ at_b, vget_vupd_other _ _ _ _ at_b]
  exact congrArg c.setBranches same

/-- The poll of the arbiter: the head of the repoll list, or else the cursor's next element (R57 to R59). -/
def Chip.poll (c : Chip) (b : Nat) : Chip :=
  let c' := c.updBranch b fun r => { r with run := 0 }
  match (c.branch b).repoll with
  | e :: rest => (c'.updBranch b fun r => { r with repoll := rest }).startPoll b e
  | [] =>
    match c.cursorNext b with
    | some e => (c'.updBranch b fun r => { r with cursor := some e }).startPoll b e
    | none => c'

/-- A poll that waits is made. -/
theorem Chip.poll_polls {c : Chip} {b : Nat} (waits : c.pollWaiting b = true) :
    ∃ e repoll cursor, c.poll b = (c.updBranch b fun r => r.polled repoll cursor).startPoll b e := by
  unfold Chip.poll
  dsimp only
  split
  · next e rest head =>
    rw [Chip.updBranch_updBranch]
    refine ⟨e, rest, (c.branch b).cursor, congrArg (fun d : Chip => d.startPoll b e) ?_⟩
    exact Chip.updBranch_congr rfl
  · next empty =>
    rw [Chip.pollWaiting, empty] at waits
    obtain ⟨e, next⟩ := Option.isSome_iff_exists.mp waits
    rw [next]
    dsimp only
    rw [Chip.updBranch_updBranch]
    refine ⟨e, [], some e, congrArg (fun d : Chip => d.startPoll b e) ?_⟩
    refine Chip.updBranch_congr ?_
    rw [← empty]
    rfl

/-- The poll that the arbiter makes where one waits (R57, R58). -/
theorem Chip.select_polls {c : Chip} {b : Nat} (waits : c.pollWaiting b = true)
    (turn : ∀ p rest, (c.branch b).dirty = p :: rest → ¬ (c.branch b).run < 8) :
    ∃ e repoll cursor, c.select b = (c.updBranch b fun r => r.polled repoll cursor).startPoll b e := by
  unfold Chip.select
  dsimp only
  split
  · next p rest head =>
    rw [waits]
    simp only [turn p rest head, decide_false, Bool.not_true, Bool.or_self, Bool.false_eq_true, if_false]
    exact Chip.poll_polls waits
  · rw [if_pos waits]
    exact Chip.poll_polls waits

/-- The controller's selection is one of those (R41, R59). -/
theorem Chip.armBranch_selection (c : Chip) (b : Nat) : Selection c b (c.armBranch b) := by
  by_cases quiet : c.quietBranch b = true
  · rw [c.armBranch_quiet b quiet]
    exact .stays quiet
  have none : (c.branch b).hold = none := by
    cases held : (c.branch b).hold with
    | none => rfl
    | some x => exact absurd (by rw [Chip.quietBranch, held]; rfl) quiet
  cases opened : c.linkOpen b with
  | false =>
    have loud : (c.branch b).link ≠ .silent := fun silent =>
      quiet (by rw [Chip.quietBranch, opened, silent, none]; rfl)
    have arm : c.armBranch b = c.updBranch b fun r => { r with link := .silent } := by
      rw [Chip.armBranch, none, opened, if_neg loud]; rfl
    rw [arm]
    exact .silences none opened
  | true =>
    have arm : c.armBranch b = c.select b := by rw [Chip.armBranch, none, opened]; rfl
    rw [arm]
    by_cases turn : ∃ p rest, (c.branch b).dirty = p :: rest ∧ ((c.branch b).run < 8 ∨ c.pollWaiting b = false)
    · obtain ⟨p, rest, head, due⟩ := turn
      have load : c.select b = c.startLoad b p := by
        unfold Chip.select
        dsimp only
        rw [head]
        refine if_pos ?_
        simpa using due
      rw [load]
      exact .loads p rest none opened head
    cases waits : c.pollWaiting b with
    | true =>
      obtain ⟨e, repoll, cursor, poll⟩ := Chip.select_polls waits fun p rest head low => turn ⟨p, rest, head, .inl low⟩
      rw [poll]
      exact .polls e repoll cursor none opened
    | false =>
      have empty : (c.branch b).dirty = [] := by
        cases dirty : (c.branch b).dirty with
        | nil => rfl
        | cons p rest => exact absurd ⟨p, rest, dirty, .inr waits⟩ turn
      have idle : c.select b = c.updBranch b fun r => { r with link := .idle } := by
        rw [Chip.select, empty, waits]; rfl
      rw [idle]
      exact .idles none opened empty waits

/-! ### After the selections nothing is left to select (R41, R93, R150, R172) -/

theorem Chip.startExchange_held (c : Chip) {b : Nat} (e : Nat) (port : Option Nat) (frame : List Byte) (hb : b < 4) :
    ((c.startExchange b e port frame).branch b).hold.isSome = true := by
  rw [Chip.startExchange, Chip.updBranch_branch _ _ hb]; rfl

theorem Chip.quietBranch_held {c : Chip} {b : Nat} (h : (c.branch b).hold.isSome = true) : c.quietBranch b = true := by
  rw [Chip.quietBranch, h]; rfl

/-- A controller that has selected has nothing left to select. -/
theorem Selection.quiet {c d : Chip} {b : Nat} (hb : b < 4) (sel : Selection c b d) : d.quietBranch b = true := by
  have silent := c.updBranch_branch (fun r => { r with link := .silent }) hb
  have idle := c.updBranch_branch (fun r => { r with link := .idle }) hb
  cases sel with
  | stays quiet => exact quiet
  | silences none closed =>
    have closed' : (c.updBranch b fun r => { r with link := .silent }).linkOpen b = false := closed
    rw [Chip.quietBranch, silent, closed']
    exact Bool.or_eq_true_iff.mpr (.inl (Bool.or_eq_true_iff.mpr (.inr rfl)))
  | idles none opened empty still =>
    have opened' : (c.updBranch b fun r => { r with link := .idle }).linkOpen b = true := opened
    have still' : (c.updBranch b fun r => { r with link := .idle }).pollWaiting b = false := by
      rw [Chip.pollWaiting, Chip.cursorNext, idle]; exact still
    rw [Chip.quietBranch, opened', still', idle, empty]
    exact Bool.or_eq_true_iff.mpr (.inr rfl)
  | loads p rest none opened head => exact Chip.quietBranch_held (Chip.startExchange_held _ _ _ _ hb)
  | polls e repoll cursor none opened => exact Chip.quietBranch_held (Chip.startExchange_held _ _ _ _ hb)

/-- The other branch links are as before. -/
theorem Selection.branch_other {c d : Chip} {b k : Nat} (sel : Selection c b d) (other : k ≠ b) :
    d.branch k = c.branch k := by
  cases sel with
  | stays quiet => rfl
  | silences none closed => exact c.updBranch_branch_other _ other
  | idles none opened empty still => exact c.updBranch_branch_other _ other
  | loads p rest none opened head =>
    rw [Chip.startLoad, Chip.startExchange, Chip.updBranch_branch_other _ _ other,
      Chip.updBranch_branch_other _ _ other]
    rfl
  | polls e repoll cursor none opened =>
    rw [Chip.startPoll, Chip.startExchange, Chip.updBranch_branch_other _ _ other,
      Chip.updBranch_branch_other _ _ other]

theorem Chip.armBranch_branch_other (c : Chip) {b k : Nat} (other : k ≠ b) :
    (c.armBranch b).branch k = c.branch k := (c.armBranch_selection b).branch_other other

/-- A controller's selection leaves what another has to select as it was. -/
theorem Chip.armBranch_quietBranch_other (c : Chip) {b k : Nat} (other : k ≠ b) :
    (c.armBranch b).quietBranch k = c.quietBranch k := by
  have fixed := c.armBranch_fixed b
  exact (SameUnits.of_elements (Chip.fixed_elements fixed)).quietBranch
    (Chip.running_congr (Chip.fixed_part fixed)) (c.armBranch_branch_other other)

theorem Chip.armBranches_quietBranch (c : Chip) {b : Nat} (hb : b < 4) : c.armBranches.quietBranch b = true := by
  have upTo : ∀ n, n ≤ 4 → ∀ k, k < n → (forIndices n Chip.armBranch c).quietBranch k = true := by
    intro n
    induction n with
    | zero => exact fun _ k hk => absurd hk (Nat.not_lt_zero k)
    | succ n ih =>
      intro hn k hk
      rw [forIndices_succ]
      by_cases last : k = n
      · subst last
        exact (Chip.armBranch_selection _ k).quiet (by omega)
      · rw [Chip.armBranch_quietBranch_other _ last]
        exact ih (by omega) k (by omega)
  exact upTo 4 le_rfl b hb

theorem Chip.selectRack_held (c : Chip) : c.selectRack.rack.hold.isSome = true := by
  unfold Chip.selectRack
  dsimp only
  split
  · split <;> rfl
  · rfl

theorem Chip.armRack_quietRack (c : Chip) : c.armRack.quietRack = true := by
  unfold Chip.armRack
  split
  · next held => rw [Chip.quietRack, held]; rfl
  split
  · rw [Chip.quietRack, c.selectRack_held]; rfl
  · next stopped =>
    have stopped' : c.running = false := by simpa using stopped
    split
    · next silent => exact Chip.quietRack_silent stopped' silent
    · exact Chip.quietRack_silent stopped' rfl

theorem Chip.armOrders_quietOrders (c : Chip) : c.armOrders.quietOrders = true := by
  unfold Chip.armOrders
  split
  · simp [Chip.quietOrders]
  · next idle =>
    unfold Chip.quietOrders
    cases runs : c.running <;> cases work : c.orders.work <;> simp_all

theorem Chip.requestBus_quietEngine (c : Chip) : c.requestBus.quietEngine = true := by
  unfold Chip.requestBus
  split
  · rfl
  · next idle =>
    unfold Chip.quietEngine
    simp only [not_and, Bool.or_eq_true, bne_iff_ne, Bool.not_eq_true', ne_eq] at idle ⊢
    by_cases request : c.engine.request = .idle
    · cases pending : c.transferPending
      · exact .inl (.inl (.inr rfl))
      · cases active : c.active
        · exact .inl (.inr rfl)
        · exact .inr (idle request pending active)
    · exact .inl (.inl (.inl request))

/-- After the selections nothing is left to select, to take or to request: each selection leaves its own unit without,
and no later one gives an earlier unit something. -/
theorem Chip.settle_is_quiet (c : Chip) : c.settle.quiet = true := by
  have fixed := c.settle_fixed
  have units : SameUnits c.armBranches c.settle :=
    SameUnits.of_elements ((Chip.fixed_elements fixed).trans (Chip.fixed_elements c.armBranches_fixed).symm)
  have running : c.settle.running = c.armBranches.running :=
    Chip.running_congr ((Chip.fixed_part fixed).trans (Chip.fixed_part c.armBranches_fixed).symm)
  have tail : Reaches [.rack, .orders, .engine] c.armBranches c.settle :=
    (((Chip.armRack_reaches _).then (by rfl) (Chip.armOrders_reaches _) (bs := [.rack, .orders])).then (by rfl)
      (Chip.requestBus_reaches _))
  have branches : (List.range 4).all c.settle.quietBranch = true := by
    simp only [List.all_eq_true, List.mem_range]
    intro b hb
    have same : c.settle.branches = c.armBranches.branches := tail .branches (by decide)
    rw [units.quietBranch running (by rw [Chip.branch, same]; rfl)]
    exact c.armBranches_quietBranch hb
  have rack : c.settle.quietRack = true := by
    have runs : c.settle.running = c.armBranches.armRack.running :=
      running.trans (Chip.running_congr (Chip.fixed_part c.armBranches.armRack_fixed)).symm
    rw [Chip.quietRack, c.settle_rack, runs]
    exact c.armBranches.armRack_quietRack
  have orders : c.settle.quietOrders = true := by
    have runs : c.settle.running = c.armBranches.armRack.armOrders.running :=
      running.trans (Chip.running_congr (Chip.fixed_part ((Chip.armOrders_fixed _).trans
        c.armBranches.armRack_fixed))).symm
    rw [Chip.quietOrders, c.settle_orders, runs]
    exact c.armBranches.armRack.armOrders_quietOrders
  have engine : c.settle.quietEngine = true := Chip.requestBus_quietEngine _
  rw [Chip.quiet, branches, rack, orders, engine]
  rfl

end Sys2Proof.Machine

namespace Sys2Proof.Machine

/-! ### What leaves a settled part settled (R41, R93, R150, R172) -/

/-- What is left to select does not depend on the Memory Path but for the memory state. -/
theorem Chip.quiet_setPath {c : Chip} {x : MemPath} (mem : x.mem = c.path.mem) : (c.setPath x).quiet = c.quiet := by
  have engine : (c.setPath x).quietEngine = c.quietEngine := by
    rw [Chip.quietEngine, Chip.setPath_path, mem]; rfl
  rw [Chip.quiet, engine]
  rfl

theorem Chip.quiet_setBurst (c : Chip) (b : Burst) : (c.setBurst b).quiet = c.quiet := Chip.quiet_setPath rfl
theorem Chip.quiet_closeBank (c : Chip) (bank : BitVec 2) : (c.closeBank bank).quiet = c.quiet := Chip.quiet_setPath rfl
theorem Chip.quiet_closeAll (c : Chip) : c.closeAll.quiet = c.quiet := Chip.quiet_setPath rfl
theorem Chip.quiet_openRow (c : Chip) (bank : BitVec 2) (row : BitVec 13) : (c.openRow bank row).quiet = c.quiet :=
  Chip.quiet_setPath rfl
theorem Chip.quiet_setDrawn (c : Chip) (n : Nat) : (c.setDrawn n).quiet = c.quiet := rfl
theorem Chip.quiet_setStrap (c : Chip) (strap : BitVec 4) : (c.setStrap strap).quiet = c.quiet := rfl
theorem Chip.quiet_markWord (c : Chip) (w : HostWord) : (c.markWord w).quiet = c.quiet := by
  unfold Chip.markWord
  split <;> rfl

/-- An Order Taker of a part that is not RUNNING takes nothing, whatever the tail. -/
theorem Chip.quiet_setOrders_stopped {c : Chip} {x : OrderTaker} (stopped : c.running = false)
    (settled : c.quiet = true) : (c.setOrders x).quiet = true := by
  have orders : (c.setOrders x).quietOrders = c.quietOrders := by
    rw [Chip.quietOrders_stopped stopped]
    exact Chip.quietOrders_stopped stopped
  have same : (c.setOrders x).quiet = c.quiet := by rw [Chip.quiet, orders]; rfl
  rw [same, settled]

/-- A captured word leaves nothing new to select: the tail is captured in FILL alone (R149, R169). -/
theorem Chip.quiet_mirrorWord {c : Chip} {k : WordKind} (w : HostWord) (tail : k = .orderTail → c.running = false)
    (settled : c.quiet = true) : (c.mirrorWord k w).quiet = true := by
  cases k with
  | orderTail => exact Chip.quiet_setOrders_stopped (tail rfl) settled
  | _ => exact settled

theorem writeRule_orderTail_capture {st : PartState} (h : writeRule .orderTail st = .capture) : st ≠ .running := by
  rintro rfl
  exact absurd h (by decide)

/-! ### The path of a host write -/

theorem State.protectWord_settled (s : State) (k : WordKind) (w : HostWord) : Settled (s.protectWord k w) := by
  unfold State.protectWord
  dsimp only [Settled]
  exact (s.chip.guard k w.addr).settle_is_quiet

theorem State.handEvent_settled (s : State) (e : TakeEvent) : Settled (s.handEvent e) := by
  unfold State.handEvent
  dsimp only [Settled, State.onChip_chip]
  exact Chip.settle_is_quiet _

/-- One word of a host write leaves nothing to select (R168 to R170). -/
theorem State.hostWrite_settled {s : State} (w : HostWord) (settled : Settled s) : Settled (s.hostWrite w).1 := by
  unfold State.hostWrite
  dsimp only
  split
  · exact settled
  split
  · exact settled
  · exact s.protectWord_settled _ w
  · next rule =>
    refine (Chip.quiet_markWord _ w).trans (Chip.quiet_mirrorWord w (fun tail => ?_) settled)
    rw [tail] at rule
    rw [Chip.running]
    exact beq_eq_false_iff_ne.mpr (writeRule_orderTail_capture rule)
  · split
    · exact settled
    · exact s.protectWord_settled _ w
  · exact settled

theorem State.handEvents_settled {s : State} (l : List TakeEvent) (settled : Settled s) :
    Settled (s.handEvents l) := by
  unfold State.handEvents
  induction l generalizing s with
  | nil => exact settled
  | cons e l ih =>
    rw [List.foldl_cons]
    exact ih (s.handEvent_settled e)

theorem State.passCandidates_settled {s : State} (l : List TakeEvent) (settled : Settled s) :
    Settled (s.passCandidates l) := by
  unfold State.passCandidates
  induction l.filterMap TakeEvent.candidateWord generalizing s with
  | nil => exact settled
  | cons w l ih => exact ih settled

/-- The end of a burst leaves nothing to select (R161, R169). -/
theorem State.endBurst_settled {s : State} (settled : Settled s) : Settled s.endBurst := by
  unfold State.endBurst
  split
  · exact settled
  · next b _ =>
    have ended : Settled (s.onChip fun c =>
        if b.autoPrecharge then (c.setPath { c.path with burst := none }).closeBank b.bank
        else c.setPath { c.path with burst := none }) := by
      have none : (s.chip.setPath { s.chip.path with burst := none }).quiet = true :=
        (Chip.quiet_setPath rfl).trans settled
      dsimp only [Settled, State.onChip_chip]
      split
      · exact (Chip.quiet_closeBank _ _).trans none
      · exact none
    dsimp only
    split
    · exact State.passCandidates_settled _ ended
    · exact State.handEvents_settled _ ended

theorem State.writeWord_settled {s : State} (b : Burst) (k : Nat) (w : WriteWord) (settled : Settled s) :
    Settled (s.writeWord b k w).1 := by
  unfold State.writeWord
  dsimp only
  split
  · exact settled
  · exact State.hostWrite_settled _ settled

theorem State.transferWord_settled {s : State} (settled : Settled s) : Settled s.transferWord := by
  unfold State.transferWord
  split
  · exact settled
  split
  · exact (Chip.quiet_setBurst _ _).trans settled
  · exact (Chip.quiet_setBurst _ _).trans (State.writeWord_settled _ _ _ settled)

/-- The transfer of words of the burst in progress leaves nothing to select (R162). -/
theorem State.transferWords_settled {s : State} (n : Nat) (settled : Settled s) : Settled (s.transferWords n) := by
  have words : Settled (forIndices n (fun s _ => if s.chip.burstDone then s else s.transferWord) s) :=
    forIndices_keeps n settled fun t _ _ h => by
      split
      · exact h
      · exact State.transferWord_settled h
  unfold State.transferWords
  dsimp only
  split
  · exact State.endBurst_settled words
  · exact words

theorem State.cutForward_settled {s : State} (i : Instr) (settled : Settled s) : Settled (s.cutForward i) :=
  State.endBurst_settled (s := s.quietLines) settled
theorem State.plainCommand_settled {s : State} (i : Instr) (settled : Settled s) : Settled (s.plainCommand i) :=
  State.transferWords_settled (s := s.forward i) 1 settled

theorem State.startBurst_settled {s : State} (bank : BitVec 2) (col : BitVec 9) (auto : Bool) (words : Nat)
    (data : BitVec 13 → Bool → BurstData) (settled : Settled s) : Settled (s.startBurst bank col auto words data) := by
  unfold State.startBurst
  dsimp only
  refine State.transferWords_settled words ((Chip.quiet_setBurst _ _).trans ?_)
  split
  · exact settled
  · exact (Chip.quiet_setDrawn _ _).trans ((Chip.quiet_setPath rfl).trans settled)

theorem State.readBurst_settled {s : State} (i : Instr) (bank : BitVec 2) (col : BitVec 9) (auto : Bool) (words : Nat)
    (settled : Settled s) : Settled (s.readBurst i bank col auto words) :=
  State.startBurst_settled _ _ _ _ _ (State.cutForward_settled i settled)

theorem State.writeBurst_settled {s : State} (i : Instr) (bank : BitVec 2) (col : BitVec 9) (auto : Bool)
    (l : List WriteWord) (words : Nat) (settled : Settled s) : Settled (s.writeBurst i bank col auto l words) :=
  State.startBurst_settled _ _ _ _ _ (State.cutForward_settled i settled)

theorem State.writeAlone_settled {s : State} (w : HostWord) (settled : Settled s) : Settled (s.writeAlone w) :=
  State.handEvents_settled _ (State.hostWrite_settled w (State.endBurst_settled (s := s.quietLines) settled))

theorem State.writeMapped_settled {s : State} (a : Nat) (h : HalfWrite) (settled : Settled s) :
    Settled (s.writeMapped a h) := by
  unfold State.writeMapped
  split
  · exact State.writeAlone_settled _ settled
  · exact settled

theorem State.act_settled (s : State) (f : Chip → Chip) : Settled (s.act f) := by
  rw [Settled, State.act_chip]
  exact (f s.chip).settle_is_quiet

theorem State.actIf_settled {s : State} (ready : Chip → Bool) (f : Chip → Chip) (settled : Settled s) :
    Settled (s.actIf ready f) := by
  unfold State.actIf
  split
  · exact s.act_settled f
  · exact settled

/-! ### Every command (R41, R93, R150, R172) -/

/-- An outcome whose next state, where it has one, is settled. -/
def EndsSettled (r : Result) : Prop := ∀ t, r = .next t → Settled t

theorem EndsSettled.next {t : State} (settled : Settled t) : EndsSettled (.next t) := by
  rintro _ ⟨⟩
  exact settled

theorem EndsSettled.fault (f : Fault) : EndsSettled (.fault f) := fun _ h => nomatch h

theorem EndsSettled.onBus {s : State} {f : State → State} (settled : Settled s) (h : Settled (f s)) :
    EndsSettled (s.onBus f) := by
  refine .next ?_
  split
  · exact h
  · exact settled

theorem EndsSettled.directOrder {s : State} (kind : Nat) (f : Chip → Order → Chip) (settled : Settled s) :
    EndsSettled (s.directOrder kind f) := by
  unfold State.directOrder
  split
  · exact .next (State.actIf_settled _ _ settled)
  · exact .next settled

theorem EndsSettled.storeOrder {s : State} (kind : Nat) (f : Chip → Order → Chip) (settled : Settled s) :
    EndsSettled (s.storeOrder kind f) := by
  unfold State.storeOrder
  split
  · exact .next (State.actIf_settled _ _ settled)
  · exact .next settled

/-- A granted engine holds the bus and so requests nothing; the rest is as before (R173). -/
theorem Chip.quiet_grant {c : Chip} (settled : c.quiet = true) : c.grant.quiet = true := by
  have engine : c.grant.quietEngine = true := rfl
  have rest : (List.range 4).all c.grant.quietBranch = (List.range 4).all c.quietBranch := rfl
  simp only [Chip.quiet, Bool.and_eq_true] at settled ⊢
  obtain ⟨⟨⟨branches, rack⟩, orders⟩, -⟩ := settled
  exact ⟨⟨⟨rest.trans branches, rack⟩, orders⟩, engine⟩

/-- In SELF-REFRESH nothing is requested (R172, R175). -/
theorem Chip.quiet_enterSelfRefresh {c : Chip} (settled : c.quiet = true) : c.enterSelfRefresh.quiet = true := by
  have other : c.enterSelfRefresh.path.mem = .selfRefresh := by
    unfold Chip.enterSelfRefresh
    dsimp only
    split <;> rfl
  have engine : c.enterSelfRefresh.quietEngine = true := by
    rw [Chip.quietEngine, other]
    exact Bool.or_eq_true_iff.mpr (.inr rfl)
  simp only [Chip.quiet, Bool.and_eq_true] at settled ⊢
  obtain ⟨⟨⟨branches, rack⟩, orders⟩, -⟩ := settled
  refine ⟨?_, engine⟩
  unfold Chip.enterSelfRefresh
  dsimp only
  split <;> exact ⟨⟨branches, rack⟩, orders⟩

/-- Where all but the bus request stands settled, the bus request settles it (R172). -/
theorem Chip.quiet_requestBus {c d : Chip} (settled : c.quiet = true) (hp : d.running = c.running)
    (hu : SameUnits c d) (hb : d.branches = c.branches) (hr : d.rack = c.rack) (ho : d.orders = c.orders) :
    d.requestBus.quiet = true := by
  rw [← Chip.settle_requestBus_of_quiet settled hp hu hb hr ho]
  exact d.settle_is_quiet

/-- After a reset of any kind nothing is left to select. -/
theorem Chip.quiet_hardReset (c : Chip) (strap : BitVec 4) (cause : ResetCause) :
    (c.hardReset strap cause).quiet = true := by
  have branches : (List.range 4).all (c.hardReset strap cause).quietBranch = true := by
    simp only [List.all_eq_true, List.mem_range]
    exact fun b hb => Chip.quietBranch_silent rfl (congrArg Branch.link (c.hardReset_branch strap cause hb))
  rw [Chip.quiet, branches]
  rfl

theorem Chip.quiet_pinReset (c : Chip) (strap : BitVec 4) : (c.pinReset strap).quiet = true :=
  (Chip.quiet_setPath rfl).trans (c.quiet_hardReset strap .pin)

/-- A change of a branch link's carrier and counts leaves it as much to select as before (R41). -/
theorem Chip.quiet_updBranch {c : Chip} {b : Nat} {f : Branch → Branch}
    (kept : ∀ r, (f r).link = r.link ∧ (f r).hold = r.hold ∧ (f r).dirty = r.dirty ∧ (f r).repoll = r.repoll
      ∧ (f r).cursor = r.cursor) : (c.updBranch b f).quiet = c.quiet := by
  have link k : ((c.updBranch b f).branch k).link = (c.branch k).link :=
    vget_vupd_kept Branch.link (fun r => (kept r).1) _ _ _
  have hold k : ((c.updBranch b f).branch k).hold = (c.branch k).hold :=
    vget_vupd_kept Branch.hold (fun r => (kept r).2.1) _ _ _
  have dirty k : ((c.updBranch b f).branch k).dirty = (c.branch k).dirty :=
    vget_vupd_kept Branch.dirty (fun r => (kept r).2.2.1) _ _ _
  have repoll k : ((c.updBranch b f).branch k).repoll = (c.branch k).repoll :=
    vget_vupd_kept Branch.repoll (fun r => (kept r).2.2.2.1) _ _ _
  have cursor k : ((c.updBranch b f).branch k).cursor = (c.branch k).cursor :=
    vget_vupd_kept Branch.cursor (fun r => (kept r).2.2.2.2) _ _ _
  have pollable : (c.updBranch b f).pollable = c.pollable := rfl
  have branches : (c.updBranch b f).quietBranch = c.quietBranch := by
    funext k
    rw [Chip.quietBranch, Chip.pollWaiting, Chip.cursorNext, link, hold, dirty, repoll, cursor, pollable]
    rfl
  rw [Chip.quiet, branches]
  rfl

/-- The carrier input of a branch is not looked at by any selection (R60). -/
theorem Chip.quiet_carrierInput (c : Chip) (b : Nat) (high : Bool) : (c.carrierInput b high).quiet = c.quiet := by
  refine Chip.quiet_updBranch fun r => ?_
  split <;> exact ⟨rfl, rfl, rfl, rfl, rfl⟩

/-- A change of the part that leaves as much to select as before leaves a settled state settled. -/
theorem State.onChip_settled {s : State} {f : Chip → Chip} (kept : (f s.chip).quiet = s.chip.quiet)
    (settled : Settled s) : Settled (s.onChip f) := by
  rw [Settled, State.onChip_chip, kept]
  exact settled

theorem execActivate_settled {s : State} (bank : BitVec 2) (row : BitVec 13) (settled : Settled s) :
    EndsSettled (execActivate bank row s) :=
  .onBus settled (State.onChip_settled (Chip.quiet_openRow _ bank row) (State.plainCommand_settled _ settled))

theorem execPrechargeAll_settled {s : State} (settled : Settled s) : EndsSettled (execPrechargeAll s) :=
  .onBus settled (State.onChip_settled (Chip.quiet_closeAll _) (State.cutForward_settled _ settled))

theorem execRefresh_settled {s : State} (settled : Settled s) : EndsSettled (execRefresh s) :=
  .onBus settled (State.onChip_settled (Chip.quiet_closeAll _) (State.plainCommand_settled _ settled))

theorem execSelfRefreshEntry_settled {s : State} (settled : Settled s) : EndsSettled (execSelfRefreshEntry s) := by
  refine .onBus settled ?_
  rw [Settled, State.onChip_chip]
  exact Chip.quiet_enterSelfRefresh (State.plainCommand_settled _ settled)

theorem execRead_settled {s : State} (bank : BitVec 2) (col : BitVec 9) (words : Nat) (settled : Settled s) :
    EndsSettled (execRead bank col words s) := .onBus settled (State.readBurst_settled _ _ _ _ _ settled)
theorem execReadAutoPrecharge_settled {s : State} (bank : BitVec 2) (col : BitVec 9) (words : Nat)
    (settled : Settled s) : EndsSettled (execReadAutoPrecharge bank col words s) :=
  .onBus settled (State.readBurst_settled _ _ _ _ _ settled)
theorem execWrite_settled {s : State} (bank : BitVec 2) (col : BitVec 9) (w0 w1 w2 w3 : WriteWord) (words : Nat)
    (settled : Settled s) : EndsSettled (execWrite bank col w0 w1 w2 w3 words s) :=
  .onBus settled (State.writeBurst_settled _ _ _ _ _ _ settled)
theorem execWriteAutoPrecharge_settled {s : State} (bank : BitVec 2) (col : BitVec 9) (w0 w1 w2 w3 : WriteWord)
    (words : Nat) (settled : Settled s) : EndsSettled (execWriteAutoPrecharge bank col w0 w1 w2 w3 words s) :=
  .onBus settled (State.writeBurst_settled _ _ _ _ _ _ settled)

theorem execBurstTerminate_settled {s : State} (settled : Settled s) : EndsSettled (execBurstTerminate s) :=
  .onBus settled (State.cutForward_settled _ settled)
theorem execNoOperation_settled {s : State} (settled : Settled s) : EndsSettled (execNoOperation s) :=
  .onBus settled (State.plainCommand_settled _ settled)
theorem execCarrierInputChange_settled {s : State} (b : Fin 4) (high : Bool) (settled : Settled s) :
    EndsSettled (execCarrierInputChange b high s) :=
  .next (State.onChip_settled (Chip.quiet_carrierInput _ b high) settled)
theorem execPowerOn_settled (strap : BitVec 4) (s : State) : EndsSettled (execPowerOn strap s) :=
  .next (Chip.quiet_hardReset _ strap .power)

theorem execPurchase_settled {s : State} (settled : Settled s) : EndsSettled (execPurchase s) :=
  .storeOrder _ _ settled
theorem execCancelPurchase_settled {s : State} (settled : Settled s) : EndsSettled (execCancelPurchase s) :=
  .storeOrder _ _ settled
theorem execAdjust_settled {s : State} (settled : Settled s) : EndsSettled (execAdjust s) :=
  .storeOrder _ _ settled
theorem execResend_settled {s : State} (settled : Settled s) : EndsSettled (execResend s) :=
  .storeOrder _ _ settled
theorem execRepoll_settled {s : State} (settled : Settled s) : EndsSettled (execRepoll s) :=
  .directOrder _ _ settled
theorem execAcknowledgeOutage_settled {s : State} (settled : Settled s) : EndsSettled (execAcknowledgeOutage s) :=
  .directOrder _ _ settled
theorem execSetClock_settled {s : State} (settled : Settled s) : EndsSettled (execSetClock s) :=
  .directOrder _ _ settled
theorem execNextCycle_settled {s : State} (settled : Settled s) : EndsSettled (execNextCycle s) :=
  .directOrder _ _ settled

theorem execPrecharge_settled {s : State} (bank : BitVec 2) (settled : Settled s) :
    EndsSettled (execPrecharge bank s) := by
  refine .onBus settled (State.onChip_settled (Chip.quiet_closeBank _ bank) ?_)
  split
  · exact State.cutForward_settled _ settled
  · exact State.plainCommand_settled _ settled

theorem execSelfRefreshExit_settled {s : State} (settled : Settled s) : EndsSettled (execSelfRefreshExit s) := by
  have plain := State.plainCommand_settled .selfRefreshExit settled
  exact .onBus settled (Chip.quiet_requestBus (d := Chip.setPath _ _) plain rfl (.of_elements rfl) rfl rfl rfl)

theorem execModeSet_settled {s : State} (addr : BitVec 13) (bank : BitVec 2) (settled : Settled s) :
    EndsSettled (execModeSet addr bank s) :=
  .onBus settled (State.transferWords_settled 1 (State.act_settled _ _))

theorem execResetPin_settled (strap : BitVec 4) (begun : Nat) (s : State) :
    EndsSettled (execResetPin strap begun s) := .next (Chip.quiet_pinReset _ strap)

theorem State.endTenure_settled (s : State) (t : Tenure) : Settled (s.endTenure t) := by
  unfold State.endTenure
  dsimp only [Settled]
  exact Chip.settle_is_quiet _

theorem execTenureComplete_settled {s : State} (settled : Settled s) : EndsSettled (execTenureComplete s) := by
  unfold execTenureComplete
  split
  · refine .next ?_
    split
    · exact s.endTenure_settled _
    · exact settled
  · exact .next settled

theorem execBusGrant_settled {s : State} (settled : Settled s) : EndsSettled (execBusGrant s) := by
  refine .next ?_
  split
  · exact Chip.quiet_grant settled
  · exact settled

theorem execConfigRetake_settled {s : State} (strap : BitVec 4) (h : HalfWrite) (settled : Settled s) :
    EndsSettled (execConfigRetake strap h s) :=
  .onBus settled (State.writeAlone_settled (s := s.onChip fun c => c.setStrap strap) _
    ((Chip.quiet_setStrap _ strap).trans settled))

theorem execUnknownKind_settled {s : State} (settled : Settled s) : EndsSettled (execUnknownKind s) := by
  unfold execUnknownKind
  split
  · exact .next (State.actIf_settled _ _ settled)
  · exact .next settled

theorem execRevisionWrite_settled {s : State} (i : Nat) (h : HalfWrite) (settled : Settled s) :
    EndsSettled (execRevisionWrite i h s) := by
  unfold execRevisionWrite
  split
  · exact .next (State.writeMapped_settled _ _ settled)
  · exact .fault _

theorem execOrderKindWrite_settled {s : State} (k : Nat) (h : HalfWrite) (settled : Settled s) :
    EndsSettled (execOrderKindWrite k h s) := by
  unfold execOrderKindWrite
  split
  · refine .next ?_
    split
    · exact State.writeMapped_settled _ _ settled
    · exact settled
  · exact .fault _

/-- Every command ends with nothing left to select: by the form of its meaning. -/
theorem exec_settled (c : Instr) {s : State} (settled : Settled s) : EndsSettled (exec c s) := by
  cases c with
  | powerOn strap => exact execPowerOn_settled strap s
  | resetPin strap begun => exact execResetPin_settled strap begun s
  | modeSet addr bank => exact execModeSet_settled addr bank settled
  | activate bank row => exact execActivate_settled bank row settled
  | read bank col words => exact execRead_settled bank col words settled
  | readAutoPrecharge bank col words => exact execReadAutoPrecharge_settled bank col words settled
  | write bank col w0 w1 w2 w3 words => exact execWrite_settled bank col w0 w1 w2 w3 words settled
  | writeAutoPrecharge bank col w0 w1 w2 w3 words =>
    exact execWriteAutoPrecharge_settled bank col w0 w1 w2 w3 words settled
  | precharge bank => exact execPrecharge_settled bank settled
  | prechargeAll => exact execPrechargeAll_settled settled
  | refresh => exact execRefresh_settled settled
  | selfRefreshEntry => exact execSelfRefreshEntry_settled settled
  | selfRefreshExit => exact execSelfRefreshExit_settled settled
  | burstTerminate => exact execBurstTerminate_settled settled
  | noOperation => exact execNoOperation_settled settled
  | busGrant => exact execBusGrant_settled settled
  | tenureComplete => exact execTenureComplete_settled settled
  | configRetake strap h => exact execConfigRetake_settled strap h settled
  | lineUpTakeRequest h | plantTakeRequest h | orderTailWrite h | journalHeadWrite h =>
    exact .next (State.writeMapped_settled _ _ settled)
  | revisionWrite i h => exact execRevisionWrite_settled i h settled
  | orderKindWrite k h => exact execOrderKindWrite_settled k h settled
  | unknownKind => exact execUnknownKind_settled settled
  | purchase => exact execPurchase_settled settled
  | cancelPurchase => exact execCancelPurchase_settled settled
  | adjust => exact execAdjust_settled settled
  | resend => exact execResend_settled settled
  | repoll => exact execRepoll_settled settled
  | acknowledgeOutage => exact execAcknowledgeOutage_settled settled
  | setClock => exact execSetClock_settled settled
  | nextCycle => exact execNextCycle_settled settled
  | carrierInputChange b high => exact execCarrierInputChange_settled b high settled
  | _ => exact .next (State.actIf_settled _ _ settled)

/-- Settles O4: a step runs the command at the front of the queue, which its state does not look at. -/
theorem stepKeepsNothingToSelect : Obligations.StepKeepsNothingToSelect := by
  intro s t settled next
  unfold step at next
  split at next
  · obtain ⟨⟩ := next
    exact settled
  · next i rest _ => exact exec_settled i (s := { s with pending := rest }) settled t next

end Sys2Proof.Machine

namespace Sys2Proof.Machine

/-! ### Power-on (R65, R177 to R179) -/

/-- Settles O8: power-on is the reset of every block, whatever state it finds. -/
theorem powerOnResetsEveryBlock : Obligations.PowerOnResetsEveryBlock := by
  intro strap s
  refine ⟨_, rfl, rfl, rfl, rfl, ?_, rfl, rfl, rfl⟩
  exact ⟨rfl, rfl, rfl, rfl, rfl, fun b hb => s.chip.hardReset_branch strap .power hb, rfl, rfl, rfl, rfl, rfl, rfl,
    rfl, rfl, rfl⟩

/-! ### An invalid MODE SET of a watching part (R165, R166) -/

/-- A branch link of a part that has just entered TRANSPARENT: as after a reset, its carrier not timed (R65). -/
theorem Chip.enterTransparent_branch (c : Chip) {b : Nat} (hb : b < 4) :
    c.enterTransparent.branch b = { Branch.reset with input := (c.branch b).input, timing := .stopped } := by
  have stopped : c.enterTransparent.branches =
      (c.hardReset c.part.strap c.part.cause).branches.map fun r => { r with timing := .stopped } := rfl
  have reset := c.hardReset_branch c.part.strap c.part.cause hb
  rw [Chip.branch, vget, Vector.getElem?_eq_getElem hb, Option.getD_some] at reset
  rw [Chip.branch, stopped, vget, Vector.getElem?_eq_getElem hb, Option.getD_some, Vector.getElem_map, reset]

/-- A part that has just entered TRANSPARENT has nothing to select. -/
theorem Chip.quiet_enterTransparent (c : Chip) : c.enterTransparent.quiet = true := by
  have branches : (List.range 4).all c.enterTransparent.quietBranch = true := by
    simp only [List.all_eq_true, List.mem_range]
    exact fun b hb => Chip.quietBranch_silent rfl (congrArg Branch.link (c.enterTransparent_branch hb))
  rw [Chip.quiet, branches]
  rfl

theorem Chip.modeSet_invalid {c : Chip} {addr : BitVec 13} (invalid : modeValid addr = false)
    (watching : c.part.state = .fill ∨ c.part.state = .running ∨ c.part.state = .configFault) :
    c.modeSet addr = c.enterTransparent := by
  unfold Chip.modeSet
  rw [invalid]
  obtain state | state | state := watching <;> rw [state] <;> rfl

/-- Where no burst is in progress a clock transfers nothing. -/
theorem State.passClock_none {s : State} (noBurst : s.chip.path.burst = none) : s.passClock = s := by
  have idle : s.chip.burstDone = false := by rw [Chip.burstDone, noBurst]
  have word : s.transferWord = s := by rw [State.transferWord, noBurst]
  unfold State.passClock State.transferWords
  rw [forIndices_succ, forIndices_zero, idle]
  simp only [word, idle, Bool.false_eq_true, if_false]

/-- Settles O11: the part enters TRANSPARENT with nothing left to select, and no burst goes on. -/
theorem invalidModeSetSilencesThePart : Obligations.InvalidModeSetSilencesThePart := by
  intro addr bank s ⟨free, noBurst⟩ watching invalid
  have chip : ((s.forward (.modeSet addr bank)).act fun c => c.modeSet addr).chip = s.chip.enterTransparent := by
    have mode : s.chip.modeSet addr = s.chip.enterTransparent := Chip.modeSet_invalid invalid watching
    have forwarded : (s.forward (.modeSet addr bank)).chip = s.chip := rfl
    rw [State.act_chip, forwarded, mode, Chip.settle_quiet _ s.chip.quiet_enterTransparent]
  have path : s.chip.enterTransparent.path = { s.chip.path with mark := none } := by
    have kept : s.chip.path.burst.map Burst.unwatched = s.chip.path.burst := by rw [noBurst]; rfl
    have entered : s.chip.enterTransparent.path =
        { s.chip.path with mark := none, burst := s.chip.path.burst.map Burst.unwatched } := rfl
    rw [entered, kept]
  have run : exec (.modeSet addr bank) s =
      .next ((s.forward (.modeSet addr bank)).act fun c => c.modeSet addr) := by
    have host : s.hostBus = true := bne_iff_ne.mpr free
    have meaning : exec (.modeSet addr bank) s = execModeSet addr bank s := rfl
    have ended : ((s.forward (.modeSet addr bank)).act fun c => c.modeSet addr).chip.path.burst = none := by
      rw [chip, path]; exact noBurst
    rw [meaning, execModeSet, State.onBus, if_pos host, State.passClock_none ended]
  refine ⟨_, run, ?_, ?_, ?_, ?_, ?_, ?_, ?_, ?_, ?_⟩
  · rw [chip]; rfl
  · rw [chip]; rfl
  · rw [BlocksReset, chip]
    exact ⟨rfl, rfl, rfl, rfl, rfl, fun b hb => s.chip.enterTransparent_branch hb, rfl, rfl, rfl, rfl, rfl, rfl, rfl,
      rfl, rfl⟩
  · rw [chip, path]
  · rw [chip]; rfl
  · rw [chip]; rfl
  · rw [State.act_lines]; rfl
  · rw [State.act_array]; rfl
  · rw [State.act_pending]; rfl

/-! ### Frames sent and discarded (R42, R43, R62, R94, R95) -/

/-- An operation that changes nothing of a settled state changes nothing. -/
theorem State.act_same {s : State} {f : Chip → Chip} (settled : Settled s) (same : f s.chip = s.chip) :
    s.act f = s := by
  have chip : (f s.chip).settle = s.chip := by rw [same, Chip.settle_quiet _ settled]
  rw [State.act, State.onChip, chip]
  rfl

/-- An operation that leaves a part with nothing to select makes of it just what it makes. -/
theorem State.act_quiet {s : State} {f : Chip → Chip} (quiet : (f s.chip).quiet = true) :
    (s.act f).chip = f s.chip := by rw [State.act_chip, Chip.settle_quiet _ quiet]

/-- A link of a settled part that is neither SILENT nor IDLE has an exchange under way (R41). -/
theorem Chip.quiet_holds {c : Chip} {b : Nat} (settled : c.quiet = true) (hb : b < 4)
    (busy : (c.branch b).link = .sending ∨ (c.branch b).link = .listening) : (c.branch b).hold.isSome = true := by
  have quiet := Chip.quiet_branch settled hb
  unfold Chip.quietBranch at quiet
  obtain link | link := busy <;> simpa [link] using quiet

/-- A link with an exchange under way has nothing to select, whatever else of it changes (R41). -/
theorem Chip.quiet_updBranch_held {c : Chip} {b : Nat} {f : Branch → Branch} (settled : c.quiet = true) (hb : b < 4)
    (held : (f (c.branch b)).hold.isSome = true) : (c.updBranch b f).quiet = true := by
  have branches : (List.range 4).all (c.updBranch b f).quietBranch = true := by
    simp only [List.all_eq_true, List.mem_range]
    intro k hk
    by_cases at_b : k = b
    · subst at_b
      exact Chip.quietBranch_held (by rwa [Chip.updBranch_branch _ _ hb])
    · have same : (c.updBranch b f).quietBranch k = c.quietBranch k :=
        SameUnits.quietBranch (c := c) (d := c.updBranch b f) (.of_elements rfl) rfl
          (c.updBranch_branch_other f at_b)
      rw [same]
      exact Chip.quiet_branch settled hk
  simp only [Chip.quiet, Bool.and_eq_true] at settled ⊢
  obtain ⟨⟨⟨-, rack⟩, orders⟩, engine⟩ := settled
  exact ⟨⟨⟨branches, rack⟩, orders⟩, engine⟩

/-- A rack link with an exchange under way has nothing to select (R93). -/
theorem Chip.quiet_setRack_held {c : Chip} {x : Rack} (settled : c.quiet = true) (held : x.hold.isSome = true) :
    (c.setRack x).quiet = true := by
  have rack : (c.setRack x).quietRack = true := by rw [Chip.quietRack, Chip.setRack_rack, held]; rfl
  have rest : (List.range 4).all (c.setRack x).quietBranch = (List.range 4).all c.quietBranch := rfl
  simp only [Chip.quiet, Bool.and_eq_true] at settled ⊢
  obtain ⟨⟨⟨branches, -⟩, orders⟩, engine⟩ := settled
  exact ⟨⟨⟨rest.trans branches, rack⟩, orders⟩, engine⟩

theorem Chip.quiet_rackHolds {c : Chip} (settled : c.quiet = true)
    (busy : c.rack.link = .sending ∨ c.rack.link = .listening) : c.rack.hold.isSome = true := by
  have quiet := Chip.quiet_rack settled
  unfold Chip.quietRack at quiet
  obtain link | link := busy <;> simpa [link] using quiet

/-- An operation of a part ready for it that leaves nothing to select: the next state, its outside as before. -/
theorem State.actIf_quiet {s : State} {ready : Chip → Bool} {f : Chip → Chip} (h : ready s.chip = true)
    (quiet : (f s.chip).quiet = true) : (s.actIf ready f).chip = f s.chip ∧ SameOutside s (s.actIf ready f) := by
  rw [State.actIf_ready h]
  exact ⟨State.act_quiet quiet, s.act_outside f⟩

/-- Bytes that arrive on a link that is not LISTENING, or for a discarded exchange, change nothing (R43, R62). -/
theorem exec_branchReplyReceived_unread {s : State} (b : Fin 4) (bytes : List Byte) (settled : Settled s)
    (unread : (s.chip.branch b).link = .listening → s.chip.branchReceives b bytes = s.chip) :
    exec (.branchReplyReceived b bytes) s = .next s := by
  have run : exec (.branchReplyReceived b bytes) s =
      .next (s.actIf (Chip.listening b) fun c => c.branchReceives b bytes) := rfl
  rw [run]
  cases listens : s.chip.listening b with
  | false => rw [State.actIf_idle listens]
  | true => rw [State.actIf_ready listens, State.act_same settled (unread (beq_iff_eq.mp listens))]

theorem Chip.branchReceives_discarded {c : Chip} {b : Nat} {x : Exchange} (bytes : List Byte)
    (hold : (c.branch b).hold = some x) (discard : x.discard = true) : c.branchReceives b bytes = c := by
  rw [Chip.branchReceives, hold]
  exact if_pos discard

/-- The events of a branch link's frames (R42, R43, R62). -/
theorem branchFramesSentAndRejected (b : Fin 4) {s : State} (settled : Settled s) :
    ((s.chip.branch b).link = .sending → ∃ t, exec (.branchFrameSent b) s = .next t
        ∧ t.chip = s.chip.updBranch b (fun r => { r with link := .listening }) ∧ SameOutside s t)
      ∧ ((s.chip.branch b).link ≠ .sending → exec (.branchFrameSent b) s = .next s)
      ∧ ((s.chip.branch b).link = .listening → (∀ x, (s.chip.branch b).hold = some x → x.discard = false) →
        ∃ t, exec (.branchFrameRejected b) s = .next t
          ∧ t.chip = s.chip.updBranch b (fun r => { r with rejected := r.rejected + 1 }) ∧ SameOutside s t)
      ∧ (∀ x, (s.chip.branch b).hold = some x → x.discard = true → exec (.branchFrameRejected b) s = .next s
        ∧ ∀ bytes, exec (.branchReplyReceived b bytes) s = .next s)
      ∧ ((s.chip.branch b).link ≠ .listening → exec (.branchFrameRejected b) s = .next s
        ∧ ∀ bytes, exec (.branchReplyReceived b bytes) s = .next s) := by
  have hb : b.val < 4 := b.isLt
  have rejected : exec (.branchFrameRejected b) s =
      .next (s.actIf (fun c => c.listening b && c.readsReplies b) fun c => c.rejectFrame b) := rfl
  refine ⟨fun sending => ⟨_, rfl, ?_⟩, fun other => ?_, fun listening reads => ?_, fun x hold discard => ⟨?_, ?_⟩,
    fun other => ⟨?_, ?_⟩⟩
  · exact State.actIf_quiet (f := fun c => c.hearReplies b) (beq_iff_eq.mpr sending)
      (Chip.quiet_updBranch_held settled hb (Chip.quiet_holds settled hb (.inl sending)))
  · exact congrArg Host.Outcome.next (State.actIf_idle (ready := Chip.sending b) (beq_eq_false_iff_ne.mpr other) _)
  · obtain ⟨x, hold⟩ := Option.isSome_iff_exists.mp (Chip.quiet_holds settled hb (.inr listening))
    have ready : (s.chip.listening b && s.chip.readsReplies b) = true := by
      rw [Chip.listening, Chip.readsReplies, hold, listening]
      simpa using reads x hold
    rw [rejected]
    exact ⟨_, rfl, State.actIf_quiet (ready := fun c => c.listening b && c.readsReplies b)
      (f := fun c => c.rejectFrame b) ready
      (Chip.quiet_updBranch_held settled hb (Chip.quiet_holds settled hb (.inr listening)))⟩
  · have deaf : (s.chip.listening b && s.chip.readsReplies b) = false := by
      rw [Chip.readsReplies, hold]
      simp only [discard, Bool.not_true, Bool.and_false]
    rw [rejected, State.actIf_idle (ready := fun c => c.listening b && c.readsReplies b) deaf]
  · exact fun bytes => exec_branchReplyReceived_unread b bytes settled fun _ =>
      Chip.branchReceives_discarded bytes hold discard
  · have deaf : (s.chip.listening b && s.chip.readsReplies b) = false := by
      rw [Chip.listening, beq_eq_false_iff_ne.mpr other]
      rfl
    rw [rejected, State.actIf_idle (ready := fun c => c.listening b && c.readsReplies b) deaf]
  · exact fun bytes => exec_branchReplyReceived_unread b bytes settled fun listening => absurd listening other

/-- Settles O33: a link on which a frame is under way has an exchange in its holding stage, so nothing follows. -/
theorem framesSentAndRejected : Obligations.FramesSentAndRejected := by
  refine ⟨fun b s settled => branchFramesSentAndRejected b settled, fun s settled =>
    ⟨fun sending => ⟨_, rfl, ?_⟩, fun other => ?_, fun listening => ⟨_, rfl, ?_⟩, fun other => ⟨?_, fun bytes => ?_⟩⟩⟩
  · exact State.actIf_quiet (f := fun c => c.setRack { c.rack with link := .listening }) (beq_iff_eq.mpr sending)
      (Chip.quiet_setRack_held settled (Chip.quiet_rackHolds settled (.inl sending)))
  · exact congrArg Host.Outcome.next (State.actIf_idle (ready := Chip.rackSending) (beq_eq_false_iff_ne.mpr other) _)
  · exact State.actIf_quiet (f := fun c => c.setRack { c.rack with rejected := c.rack.rejected + 1 })
      (beq_iff_eq.mpr listening)
      (Chip.quiet_setRack_held settled (Chip.quiet_rackHolds settled (.inr listening)))
  · exact congrArg Host.Outcome.next (State.actIf_idle (ready := Chip.rackListening) (beq_eq_false_iff_ne.mpr other) _)
  · exact congrArg Host.Outcome.next (State.actIf_idle (ready := Chip.rackListening) (beq_eq_false_iff_ne.mpr other) _)

end Sys2Proof.Machine

namespace Sys2Proof.Machine

/-! ### Unconfirming a port (R47, R53, R54, R63) -/

theorem Chip.updPort_port (c : Chip) {p : Nat} (f : Port → Port) (hp : p < 2560) :
    (c.updPort p f).port p = f (c.port p) := vget_vupd_same c.ports p f hp

theorem Chip.copySummary_port (c : Chip) (p q : Nat) : (c.copySummary p).port q = c.port q :=
  Chip.port_eq_of_reaches (c.copySummary_reaches p) (by decide) q
theorem Chip.copySummary_branches (c : Chip) (p : Nat) : (c.copySummary p).branches = c.branches :=
  c.copySummary_reaches p .branches (by decide)
theorem Chip.makeDirty_port (c : Chip) {p : Nat} (hp : p < 2560) :
    (c.makeDirty p).port p = { c.port p with condition := .dirty } := c.updPort_port _ hp
theorem Chip.makeDirty_port_other (c : Chip) {p q : Nat} (other : q ≠ p) : (c.makeDirty p).port q = c.port q :=
  c.updPort_port_other other _

/-- The elements decide on which branch's list a port joins. -/
theorem Chip.makeDirty_branches_congr {c d : Chip} {p : Nat} (elements : d.elements = c.elements)
    (branches : d.branches = c.branches) : (d.makeDirty p).branches = (c.makeDirty p).branches := by
  have home : d.portBranch p = c.portBranch p := by rw [Chip.portBranch, Chip.branchOf, elements]; rfl
  have made (e : Chip) : (e.makeDirty p).branches =
      vupd e.branches (e.portBranch p) fun r => { r with dirty := appendNew r.dirty p } := rfl
  rw [made, made, home, branches]

/-- A port that joins its dirty list leaves every link's exchange as it was. -/
theorem Chip.makeDirty_hold (c : Chip) (p k : Nat) : ((c.makeDirty p).branch k).hold = (c.branch k).hold :=
  vget_vupd_kept Branch.hold (f := fun r => { r with dirty := appendNew r.dirty p }) (fun _ => rfl) _ _ _

theorem mem_appendNew_self (l : List Nat) (x : Nat) : x ∈ appendNew l x := by
  unfold appendNew
  split
  · next h => exact List.contains_iff_mem.mp h
  · exact List.mem_append_right l (List.mem_singleton_self x)

/-- A port whose applied state is doubted: an IDLE or STUCK one is DIRTY, the latter with count 0 (R54, R56, R63). -/
def Port.doubted (r : Port) : Port :=
  match r.condition with
  | .idle => { r with confirmed := false, condition := .dirty }
  | .stuck => { r with confirmed := false, mismatch := 0, condition := .dirty }
  | .dirty => { r with confirmed := false }
  | .parked => { r with confirmed := false }
  | .inFlight => { r with confirmed := false }

/-- Does a port that is doubted join its dirty list? -/
def Port.listable (r : Port) : Bool := r.condition == .idle || r.condition == .stuck

theorem Chip.unconfirm_port (c : Chip) {p : Nat} (hp : p < 2560) :
    (c.unconfirm p).port p = { c.port p with confirmed := false } :=
  (Chip.copySummary_port _ p p).trans (c.updPort_port _ hp)
theorem Chip.unconfirm_port_other (c : Chip) {p q : Nat} (other : q ≠ p) : (c.unconfirm p).port q = c.port q :=
  (Chip.copySummary_port _ p q).trans (c.updPort_port_other other _)
theorem Chip.unconfirm_branches (c : Chip) (p : Nat) : (c.unconfirm p).branches = c.branches :=
  Chip.copySummary_branches _ p

/-- A STUCK port that is unconfirmed leaves STUCK for its dirty list: it needs a load (R47, R54). -/
theorem Chip.leaveStuck_unconfirmed {c : Chip} {p : Nat} (hp : p < 2560) (unconfirmed : (c.port p).confirmed = false) :
    c.leaveStuck p =
      ((c.updPort p fun r => { r with mismatch := 0, condition := .idle }).makeDirty p).copySummary p := by
  have port := c.updPort_port (fun r => { r with mismatch := 0, condition := .idle }) hp
  have needs : ({ c.port p with mismatch := 0, condition := .idle } : Port).needsLoad = true := by
    rw [Port.needsLoad]
    exact Bool.or_eq_true_iff.mpr (.inr (by rw [unconfirmed]; rfl))
  unfold Chip.leaveStuck Chip.testPort
  rw [port]
  exact congrArg (fun d : Chip => d.copySummary p) (if_pos needs)

theorem Chip.doubtPort_port (c : Chip) {p : Nat} (hp : p < 2560) : (c.doubtPort p).port p = (c.port p).doubted := by
  unfold Chip.doubtPort Port.doubted
  cases condition : (c.port p).condition with
  | idle => exact (Chip.makeDirty_port _ hp).trans (by rw [c.unconfirm_port hp])
  | stuck =>
    have unconfirmed := c.updPort_port (fun r => { r with confirmed := false }) hp
    have left := Chip.leaveStuck_unconfirmed (c := c.updPort p fun r => { r with confirmed := false }) hp
      (by rw [unconfirmed])
    dsimp only
    rw [left, Chip.copySummary_port, Chip.makeDirty_port _ hp, Chip.updPort_port _ _ hp, unconfirmed]
  | dirty | parked | inFlight =>
    dsimp only
    exact (c.unconfirm_port hp).trans (by rw [← condition])

theorem Chip.doubtPort_port_other (c : Chip) {p q : Nat} (other : q ≠ p) : (c.doubtPort p).port q = c.port q := by
  unfold Chip.doubtPort
  cases (c.port p).condition with
  | idle => exact (Chip.makeDirty_port_other _ other).trans (c.unconfirm_port_other other)
  | stuck => exact (Chip.leaveStuck_port_other _ other).trans (c.updPort_port_other other _)
  | dirty | parked | inFlight => exact c.unconfirm_port_other other

/-- A doubted port joins its branch's dirty list, or no list changes. -/
theorem Chip.doubtPort_branches (c : Chip) {p : Nat} (hp : p < 2560) :
    (c.doubtPort p).branches = if (c.port p).listable then (c.makeDirty p).branches else c.branches := by
  unfold Chip.doubtPort Port.listable
  cases (c.port p).condition with
  | idle =>
    exact Chip.makeDirty_branches_congr (c.unconfirm_reaches p .elements (by decide)) (c.unconfirm_branches p)
  | stuck =>
    have unconfirmed := c.updPort_port (fun r => { r with confirmed := false }) hp
    have left := Chip.leaveStuck_unconfirmed (c := c.updPort p fun r => { r with confirmed := false }) hp
      (by rw [unconfirmed])
    dsimp only
    rw [left, Chip.copySummary_branches]
    exact Chip.makeDirty_branches_congr rfl rfl
  | dirty | parked | inFlight => exact c.unconfirm_branches p

/-! ### RESEND (R63) -/

/-- An order of the store's, in the working copy of a part that stands at its turn. -/
theorem storeOrder_eq {s : State} {o : Order} (taken : OrderTaken s o) {kind : Nat} (hk : o.kind = kind)
    (turn : s.chip.orderTurn = true) (f : Chip → Order → Chip) :
    s.storeOrder kind f = .next (s.act fun c => f c.orderServed o) := by
  obtain ⟨-, work, -, -⟩ := taken
  have found : s.chip.workOf kind = some o := by rw [Chip.workOf, work]; simp [hk]
  rw [State.storeOrder, found]
  exact congrArg Host.Outcome.next (State.actIf_ready turn _)

/-- An order of the store's refused with nothing else done but the store's turn (R120, R151). -/
theorem orderRefused_of_served {s t : State} {o : Order} {code : OutcomeCode} (quiet : Settled s)
    (taken : OrderTaken s o) (ht : t.chip = (s.chip.orderServed.finishOrder code).settle) (outside : SameOutside s t) :
    OrderRefused s t code :=
  orderRefused_of_finishOrder (s := s.onChip Chip.orderServed) quiet taken ht outside

theorem exec_resend_eq {s : State} {o : Order} (taken : OrderTaken s o) (hk : o.kind = 4)
    (turn : s.chip.orderTurn = true) :
    exec .resend s = .next (s.act fun c =>
      c.orderServed.decideOrder (c.orderServed.checkResend o) fun c => c.resendPort o) :=
  storeOrder_eq taken hk turn fun c o => c.decideOrder (c.checkResend o) fun c => c.resendPort o

theorem resend_refused {s : State} {o : Order} {code : OutcomeCode} (quiet : Settled s) (taken : OrderTaken s o)
    (hk : o.kind = 4) (turn : s.chip.orderTurn = true) (refused : s.chip.orderServed.checkResend o = some code) :
    ∃ t, exec .resend s = .next t ∧ OrderRefused s t code := by
  rw [exec_resend_eq taken hk turn]
  refine ⟨_, rfl, orderRefused_of_served quiet taken ?_ (s.act_outside _)⟩
  rw [State.act_chip, refused]
  rfl

theorem Chip.checkResend_past {c : Chip} {o : Order} (past : 2047 < o.index) : c.checkResend o = some .indexRange :=
  if_pos past

theorem Chip.checkResend_unserved {c : Chip} {o : Order} (within : o.index < 2048)
    (unserved : ((c.sub o.index).live.state ≠ .active ∧ (c.sub o.index).live.state ≠ .suspended)
      ∨ (c.sub o.index).live.owned = none) : c.checkResend o = some .notInService := by
  rw [Chip.checkResend, if_neg (Nat.not_le.mpr within)]
  refine if_pos ?_
  obtain ⟨notActive, notSuspended⟩ | unowned := unserved
  · cases state : (c.sub o.index).live.state <;> simp_all [RecordState.inUse]
  · simp [Chip.ownedPort, unowned]

theorem Chip.checkResend_served {c : Chip} {o : Order} {p : Nat} (within : o.index < 2048)
    (served : (c.sub o.index).live.state = .active ∨ (c.sub o.index).live.state = .suspended)
    (owned : c.ownedPort o.index = some p) : c.checkResend o = none := by
  rw [Chip.checkResend, if_neg (Nat.not_le.mpr within), owned]
  refine if_neg ?_
  obtain state | state := served <;> rw [state] <;> exact Bool.false_ne_true

/-- A doubt of port p leaves every other branch link as it was, and the exchange on every link. -/
theorem Chip.doubtPort_hold (c : Chip) {p : Nat} (hp : p < 2560) (k : Nat) :
    ((c.doubtPort p).branch k).hold = (c.branch k).hold := by
  rw [Chip.branch, c.doubtPort_branches hp]
  split
  · exact c.makeDirty_hold p k
  · rfl
theorem Chip.doubtPort_branch_other (c : Chip) {p k : Nat} (hp : p < 2560) (other : k ≠ c.portBranch p) :
    (c.doubtPort p).branch k = c.branch k := by
  rw [Chip.branch, c.doubtPort_branches hp]
  split
  · exact vget_vupd_other _ _ _ _ other
  · rfl

/-- A doubted port of a branch with an exchange under way waits: no link selects (R41). -/
theorem Chip.doubtPort_quietBranch {c : Chip} {p : Nat} (quiet : c.quiet = true) (hp : p < 2560)
    (held : (c.branch (c.portBranch p)).hold.isSome = true) {k : Nat} (hk : k < 4) :
    (c.doubtPort p).quietBranch k = true := by
  by_cases home : k = c.portBranch p
  · subst home
    exact Chip.quietBranch_held (by rwa [c.doubtPort_hold hp])
  · have reach := c.doubtPort_reaches p
    rw [(SameUnits.of_reaches reach (by decide)).quietBranch (Chip.running_congr (reach.part (by decide)))
      (c.doubtPort_branch_other hp home)]
    exact Chip.quiet_branch quiet hk

/-- RESEND of an owned port whose branch has an exchange under way (R63). -/
theorem resend_done {s : State} {o : Order} {p : Nat} (quiet : Settled s) (taken : OrderTaken s o) (hk : o.kind = 4)
    (turn : s.chip.orderTurn = true) (within : o.index < 2048)
    (served : (s.chip.sub o.index).live.state = .active ∨ (s.chip.sub o.index).live.state = .suspended)
    (owned : s.chip.ownedPort o.index = some p) (hp : p < 2560)
    (held : (s.chip.branch (s.chip.portBranch p)).hold.isSome = true) :
    ∃ t, exec .resend s = .next t ∧ OrderFinished s t .done
      ∧ t.chip.ports = (s.chip.orderServed.doubtPort p).ports
      ∧ t.chip.branches = (s.chip.orderServed.doubtPort p).branches
      ∧ t.chip.journal = s.chip.journal ∧ t.chip.rack = s.chip.rack ∧ SameSupervision s t ∧ SameTime s t
      ∧ SameLineUp s t ∧ SameBus s t ∧ SameOutside s t := by
  let c := s.chip.orderServed
  have doubted := c.doubtPort_reaches p
  have done : Reaches [.store, .subs, .ports, .branches, .orders] s.chip ((c.doubtPort p).finishOrder .done) :=
    ((s.chip.orderServed_reaches.then (by rfl) doubted (bs := [.store, .subs, .ports, .branches])).then (by rfl)
      (Chip.finishOrder_reaches _ _))
  have chip : (s.act fun c => c.orderServed.decideOrder (c.orderServed.checkResend o) fun c => c.resendPort o).chip =
      ((c.doubtPort p).finishOrder .done).settle := by
    have accepted : c.checkResend o = none := Chip.checkResend_served (c := c) within served owned
    have port : c.resendPort o = c.doubtPort p := by
      have mine : c.ownedPort o.index = some p := owned
      rw [Chip.resendPort, mine]
    rw [State.act_chip, accepted, Chip.decideOrder, port]
  have outside := s.act_outside fun c => c.orderServed.decideOrder (c.orderServed.checkResend o) fun c => c.resendPort o
  refine ⟨_, exec_resend_eq taken hk turn, ?_⟩
  generalize (s.act fun c => c.orderServed.decideOrder (c.orderServed.checkResend o) fun c => c.resendPort o) = t
    at chip outside ⊢
  have links := Chip.settle_ports_branches (c := (c.doubtPort p).finishOrder .done) fun k hk =>
    Chip.doubtPort_quietBranch (c := c) quiet hp held hk
  rw [← chip] at links
  have rack : t.chip.rack = s.chip.rack := by
    rw [chip]
    exact Chip.settle_rack_of_running quiet taken.1 (done .rack (by decide))
  have journal : t.chip.journal = s.chip.journal := by
    rw [chip, Chip.settle_journal]
    exact done .journal (by decide)
  exact ⟨orderFinished_of_finishOrder taken (doubted.orders (by decide)) (doubted.part (by decide)) chip, links.1,
    links.2, journal, rack, sameSupervision_of_reaches done chip (by decide), sameTime_of_reaches done chip (by decide),
    sameLineUp_of_reaches done chip (by decide),
    sameBus_of_settle chip done (by decide) (by decide) (by decide) (by decide), outside⟩

/-- Settles O53: the checks refuse, or the owned port is doubted while its branch has an exchange under way. -/
theorem resendDoubtsThePort : Obligations.ResendDoubtsThePort := by
  intro o s quiet taken hk turn
  refine ⟨fun past => resend_refused quiet taken hk turn (Chip.checkResend_past past),
    fun within unserved => resend_refused quiet taken hk turn
      (Chip.checkResend_unserved (c := s.chip.orderServed) within unserved),
    fun p b within served owned hp home hb held => ?_⟩
  subst home
  obtain ⟨t, run, finished, ports, branches, journal, rack, supervision, time, lineUp, bus, outside⟩ :=
    resend_done quiet taken hk turn within served owned hp held
  have port : t.chip.port p = (s.chip.port p).doubted := by
    rw [Chip.port, ports]; exact s.chip.orderServed.doubtPort_port hp
  have lists : t.chip.branches =
      if (s.chip.port p).listable then (s.chip.orderServed.makeDirty p).branches else s.chip.branches := by
    rw [branches]; exact s.chip.orderServed.doubtPort_branches hp
  refine ⟨t, run, finished, ?_, fun listable => ⟨?_, ?_⟩, fun stuck => ?_, fun stays => ⟨?_, ?_⟩, fun q other => ?_,
    journal, rack, supervision, time, lineUp, bus, outside⟩
  · rw [port, Port.doubted]
    cases (s.chip.port p).condition <;> rfl
  · rw [port, Port.doubted]
    obtain condition | condition := listable <;> rw [condition]
  · have joins : (s.chip.port p).listable = true := by
      rw [Port.listable]
      obtain condition | condition := listable <;> rw [condition] <;> rfl
    rw [Chip.branch, lists, if_pos joins]
    have joined := s.chip.orderServed.updBranch_branch (fun r => { r with dirty := appendNew r.dirty p }) hb
    have member : p ∈ ((s.chip.orderServed.makeDirty p).branch (s.chip.branchOf (p / 4))).dirty := by
      refine (congrArg (fun r : Branch => p ∈ r.dirty) joined).mpr (mem_appendNew_self _ p)
    exact member
  · rw [port, Port.doubted, stuck]
  · rw [port, Port.doubted]
    obtain condition | condition | condition := stays <;> rw [condition]
  · have rests : (s.chip.port p).listable = false := by
      rw [Port.listable]
      obtain condition | condition | condition := stays <;> rw [condition] <;> rfl
    rw [lists, if_neg (by rw [rests]; exact Bool.false_ne_true)]
  · rw [Chip.port, ports]
    exact s.chip.orderServed.doubtPort_port_other other

end Sys2Proof.Machine

namespace Sys2Proof.Machine

/-! ### The carrier and the counts of a branch link, which the supervision of its elements keeps (R44, R60) -/

/-- The carrier of a branch link with its timer, and its exchange counts. -/
structure Meters where
  carrier : Carrier
  input : Bool
  timing : CarrierTimer
  exchanges : Word
  unanswered : Word
  rejected : Word

/-- The carrier and the counts of a branch link. -/
def Branch.meters (r : Branch) : Meters :=
  { carrier := r.carrier, input := r.input, timing := r.timing, exchanges := r.exchanges, unanswered := r.unanswered
    rejected := r.rejected }

/-- Every branch link has the same carrier and counts in two parts. -/
def SameMeters (c d : Chip) : Prop := ∀ k, (d.branch k).meters = (c.branch k).meters

theorem SameMeters.refl (c : Chip) : SameMeters c c := fun _ => rfl
theorem SameMeters.trans {c d e : Chip} (h : SameMeters c d) (h' : SameMeters d e) : SameMeters c e :=
  fun k => (h' k).trans (h k)
theorem SameMeters.ite {c d e : Chip} {p : Prop} [Decidable p] (h : SameMeters c d) (h' : SameMeters c e) :
    SameMeters c (if p then d else e) := by split <;> assumption
theorem SameMeters.loop {f : Chip → Nat → Chip} (hf : ∀ c k, SameMeters c (f c k)) (n : Nat) (c : Chip) :
    SameMeters c (forIndices n f c) :=
  forIndices_keeps (P := SameMeters c) n (.refl c) fun d k _ h => h.trans (hf d k)
theorem SameMeters.of_reaches {bs : List Block} {c d : Chip} (h : Reaches bs c d) (hb : Block.branches ∉ bs) :
    SameMeters c d := fun k => by rw [Chip.branch, h.branches hb]; rfl

theorem Chip.updBranch_meters (c : Chip) (b : Nat) {f : Branch → Branch} (hf : ∀ r, (f r).meters = r.meters) :
    SameMeters c (c.updBranch b f) := fun k => vget_vupd_kept Branch.meters hf c.branches b k

theorem Chip.makeDirty_meters (c : Chip) (p : Nat) : SameMeters c (c.makeDirty p) :=
  Chip.updBranch_meters (c.updPort p fun r => { r with condition := .dirty }) _ fun _ => rfl
theorem Chip.offDirty_meters (c : Chip) (p : Nat) : SameMeters c (c.offDirty p) :=
  .loop (f := fun d b => d.updBranch b fun r => { r with dirty := r.dirty.filter (· != p) })
    (fun d b => d.updBranch_meters b fun _ => rfl) 4 c
theorem Chip.copySummary_meters (c : Chip) (p : Nat) : SameMeters c (c.copySummary p) :=
  .of_reaches (c.copySummary_reaches p) (by decide)
theorem Chip.setCondition_meters (c : Chip) (p : Nat) (k : PortCondition) : SameMeters c (c.setCondition p k) :=
  fun _ => rfl
theorem Chip.testPort_meters (c : Chip) (p : Nat) : SameMeters c (c.testPort p) := by
  unfold Chip.testPort
  split
  · exact .ite (c.makeDirty_meters p) (.refl c)
  · exact .ite (.refl c) ((c.offDirty_meters p).trans (Chip.setCondition_meters _ p _))
  all_goals exact .refl c
theorem Chip.leaveStuck_meters (c : Chip) (p : Nat) : SameMeters c (c.leaveStuck p) :=
  (Chip.testPort_meters (c.updPort p fun r => { r with mismatch := 0, condition := .idle }) p).trans
    (Chip.copySummary_meters _ p)
theorem Chip.recompute_meters (c : Chip) (p : Nat) : SameMeters c (c.recompute p) := by
  unfold Chip.recompute
  exact .ite (.refl c) (.ite (Chip.leaveStuck_meters (c.updPort p _) p) (Chip.testPort_meters (c.updPort p _) p))
theorem Chip.recomputeOwned_meters (c : Chip) (i : Nat) : SameMeters c (c.recomputeOwned i) := by
  unfold Chip.recomputeOwned
  split
  · exact c.recompute_meters _
  · exact .refl c
theorem Chip.unconfirm_meters (c : Chip) (p : Nat) : SameMeters c (c.unconfirm p) :=
  Chip.copySummary_meters (c.updPort p fun r => { r with confirmed := false }) p
theorem Chip.doubtPort_meters (c : Chip) (p : Nat) : SameMeters c (c.doubtPort p) := by
  unfold Chip.doubtPort
  split
  · exact (c.unconfirm_meters p).trans (Chip.makeDirty_meters _ p)
  · exact Chip.leaveStuck_meters (c.updPort p fun r => { r with confirmed := false }) p
  all_goals exact c.unconfirm_meters p
theorem Chip.unparkPort_meters (c : Chip) (p : Nat) : SameMeters c (c.unparkPort p) := by
  have doubted := Chip.copySummary_meters (c.updPort p fun r => { r with confirmed := false, mismatch := 0 }) p
  have listed := doubted.trans (Chip.makeDirty_meters _ p)
  unfold Chip.unparkPort
  dsimp only
  split
  · exact doubted
  · exact listed
  · exact listed
  · exact listed
  · exact listed.trans (Chip.copySummary_meters _ p)
theorem Chip.unparkElement_meters (c : Chip) (e : Nat) : SameMeters c (c.unparkElement e) := by
  unfold Chip.unparkElement
  exact .ite (.loop (fun d k => d.unparkPort_meters (e * 4 + k)) 4 c) (.refl c)
theorem Chip.report_meters (c : Chip) (p : Nat) (st : PortState) : SameMeters c (c.report p st) := by
  have copied := c.copySummary_meters p
  unfold Chip.report
  split
  · exact .refl c
  dsimp only
  split
  · refine .ite copied (copied.trans ?_)
    exact (SameMeters.of_reaches (Chip.updLive_reaches _ _ _) (by decide)).trans (Chip.recomputeOwned_meters _ _)
  · exact .ite (copied.trans (.of_reaches (Chip.resolveOff_reaches _ _) (by decide))) copied
theorem Chip.settleAnswered_meters (c : Chip) (p : Nat) (st : PortState) : SameMeters c (c.settleAnswered p st) := by
  unfold Chip.settleAnswered
  dsimp only
  refine SameMeters.trans ?_ (Chip.report_meters _ p st)
  refine .ite (.ite (Chip.testPort_meters ((c.updPort p _).setCondition p .idle) p) ?_)
    (Chip.setCondition_meters (c.updPort p _) p _)
  exact SameMeters.trans (d := (c.updPort p _).setCondition p .stuck) (fun _ => rfl)
    (.of_reaches (Chip.noticeOf_reaches _ _ _) (by decide))
theorem Chip.settleUnanswered_meters (c : Chip) (p : Nat) : SameMeters c (c.settleUnanswered p) := by
  unfold Chip.settleUnanswered
  dsimp only
  exact SameMeters.trans (.ite (Chip.makeDirty_meters (c.updPort p _) p)
    (Chip.setCondition_meters (c.updPort p _) p _)) (Chip.copySummary_meters _ p)
theorem Chip.repollAppend_meters (c : Chip) (e : Nat) : SameMeters c (c.repollAppend e) :=
  c.updBranch_meters _ fun _ => rfl
theorem Chip.closeOf_meters (c : Chip) (k : OutageKind) (o : Nat) (p : OutageState → Bool) (w : CloseCause) :
    SameMeters c (c.closeOf k o p w) := .of_reaches (c.closeOf_reaches k o p w) (by decide)
theorem Chip.enterAnswering_meters (c : Chip) (e : Nat) : SameMeters c (c.enterAnswering e) :=
  .of_reaches (c.enterAnswering_reaches e) (by decide)
theorem Chip.verifyElement_meters (c : Chip) (e : Nat) : SameMeters c (c.verifyElement e) :=
  ((c.enterAnswering_meters e).trans (Chip.unparkElement_meters _ e)).trans (Chip.closeOf_meters _ _ _ _ _)
theorem Chip.freshen_meters (c : Chip) (x : Nat) : SameMeters c (c.freshen x) :=
  Chip.repollAppend_meters (c.updSup x fun _ => SupRecord.fresh) x
theorem Chip.releaseBelow_meters (c : Chip) (e : Nat) : SameMeters c (c.releaseBelow e) :=
  .loop (fun d x => .ite (d.freshen_meters x) (.refl d)) 640 c
theorem Chip.recoverElement_meters (c : Chip) (e : Nat) : SameMeters c (c.recoverElement e) :=
  (((c.enterAnswering_meters e).trans (Chip.closeOf_meters _ _ _ _ _)).trans (Chip.releaseBelow_meters _ e)).trans
    (Chip.unparkElement_meters _ e)

/-! ### What becomes of ports and dirty lists where an element fails (R52, R79) -/

/-- From c to d nothing joins a dirty list, and a port IN FLIGHT stays as it is; carriers and counts stand. -/
structure Parks (c d : Chip) : Prop where
  lists : ∀ k, (d.branch k).dirty ⊆ (c.branch k).dirty
  flying : ∀ p, (c.port p).condition = .inFlight → d.port p = c.port p
  meters : SameMeters c d

section
variable {c d e : Chip}

theorem Parks.refl (c : Chip) : Parks c c := ⟨fun _ => List.Subset.refl _, fun _ _ => rfl, .refl c⟩
theorem Parks.trans (h : Parks c d) (h' : Parks d e) : Parks c e :=
  ⟨fun k => List.Subset.trans (h'.lists k) (h.lists k), fun p flies =>
    (h'.flying p (by rw [h.flying p flies]; exact flies)).trans (h.flying p flies), h.meters.trans h'.meters⟩
theorem Parks.ite {p : Prop} [Decidable p] (h : Parks c d) (h' : Parks c e) : Parks c (if p then d else e) := by
  split <;> assumption
theorem Parks.loop {f : Chip → Nat → Chip} (hf : ∀ c k, Parks c (f c k)) (n : Nat) (c : Chip) :
    Parks c (forIndices n f c) := forIndices_keeps (P := Parks c) n (.refl c) fun d k _ h => h.trans (hf d k)
theorem Parks.of_reaches {bs : List Block} (h : Reaches bs c d) (hb : Block.ports ∉ bs ∧ Block.branches ∉ bs) :
    Parks c d :=
  ⟨fun k => by rw [Chip.branch, h.branches hb.2, ← Chip.branch]; exact List.Subset.refl _,
    fun p _ => Chip.port_eq_of_reaches h hb.1 p, .of_reaches h hb.2⟩

end

theorem Chip.updBranch_parks (c : Chip) (b : Nat) {f : Branch → Branch} (hf : ∀ r, (f r).meters = r.meters)
    (hd : ∀ r, (f r).dirty ⊆ r.dirty) : Parks c (c.updBranch b f) := by
  refine ⟨fun k => ?_, fun _ _ => rfl, c.updBranch_meters b hf⟩
  by_cases here : k = b
  · subst here
    by_cases hk : k < 4
    · rw [c.updBranch_branch f hk]; exact hd _
    · rw [Chip.updBranch, vupd_outside _ _ (Nat.le_of_not_lt hk)]; exact List.Subset.refl _
  · rw [c.updBranch_branch_other f here]; exact List.Subset.refl _
theorem Chip.setCondition_parks {c : Chip} {p : Nat} (k : PortCondition) (lands : (c.port p).condition ≠ .inFlight) :
    Parks c (c.setCondition p k) := by
  refine ⟨fun _ => List.Subset.refl _, fun q flies => ?_, c.setCondition_meters p k⟩
  have other : q ≠ p := by rintro rfl; exact lands flies
  exact c.updPort_port_other other _
theorem Chip.offDirty_parks (c : Chip) (p : Nat) : Parks c (c.offDirty p) :=
  .loop (f := fun d b => d.updBranch b fun r => { r with dirty := r.dirty.filter (· != p) })
    (fun d b => d.updBranch_parks b (fun _ => rfl) fun _ => List.filter_sublist.subset) 4 c
theorem Chip.offRepoll_parks (c : Chip) (e : Nat) : Parks c (c.offRepoll e) :=
  .loop (f := fun d b => d.updBranch b fun r => { r with repoll := r.repoll.filter (· != e) })
    (fun d b => d.updBranch_parks b (fun _ => rfl) fun r => List.Subset.refl r.dirty) 4 c
theorem Chip.parkPort_parks (c : Chip) (p : Nat) : Parks c (c.parkPort p) := by
  unfold Chip.parkPort
  cases condition : (c.port p).condition with
  | idle => exact Chip.setCondition_parks _ (by rw [condition]; exact PortCondition.noConfusion)
  | dirty =>
    refine (c.offDirty_parks p).trans (Chip.setCondition_parks _ ?_)
    rw [Chip.port_eq_of_reaches (c.offDirty_reaches p) (by decide), condition]
    exact PortCondition.noConfusion
  | stuck =>
    have parked : Parks c (c.setCondition p .parked) :=
      Chip.setCondition_parks _ (by rw [condition]; exact PortCondition.noConfusion)
    exact parked.trans (.of_reaches (Chip.copySummary_reaches _ p) (by decide))
  | parked => exact .refl c
  | inFlight => exact .refl c
theorem Chip.parkElement_parks (c : Chip) (e : Nat) : Parks c (c.parkElement e) :=
  .loop (fun d k => d.parkPort_parks (e * 4 + k)) 4 c
theorem Chip.suppress_parks (c : Chip) (x : Nat) : Parks c (c.suppress x) := by
  have parked := ((Parks.of_reaches (c.updSup_reaches x fun r =>
    { r with state := .suppressed, answered := 0, unanswered := 0 }) (by decide)).trans
      (Chip.offRepoll_parks _ x)).trans (Chip.parkElement_parks _ x)
  unfold Chip.suppress
  dsimp only
  split
  · exact parked.trans (.of_reaches (Chip.updRecord_reaches _ _ _) (by decide))
  · exact parked
theorem Chip.suppressBelow_parks (c : Chip) (e : Nat) : Parks c (c.suppressBelow e) :=
  .loop (fun d x => .ite (d.suppress_parks x) (.refl d)) 640 c
theorem Chip.failElement_parks (c : Chip) (e : Nat) (m : Option Nat) : Parks c (c.failElement e m) := by
  have localised := (((Parks.of_reaches (c.updSup_reaches e fun r => { r with state := .failing, failure := m })
    (by decide)).trans (Chip.parkElement_parks _ e)).trans (Chip.suppressBelow_parks _ e)).trans
      (.of_reaches (Chip.recordFailure_reaches _ e m) (by decide))
  unfold Chip.failElement
  exact .ite (localised.trans (Chip.updBranch_parks _ e (fun _ => rfl) fun r => List.Subset.refl r.dirty)) localised

/-! ### The end of an exchange and the counts (R44) -/

theorem Chip.decideState_meters (c : Chip) (e : Nat) (a j : Bool) : SameMeters c (c.decideState e a j) := by
  have fails := fun m => (c.failElement_parks e m).meters
  unfold Chip.decideState
  dsimp only
  split
  · exact .refl c
  · exact .ite (c.recoverElement_meters e) (.refl c)
  · exact .ite (fails _) (.ite (c.verifyElement_meters e) (.refl c))
  · exact .ite (fails _) (.ite (fails _) (.refl c))
theorem Chip.superviseResult_meters (c : Chip) (e : Nat) (a : Bool) (l : Option Nat) :
    SameMeters c (c.superviseResult e a l) := by
  have counted := fun f => SameMeters.of_reaches (c.updSup_reaches e f) (by decide)
  unfold Chip.superviseResult
  exact .ite (counted _) ((counted _).trans (Chip.decideState_meters _ e _ _))
theorem Chip.handCarrier_meters (c : Chip) (b : Nat) (k : Carrier) : SameMeters c (c.handCarrier b k) := by
  unfold Chip.handCarrier
  split
  · exact c.verifyElement_meters b
  · exact c.recoverElement_meters b
  · exact (c.failElement_parks b _).meters
  · exact (c.failElement_parks b _).meters
  · exact .refl c
theorem Chip.heardUnit_meters (c : Chip) (e : Nat) (n : Byte) : SameMeters c (c.heardUnit e n) :=
  .of_reaches (c.heardUnit_reaches e n) (by decide)
theorem Chip.unitReport_meters (c : Chip) (e : Nat) (f n : Byte) : SameMeters c (c.unitReport e f n) := by
  unfold Chip.unitReport
  exact SameMeters.trans (.ite (.loop (fun d k => d.doubtPort_meters (e * 4 + k)) 4 c) (.refl c))
    (Chip.heardUnit_meters _ e n)
theorem Chip.settleLoad_meters (c : Chip) (e p : Nat) (reply : Option (List Byte)) :
    SameMeters c (c.settleLoad e p reply) := by
  unfold Chip.settleLoad
  split
  · exact (c.settleAnswered_meters p _).trans (Chip.heardUnit_meters _ e _)
  · exact (c.settleUnanswered_meters p).trans (.of_reaches (Chip.updElement_reaches _ e _) (by decide))
theorem Chip.settlePoll_meters (c : Chip) (e : Nat) (reply : Option (List Byte)) :
    SameMeters c (c.settlePoll e reply) := by
  have heard : ∀ d, SameMeters c d →
      SameMeters c (if (d.element e).record.inUse && (d.element e).sup.state == .unverified then d.repollAppend e
        else d) := fun d h => .ite (h.trans (d.repollAppend_meters e)) h
  cases reply with
  | none => exact heard c (.refl c)
  | some pl => exact heard _ (.ite (c.unitReport_meters e _ _) (.refl c))
theorem Chip.handResult_meters (c : Chip) (x : Exchange) (reply : Option (List Byte)) :
    SameMeters c (c.handResult x reply) := by
  unfold Chip.handResult
  split
  · exact (c.superviseResult_meters _ _ _).trans (Chip.settleLoad_meters _ _ _ _)
  · exact (c.superviseResult_meters _ _ _).trans (Chip.settlePoll_meters _ _ _)

/-! ### What the selections make of ports, lists and counts (R41, R46, R49) -/

/-- A port that its branch has taken up: IN FLIGHT, its desired state sent (R46, R49). -/
def Port.loaded (r : Port) : Port := { r with condition := .inFlight, sent := some r.desired }

/-- From c to d branch links have selected: nothing joins a dirty list, a port is as it was or, having stood on a
list, is taken up; carriers and counts stand. -/
structure Selects (c d : Chip) : Prop where
  lists : ∀ k, (d.branch k).dirty ⊆ (c.branch k).dirty
  ports : ∀ p, d.port p = c.port p ∨ ((∃ k, p ∈ (c.branch k).dirty) ∧ d.port p = (c.port p).loaded)
  meters : SameMeters c d

theorem Selects.refl (c : Chip) : Selects c c := ⟨fun _ => List.Subset.refl _, fun _ => .inl rfl, .refl c⟩
theorem Selects.trans {c d e : Chip} (h : Selects c d) (h' : Selects d e) : Selects c e := by
  refine ⟨fun k => List.Subset.trans (h'.lists k) (h.lists k), fun p => ?_, h.meters.trans h'.meters⟩
  obtain first | ⟨⟨k, on⟩, first⟩ := h.ports p
  · obtain second | ⟨⟨k, on⟩, second⟩ := h'.ports p
    · exact .inl (second.trans first)
    · exact .inr ⟨⟨k, h.lists k on⟩, by rw [second, first]⟩
  · refine .inr ⟨⟨k, on⟩, ?_⟩
    obtain second | ⟨-, second⟩ := h'.ports p
    · rw [second, first]
    · rw [second, first]; rfl
theorem Selects.of_reaches {bs : List Block} {c d : Chip} (h : Reaches bs c d)
    (hb : Block.ports ∉ bs ∧ Block.branches ∉ bs) : Selects c d := by
  have parks := Parks.of_reaches h hb
  exact ⟨parks.lists, fun p => .inl (Chip.port_eq_of_reaches h hb.1 p), parks.meters⟩

theorem Chip.updBranch_selects (c : Chip) (b : Nat) {f : Branch → Branch} (hf : ∀ r, (f r).meters = r.meters)
    (hd : ∀ r, (f r).dirty ⊆ r.dirty) : Selects c (c.updBranch b f) :=
  ⟨(c.updBranch_parks b hf hd).lists, fun _ => .inl rfl, c.updBranch_meters b hf⟩

/-- A load takes up the port at the head of the list. -/
theorem Chip.startLoad_selects {c : Chip} {b p : Nat} (listed : p ∈ (c.branch b).dirty) :
    Selects c (c.startLoad b p) := by
  let sent := c.updPort p fun r => { r with condition := .inFlight, sent := some (c.port p).desired }
  have taken : Selects sent (c.startLoad b p) :=
    (sent.updBranch_selects b (f := fun r => { r with dirty := r.dirty.filter (· != p), run := min 8 (r.run + 1) })
      (fun _ => rfl) fun _ => List.filter_sublist.subset).trans (by
        exact Chip.updBranch_selects _ b (fun _ => rfl) fun r => List.Subset.refl r.dirty)
  refine ⟨taken.lists, fun q => ?_, taken.meters⟩
  have ports : (c.startLoad b p).port q = sent.port q := rfl
  rw [ports]
  by_cases here : q = p
  · subst here
    by_cases hq : q < 2560
    · exact .inr ⟨⟨b, listed⟩, c.updPort_port _ hq⟩
    · have same : sent = c := by
        have ports := vupd_outside c.ports (fun r => { r with condition := .inFlight, sent := some (c.port q).desired })
          (Nat.le_of_not_lt hq)
        exact congrArg c.setPorts ports
      exact .inl (by rw [same])
  · exact .inl (c.updPort_port_other here _)

theorem Selection.selects {c d : Chip} {b : Nat} (sel : Selection c b d) : Selects c d := by
  cases sel with
  | stays quiet => exact .refl c
  | silences none closed | idles none opened empty still =>
    exact c.updBranch_selects b (fun _ => rfl) fun r => List.Subset.refl r.dirty
  | loads p rest none opened head => exact Chip.startLoad_selects (by rw [head]; exact List.mem_cons_self)
  | polls e repoll cursor none opened =>
    have polled : Selects c (c.updBranch b fun r => r.polled repoll cursor) :=
      c.updBranch_selects b (fun _ => rfl) fun r => List.Subset.refl r.dirty
    refine polled.trans ?_
    exact Chip.updBranch_selects _ b (fun _ => rfl) fun r => List.Subset.refl r.dirty

theorem Chip.armBranch_selects (c : Chip) (b : Nat) : Selects c (c.armBranch b) := (c.armBranch_selection b).selects
theorem Chip.settle_selects (c : Chip) : Selects c c.settle := by
  have links : Selects c c.armBranches :=
    forIndices_keeps (P := Selects c) 4 (.refl c) fun d b _ h => h.trans (d.armBranch_selects b)
  have tail : Reaches [.rack, .orders, .engine] c.armBranches c.settle :=
    (((Chip.armRack_reaches _).then (by rfl) (Chip.armOrders_reaches _) (bs := [.rack, .orders])).then (by rfl)
      (Chip.requestBus_reaches _))
  exact links.trans (.of_reaches tail (by decide))

/-- The exchange under way ends counted, answered or unanswered (R44). -/
theorem Chip.endExchange_meters {c : Chip} {b : Nat} {x : Exchange} (hb : b < 4) (hold : (c.branch b).hold = some x)
    (reply : Option (List Byte)) :
    ((c.endExchange b reply).branch b).meters = { (c.branch b).meters with
      exchanges := (c.branch b).exchanges + 1
      unanswered := if reply.isSome then (c.branch b).unanswered else (c.branch b).unanswered + 1 } := by
  unfold Chip.endExchange
  rw [hold]
  dsimp only
  rw [(Chip.armBranch_selects _ b).meters b,
    Chip.updBranch_meters _ b (f := fun r => { r with hold := none, link := .idle }) (fun _ => rfl) b]
  have counted := c.updBranch_branch (fun r => { r with
    exchanges := r.exchanges + 1, unanswered := if reply.isSome then r.unanswered else r.unanswered + 1 }) hb
  split
  · rw [counted]; rfl
  · rw [Chip.handResult_meters _ x reply b, counted]; rfl

end Sys2Proof.Machine

namespace Sys2Proof.Machine

/-! ### What becomes of the supervision records where an element fails, is verified or recovers (R76 to R80) -/

/-- The table records of every element are the same in two parts. -/
def SameRecords (c d : Chip) : Prop := ∀ x, (d.element x).record = (c.element x).record

theorem SameRecords.inSubtree {c d : Chip} (h : SameRecords c d) (e x : Nat) : d.inSubtree e x = c.inSubtree e x := by
  have chain : d.ancestors x = c.ancestors x := ancestorsFrom_congr h 640 x
  rw [Chip.inSubtree, Chip.inSubtree, h x, chain]

theorem Chip.updSup_records (c : Chip) (e : Nat) (f : SupRecord → SupRecord) : SameRecords c (c.updSup e f) :=
  fun x => vget_vupd_kept Element.record (f := fun el => { el with sup := f el.sup }) (fun _ => rfl) c.elements e x

/-- What follows the change of the element's own record leaves every table and supervision record. -/
theorem Chip.suppress_behind (c : Chip) (x : Nat) : Handover (fun _ => True)
    (c.updSup x fun r => { r with state := .suppressed, answered := 0, unanswered := 0 }) (c.suppress x) := by
  have parked := (Chip.offRepoll_handover (fun _ => True)
    (c.updSup x fun r => { r with state := .suppressed, answered := 0, unanswered := 0 }) x).trans
      (Chip.parkElement_handover _ _ x)
  unfold Chip.suppress
  dsimp only
  split
  · exact parked.trans (Chip.updRecord_handover _ _ _ _)
  · exact parked

/-- From c to d elements have become SUPPRESSED and none has ceased to be. -/
structure Suppresses (c d : Chip) : Prop where
  records : SameRecords c d
  stays : ∀ x, (c.element x).sup.state = .suppressed → (d.element x).sup.state = .suppressed

theorem Suppresses.refl (c : Chip) : Suppresses c c := ⟨fun _ => rfl, fun _ h => h⟩
theorem Suppresses.trans {c d e : Chip} (h : Suppresses c d) (h' : Suppresses d e) : Suppresses c e :=
  ⟨fun x => (h'.records x).trans (h.records x), fun x was => h'.stays x (h.stays x was)⟩

theorem Chip.suppress_suppresses (c : Chip) (x : Nat) : Suppresses c (c.suppress x) := by
  have behind := c.suppress_behind x
  refine ⟨fun y => ((behind.units y trivial).1).trans (c.updSup_records x _ y), fun y was => ?_⟩
  by_cases here : y = x
  · subst here
    rw [(behind.units y trivial).2]
    by_cases hy : y < 640
    · rw [c.updSup_state hy]
    · have outside : c.updSup y (fun r => { r with state := .suppressed, answered := 0, unanswered := 0 }) = c :=
        congrArg c.setElements (vupd_outside c.elements _ (Nat.le_of_not_lt hy))
      rw [outside]
      exact was
  · rw [((c.suppress_handover x).units y here).2]
    exact was

theorem Chip.suppress_state (c : Chip) {x : Nat} (hx : x < 640) :
    ((c.suppress x).element x).sup.state = .suppressed := by
  rw [((c.suppress_behind x).units x trivial).2, c.updSup_state hx]

/-- One element of the loop that suppresses the descendants of e (R79 step 2). -/
theorem Chip.suppressBelow_step (c : Chip) (e x : Nat) :
    Suppresses c
      (if x ≠ e ∧ c.inSubtree e x = true ∧ (c.element x).sup.state ≠ .suppressed then c.suppress x else c) := by
  split
  · exact c.suppress_suppresses x
  · exact .refl c

/-- Every descendant of e is SUPPRESSED behind it (R79 step 2). -/
theorem Chip.suppressBelow_suppresses (c : Chip) (e : Nat) :
    Suppresses c (c.suppressBelow e)
      ∧ ∀ x, x < 640 → x ≠ e → c.inSubtree e x = true → ((c.suppressBelow e).element x).sup.state = .suppressed := by
  have loop : ∀ n, n ≤ 640 →
      let d := forIndices n (fun d x =>
        if x ≠ e ∧ d.inSubtree e x = true ∧ (d.element x).sup.state ≠ .suppressed then d.suppress x else d) c
      Suppresses c d
        ∧ ∀ x, x < n → x ≠ e → c.inSubtree e x = true → (d.element x).sup.state = .suppressed := by
    intro n
    induction n with
    | zero => exact fun _ => ⟨.refl c, fun x hx => absurd hx (Nat.not_lt_zero x)⟩
    | succ n ih =>
      intro hn
      obtain ⟨before, done⟩ := ih (by omega)
      dsimp only
      rw [forIndices_succ]
      generalize forIndices n _ c = d at before done ⊢
      have step := d.suppressBelow_step e n
      refine ⟨before.trans step, fun x hx ne below => ?_⟩
      by_cases here : x = n
      · subst here
        split
        · exact d.suppress_state (by omega)
        · next not =>
          by_contra other
          exact not ⟨ne, by rw [before.records.inSubtree]; exact below, other⟩
      · exact step.stays x (done x (by omega) ne below)
  exact loop 640 (Nat.le_refl _)

/-- The element itself is not among the descendants suppressed. -/
theorem Chip.suppressBelow_self (c : Chip) (e : Nat) : Handover (· = e) c (c.suppressBelow e) := by
  refine .loop (fun d x => ?_) 640 c
  by_cases here : x = e
  · rw [if_neg fun below => below.1 here]
    exact .refl _ d
  · exact .ite ((d.suppress_handover x).mono fun y hy => by omega) (.refl _ d)

/-- What follows the suppression below a failed element leaves every table and supervision record (R60, R79 step 3). -/
theorem Chip.failElement_behind (c : Chip) (e : Nat) (m : Option Nat) : Handover (fun _ => True)
    (((c.updSup e fun r => { r with state := .failing, failure := m }).parkElement e).suppressBelow e)
    (c.failElement e m) := by
  have recorded := Chip.recordFailure_handover (fun _ => True)
    (((c.updSup e fun r => { r with state := .failing, failure := m }).parkElement e).suppressBelow e) e m
  unfold Chip.failElement
  exact .ite (recorded.trans (Chip.updBranch_handover _ _ e fun _ => rfl)) recorded

/-- An element that has become FAILING: its record holds the start, every element below it is SUPPRESSED (R76, R79). -/
theorem Chip.failElement_sup (c : Chip) {e : Nat} (he : e < 640) (m : Option Nat) :
    ((c.failElement e m).element e).sup = { (c.element e).sup with state := .failing, failure := m } := by
  have parked := Chip.parkElement_handover (fun _ => True)
    (c.updSup e fun r => { r with state := .failing, failure := m }) e
  rw [((c.failElement_behind e m).units e trivial).2, ((Chip.suppressBelow_self _ e).units e rfl).2,
    (parked.units e trivial).2, c.updSup_state he]

theorem Chip.failElement_below (c : Chip) {e x : Nat} (hx : x < 640) (ne : x ≠ e) (below : c.inSubtree e x = true)
    (m : Option Nat) : ((c.failElement e m).element x).sup.state = .suppressed := by
  have parked := Chip.parkElement_handover (fun _ => True)
    (c.updSup e fun r => { r with state := .failing, failure := m }) e
  have records : SameRecords c ((c.updSup e fun r => { r with state := .failing, failure := m }).parkElement e) :=
    fun y => ((parked.units y trivial).1).trans (c.updSup_records e _ y)
  rw [((c.failElement_behind e m).units x trivial).2]
  exact (Chip.suppressBelow_suppresses _ e).2 x hx ne (by rw [records.inSubtree]; exact below)

/-- What follows the entry into ANSWERING leaves every record, but for those of other elements released (R77, R80). -/
theorem Chip.enterAnswering_sup (c : Chip) {e : Nat} (he : e < 640) :
    ((c.enterAnswering e).element e).sup = { (c.element e).sup with state := .answering, failure := none } := by
  rw [Chip.enterAnswering, (Chip.setMark_units _ .plant e none e).2, c.updSup_state he]

theorem Chip.verifyElement_sup (c : Chip) {e : Nat} (he : e < 640) :
    ((c.verifyElement e).element e).sup = { (c.element e).sup with state := .answering, failure := none } := by
  have behind := (Chip.unparkElement_handover (fun _ => True) (c.enterAnswering e) e).trans
    (Chip.closeOf_handover _ _ .plant e (· == .covered) .recovered)
  rw [Chip.verifyElement, (behind.units e trivial).2, c.enterAnswering_sup he]

/-- An element released has a fresh record; the others keep theirs (R80). -/
theorem Chip.freshen_handover (c : Chip) (x : Nat) : Handover (· ≠ x) c (c.freshen x) :=
  (c.updSup_handover x fun _ => SupRecord.fresh).trans (Chip.updBranch_handover _ _ _ fun _ => rfl)
theorem Chip.releaseBelow_self (c : Chip) (e : Nat) : Handover (· = e) c (c.releaseBelow e) := by
  refine .loop (fun d x => ?_) 640 c
  by_cases here : x = e
  · rw [if_neg fun below => below.1 here]
    exact .refl _ d
  · exact .ite ((d.freshen_handover x).mono fun y hy => by omega) (.refl _ d)

theorem Chip.recoverElement_sup (c : Chip) {e : Nat} (he : e < 640) :
    ((c.recoverElement e).element e).sup = { (c.element e).sup with state := .answering, failure := none } := by
  have closed := Chip.closeOf_handover (fun _ => True) (c.enterAnswering e) .plant e (· == .opened) .recovered
  rw [Chip.recoverElement, ((Chip.unparkElement_handover (fun _ => True) _ e).units e trivial).2,
    ((Chip.releaseBelow_self _ e).units e rfl).2, (closed.units e trivial).2, c.enterAnswering_sup he]

/-! ### The carrier of a branch (R60, R78) -/

/-- An in-use element is one of the table's. -/
theorem Chip.element_lt {c : Chip} {e : Nat} (used : (c.element e).record.inUse = true) : e < 640 := by
  by_contra outside
  have none : c.element e = default := vget_outside c.elements (Nat.le_of_not_lt outside)
  rw [none] at used
  exact absurd used Bool.false_ne_true

theorem Chip.inSubtree_lt {c : Chip} {e x : Nat} (below : c.inSubtree e x = true) : x < 640 := by
  rw [Chip.inSubtree, Bool.and_eq_true] at below
  exact Chip.element_lt below.1

/-- The carrier state changed, before it is handed on (R60). -/
def Chip.carrierSet (c : Chip) (b : Nat) (k : Carrier) (level : Bool) : Chip :=
  c.updBranch b fun r => { r with carrier := k, input := level, timing := .stopped }

theorem Chip.carrierChanges_running {c : Chip} (b : Nat) (k : Carrier) (level : Bool) (running : c.running = true) :
    c.carrierChanges b k level = (c.carrierSet b k level).handCarrier b k := if_pos running
theorem Chip.carrierChanges_stopped {c : Chip} (b : Nat) (k : Carrier) (level : Bool) (stopped : c.running = false) :
    c.carrierChanges b k level = c.carrierSet b k level :=
  if_neg (by rw [← Bool.not_eq_true] at stopped; exact stopped)

theorem Chip.carrierSet_branch (c : Chip) {b : Nat} (hb : b < 4) (k : Carrier) (level : Bool) :
    (c.carrierSet b k level).branch b = { c.branch b with carrier := k, input := level, timing := .stopped } :=
  c.updBranch_branch _ hb

theorem Chip.carrierChanges_meters (c : Chip) (b : Nat) (k : Carrier) (level : Bool) :
    SameMeters (c.carrierSet b k level) (c.carrierChanges b k level) :=
  .ite ((c.carrierSet b k level).handCarrier_meters b k) (.refl _)

/-- What a carrier event leaves, whatever the part does with it (R60). -/
theorem carrier_changed {s : State} (b : Fin 4) (k : Carrier) (level : Bool) :
    let t := s.act fun c => c.carrierChanges b k level
    (t.chip.branch b).carrier = k ∧ (t.chip.branch b).timing = .stopped
      ∧ (s.chip.running = false → Settled s → t.chip = s.chip.updBranch b
          (fun r => { r with carrier := k, input := level, timing := .stopped }))
      ∧ SameTime s t ∧ SameLineUp s t ∧ SameOutside s t := by
  have chip := s.act_chip fun c => c.carrierChanges b k level
  have outside := s.act_outside fun c => c.carrierChanges b k level
  intro t
  have meters : (t.chip.branch b).meters = ((s.chip.carrierSet b k level).branch b).meters := by
    rw [chip]
    exact ((s.chip.carrierChanges_meters b k level).trans (Chip.settle_selects _).meters) b
  rw [s.chip.carrierSet_branch b.isLt] at meters
  have reach := s.chip.carrierChanges_reaches b k level
  refine ⟨congrArg Meters.carrier meters, congrArg Meters.timing meters, fun stopped settled => ?_,
    sameTime_of_reaches reach chip (by decide), sameLineUp_of_reaches reach chip (by decide), outside⟩
  have quiet : (s.chip.carrierSet b k level).quiet = s.chip.quiet :=
    Chip.quiet_updBranch fun _ => ⟨rfl, rfl, rfl, rfl, rfl⟩
  rw [chip, Chip.carrierChanges_stopped b k level stopped]
  exact Chip.settle_quiet _ (quiet.trans settled)

/-- The supervision records of a RUNNING part behind a carrier event. -/
theorem carrier_handed {s : State} (b : Fin 4) (k : Carrier) (level : Bool) (running : s.chip.running = true)
    (e : Nat) : ((s.act fun c => c.carrierChanges b k level).chip.element e) =
      ((s.chip.carrierSet b k level).handCarrier b k).element e := by
  rw [Chip.element, s.act_chip, Chip.settle_elements, Chip.carrierChanges_running (c := s.chip) b k level running]
  rfl

theorem carrierLost_decides (b : Fin 4) {s : State} (timed : s.chip.part.state ≠ .transparent)
    (change : (s.chip.branch b).carrier ≠ .lost) : ∃ t, exec (.carrierLost b) s = .next t
        ∧ (t.chip.branch b).carrier = .lost ∧ (t.chip.branch b).timing = .stopped
        ∧ (s.chip.running = true → (s.chip.element b).sup.state = .answering →
            (t.chip.element b).sup.state = .failing ∧ (t.chip.element b).sup.failure = s.chip.clock.minute
              ∧ ∀ e, e ≠ b.val → s.chip.inSubtree b e = true → (t.chip.element e).sup.state = .suppressed)
        ∧ (s.chip.running = false → Settled s → t.chip = s.chip.updBranch b
            (fun r => { r with carrier := .lost, input := false, timing := .stopped }))
        ∧ SameTime s t ∧ SameLineUp s t ∧ SameOutside s t := by
  have due : s.chip.carrierDue b .lost = true :=
    Bool.and_eq_true_iff.mpr ⟨bne_iff_ne.mpr timed, bne_iff_ne.mpr change⟩
  have run : exec (.carrierLost b) s = .next (s.act fun c => c.carrierChanges b .lost false) :=
    congrArg Host.Outcome.next (State.actIf_ready (ready := Chip.carrierDue b .lost) due _)
  obtain ⟨carrier, timing, stopped, rest⟩ := carrier_changed (s := s) b .lost false
  refine ⟨_, run, carrier, timing, fun running answering => ?_, stopped, rest⟩
  have handed := carrier_handed (s := s) b .lost false running
  let c := s.chip.carrierSet b .lost false
  have failed : c.handCarrier b .lost = c.failElement b c.now := by
    have state : (c.element b).sup.state = .answering := answering
    simp only [Chip.handCarrier, state]
  have root : b.val < 640 := by omega
  refine ⟨?_, ?_, fun e ne below => ?_⟩
  · rw [handed, failed, c.failElement_sup root]
  · rw [handed, failed, c.failElement_sup root]; rfl
  · rw [handed, failed]
    exact c.failElement_below (Chip.inSubtree_lt below) ne below c.now

theorem carrierPresent_decides (b : Fin 4) {s : State} (timed : s.chip.part.state ≠ .transparent)
    (change : (s.chip.branch b).carrier ≠ .present) : ∃ t, exec (.carrierPresent b) s = .next t
        ∧ (t.chip.branch b).carrier = .present ∧ (t.chip.branch b).timing = .stopped
        ∧ (s.chip.running = true →
            (s.chip.element b).sup.state = .failing ∨ (s.chip.element b).sup.state = .unverified →
            (t.chip.element b).sup.state = .answering ∧ (t.chip.element b).sup.failure = none)
        ∧ (s.chip.running = false → Settled s → t.chip = s.chip.updBranch b
            (fun r => { r with carrier := .present, input := true, timing := .stopped }))
        ∧ SameTime s t ∧ SameLineUp s t ∧ SameOutside s t := by
  have due : s.chip.carrierDue b .present = true :=
    Bool.and_eq_true_iff.mpr ⟨bne_iff_ne.mpr timed, bne_iff_ne.mpr change⟩
  have run : exec (.carrierPresent b) s = .next (s.act fun c => c.carrierChanges b .present true) :=
    congrArg Host.Outcome.next (State.actIf_ready (ready := Chip.carrierDue b .present) due _)
  obtain ⟨carrier, timing, stopped, rest⟩ := carrier_changed (s := s) b .present true
  refine ⟨_, run, carrier, timing, fun running was => ?_, stopped, rest⟩
  have handed := carrier_handed (s := s) b .present true running
  let c := s.chip.carrierSet b .present true
  have root : b.val < 640 := by omega
  have answers : ((c.handCarrier b .present).element b).sup =
      { (c.element b).sup with state := .answering, failure := none } := by
    obtain failing | unverified := was
    · have state : (c.element b).sup.state = .failing := failing
      have recovers : c.handCarrier b .present = c.recoverElement b := by simp only [Chip.handCarrier, state]
      rw [recovers, c.recoverElement_sup root]
    · have state : (c.element b).sup.state = .unverified := unverified
      have verified : c.handCarrier b .present = c.verifyElement b := by simp only [Chip.handCarrier, state]
      rw [verified, c.verifyElement_sup root]
  rw [handed, answers]
  exact ⟨rfl, rfl⟩

/-- The timer that a carrier state and an input level call for (R60). -/
theorem timerFor_eq (k : Carrier) (level : Bool) : timerFor k level =
    if (level = true ∧ k = .present) ∨ (level = false ∧ k = .lost) then .stopped
    else if level = true then .high else .low := by
  cases k <;> cases level <;> rfl

/-- Settles O38: each carrier event by what the root does with it; an input change by the branch link alone. -/
theorem carrierDecidesTheRoot : Obligations.CarrierDecidesTheRoot := by
  refine ⟨fun b s timed => ⟨carrierLost_decides b timed, carrierPresent_decides b timed⟩, fun b high s => ?_⟩
  have branch := s.chip.updBranch_branch (b := b) (fun r =>
    if r.input = high then r
    else { r with input := high
                  timing := if s.chip.part.state = .transparent then .stopped else timerFor r.carrier high }) b.isLt
  refine ⟨s.onChip fun c => c.carrierInput b high, rfl, ?_⟩
  rw [State.onChip_chip, Chip.carrierInput, branch]
  refine ⟨?_, ?_, fun same => if_pos same, fun changed timed => ?_, fun k other => ?_, rfl, rfl, rfl, rfl⟩
  · split
    · next same => exact same
    · rfl
  · split <;> rfl
  · rw [if_neg changed, ← timerFor_eq]
    exact if_neg timed
  · exact s.chip.updBranch_branch_other _ other

end Sys2Proof.Machine

namespace Sys2Proof.Machine

/-! ### The end of a branch exchange (R44) -/

/-- The exchange of branch b counted as made, answered or not. -/
def Chip.exchangeCounted (c : Chip) (b : Nat) (answered : Bool) : Chip :=
  c.updBranch b fun r =>
    { r with exchanges := r.exchanges + 1, unanswered := if answered then r.unanswered else r.unanswered + 1 }

/-- The holding stage of branch b emptied. -/
def Chip.stageEmptied (c : Chip) (b : Nat) : Chip := c.updBranch b fun r => { r with hold := none, link := .idle }

/-- Steps 1 to 4 of R44: what the exchange leaves before the stage is emptied and the link selects. -/
def Chip.exchangeSettled (c : Chip) (b : Nat) (x : Exchange) (reply : Option (List Byte)) : Chip :=
  if x.discard then c.exchangeCounted b reply.isSome else (c.exchangeCounted b reply.isSome).handResult x reply

theorem Chip.endExchange_eq {c : Chip} {b : Nat} {x : Exchange} (hold : (c.branch b).hold = some x)
    (reply : Option (List Byte)) :
    c.endExchange b reply = ((c.exchangeSettled b x reply).stageEmptied b).armBranch b := by
  unfold Chip.endExchange
  rw [hold]
  rfl

/-- What the next selections leave behind the end of an exchange. -/
theorem Chip.ended_selects (d : Chip) (b : Nat) : Selects d ((d.stageEmptied b).armBranch b).settle := by
  have emptied : Selects d (d.stageEmptied b) :=
    d.updBranch_selects b (fun _ => rfl) fun r => List.Subset.refl r.dirty
  exact (emptied.trans (Chip.armBranch_selects _ b)).trans (Chip.settle_selects _)

theorem Chip.ended_reaches (d : Chip) (b : Nat) : Reaches settleBlocks d ((d.stageEmptied b).armBranch b).settle :=
  ((d.updBranch_reaches b _).then (by rfl) (Chip.armBranch_reaches _ b) (bs := settleBlocks)).then (by rfl)
    (Chip.settle_reaches _)

/-- A link with nothing to select is left alone by the selections of all links. -/
theorem Chip.settle_branch_quiet {c : Chip} {b : Nat} (quiet : c.quietBranch b = true) :
    c.settle.branch b = c.branch b := by
  have links : (c.armBranches.branch b = c.branch b) ∧ c.armBranches.quietBranch b = true :=
    forIndices_keeps (P := fun d : Chip => d.branch b = c.branch b ∧ d.quietBranch b = true) 4 ⟨rfl, quiet⟩
      fun d k _ ⟨same, still⟩ => by
        by_cases here : k = b
        · subst here
          rw [d.armBranch_quiet k still]
          exact ⟨same, still⟩
        · have other : b ≠ k := fun e => here e.symm
          rw [d.armBranch_branch_other other, d.armBranch_quietBranch_other other]
          exact ⟨same, still⟩
  have tail : Reaches [.rack, .orders, .engine] c.armBranches c.settle :=
    (((Chip.armRack_reaches _).then (by rfl) (Chip.armOrders_reaches _) (bs := [.rack, .orders])).then (by rfl)
      (Chip.requestBus_reaches _))
  rw [← links.1, Chip.branch, tail.branches (by decide), ← Chip.branch]

/-- A link that is closed falls SILENT behind the end of its exchange (R41). -/
theorem Chip.ended_silent {d : Chip} {b : Nat} (hb : b < 4) (closed : d.linkOpen b = false) :
    (((d.stageEmptied b).armBranch b).settle.branch b).link = .silent := by
  have emptied : (d.stageEmptied b).branch b = { d.branch b with hold := none, link := .idle } :=
    d.updBranch_branch _ hb
  have closed' : (d.stageEmptied b).linkOpen b = false := closed
  have arm : (d.stageEmptied b).armBranch b = (d.stageEmptied b).updBranch b fun r => { r with link := .silent } := by
    rw [Chip.armBranch, emptied, closed']
    rfl
  rw [Chip.settle_branch_quiet ((Chip.armBranch_selection _ b).quiet hb), arm, Chip.updBranch_branch _ _ hb]

/-! ### An unanswered PORT LOAD (R51, R52, R74, R76) -/

/-- The supervision record of an element after an unanswered exchange (R74). -/
def SupRecord.missed (r : SupRecord) (now : Option Nat) : SupRecord := (r.shift false).tally false now

/-- An unanswered exchange of an ANSWERING element that is no AMPLIFIER: the third in a row makes it FAILING (R76). -/
theorem Chip.superviseResult_unanswered {c : Chip} {e : Nat} (he : e < 640)
    (answering : (c.element e).sup.state = .answering) :
    c.superviseResult e false none =
      if 2 ≤ (c.element e).sup.unanswered then
        (c.updSup e fun _ => (c.element e).sup.missed c.now).failElement e ((c.element e).sup.missed c.now).runStart
      else c.updSup e fun _ => (c.element e).sup.missed c.now := by
  let d := c.updSup e fun _ => (c.element e).sup.missed c.now
  have sup : (d.element e).sup = (c.element e).sup.missed c.now := c.updSup_state he _
  have state : (d.element e).sup.state = .answering := by rw [sup]; exact answering
  have count : (d.element e).sup.unanswered = min 3 ((c.element e).sup.unanswered + 1) := by rw [sup]; rfl
  have untripped : (((c.element e).sup.missed c.now).level != .tripped
      && ((c.element e).sup.missed c.now).level == .tripped) = false := by
    cases ((c.element e).sup.missed c.now).level <;> rfl
  have step : c.superviseResult e false none = d.decideState e false
      (((c.element e).sup.missed c.now).level != .tripped && ((c.element e).sup.missed c.now).level == .tripped) := by
    rw [Chip.superviseResult, answering]
    rfl
  rw [step, untripped, Chip.decideState, state]
  dsimp only
  by_cases third : 2 ≤ (c.element e).sup.unanswered
  · have three : (d.element e).sup.unanswered = 3 := by rw [count]; omega
    rw [if_pos third, if_pos three, sup]
  · have fewer : (d.element e).sup.unanswered ≠ 3 := by rw [count]; omega
    rw [if_neg third, if_neg fewer, Bool.and_false]
    rfl

theorem Chip.failElement_records (c : Chip) (e : Nat) (m : Option Nat) : SameRecords c (c.failElement e m) := by
  have parked := Chip.parkElement_handover (fun _ => True)
    (c.updSup e fun r => { r with state := .failing, failure := m }) e
  intro x
  rw [((c.failElement_behind e m).units x trivial).1, (Chip.suppressBelow_suppresses _ e).1.records x,
    (parked.units x trivial).1, c.updSup_records e _ x]

theorem Chip.superviseResult_unanswered_parks {c : Chip} {e : Nat} (he : e < 640)
    (answering : (c.element e).sup.state = .answering) : Parks c (c.superviseResult e false none) := by
  have counted : Parks c (c.updSup e fun _ => (c.element e).sup.missed c.now) :=
    .of_reaches (c.updSup_reaches e _) (by decide)
  rw [Chip.superviseResult_unanswered he answering]
  exact .ite (counted.trans (Chip.failElement_parks _ e _)) counted

/-- The element behind an unanswered exchange: its table record stands, the third in a row has made it FAILING. -/
theorem Chip.superviseResult_unanswered_element {c : Chip} {e : Nat} (he : e < 640)
    (answering : (c.element e).sup.state = .answering) :
    ((c.superviseResult e false none).element e).record = (c.element e).record
      ∧ ((c.superviseResult e false none).element e).sup.state =
        if 2 ≤ (c.element e).sup.unanswered then .failing else .answering := by
  have counted := c.updSup_records e fun _ => (c.element e).sup.missed c.now
  have state : ((c.updSup e fun _ => (c.element e).sup.missed c.now).element e).sup.state = .answering := by
    rw [c.updSup_state he]; exact answering
  rw [Chip.superviseResult_unanswered he answering]
  split
  · exact ⟨(Chip.failElement_records _ e _ e).trans (counted e), by rw [Chip.failElement_sup _ he]⟩
  · exact ⟨counted e, state⟩

/-- The part with the port of an unanswered PORT LOAD settled, before its owner's summary follows (R51, R52). -/
def Chip.loadLost (c : Chip) (p : Nat) : Chip :=
  let c1 := c.updPort p fun r => { r with confirmed := false, sent := none }
  if c.loadable (p / 4) then c1.makeDirty p else c1.setCondition p .parked

theorem Chip.settleUnanswered_eq (c : Chip) (p : Nat) : c.settleUnanswered p = (c.loadLost p).copySummary p := rfl

theorem Chip.loadLost_port (c : Chip) {p : Nat} (hp : p < 2560) :
    (c.loadLost p).port p = { c.port p with
      confirmed := false, sent := none, condition := if c.loadable (p / 4) then .dirty else .parked } := by
  have lost := c.updPort_port (fun r => { r with confirmed := false, sent := none }) hp
  unfold Chip.loadLost
  dsimp only
  split
  · rw [Chip.makeDirty_port _ hp, lost]
  · rw [Chip.setCondition, Chip.updPort_port _ _ hp, lost]

theorem Chip.loadLost_lists {c : Chip} {p : Nat} (unloadable : c.loadable (p / 4) = false) :
    (c.loadLost p).branches = c.branches := by
  rw [Chip.loadLost, unloadable]; rfl

/-- The owner learns that the applied state is unconfirmed (R51, R55). -/
theorem Chip.settleUnanswered_owner {c : Chip} {p i : Nat} (hp : p < 2560) (owner : (c.port p).owner = some i)
    (hi : i < 2048) : ((c.settleUnanswered p).sub i).live.confirmed = false := by
  have port := c.loadLost_port hp
  rw [Chip.settleUnanswered_eq, (Chip.copySummary_sub (by rw [port]; exact owner) hi).2.1, port]

theorem Chip.settleUnanswered_port (c : Chip) {p : Nat} (hp : p < 2560) :
    (c.settleUnanswered p).port p = { c.port p with
      confirmed := false, sent := none, condition := if c.loadable (p / 4) then .dirty else .parked } :=
  (Chip.copySummary_port _ p p).trans (c.loadLost_port hp)

theorem Chip.handResult_unansweredLoad {c : Chip} {x : Exchange} {p : Nat} (port : x.port = some p) :
    c.handResult x none =
      ((c.superviseResult x.element false none).settleUnanswered p).updElement x.element fun el =>
        { el with doubt := true } := by
  unfold Chip.handResult
  rw [port]
  rfl

/-- An unanswered PORT LOAD of a port IN FLIGHT at an ANSWERING tap, behind the steps of R44. -/
theorem Chip.unansweredLoad {c : Chip} {x : Exchange} {p : Nat} (hp : p < 2560) (port : x.port = some p)
    (element : x.element = p / 4) (used : (c.element (p / 4)).record.inUse = true)
    (tap : (c.element (p / 4)).record.kind = .tap) (answering : (c.element (p / 4)).sup.state = .answering)
    (flies : (c.port p).condition = .inFlight) :
    let d := c.handResult x none
    d.port p = { c.port p with
        confirmed := false, sent := none
        condition := if (c.element (p / 4)).sup.unanswered < 2 then .dirty else .parked }
      ∧ (d.element (p / 4)).doubt = true
      ∧ (∀ i, (c.port p).owner = some i → i < 2048 → (d.sub i).live.confirmed = false)
      ∧ (2 ≤ (c.element (p / 4)).sup.unanswered → (d.element (p / 4)).sup.state = .failing
          ∧ ∀ k, (d.branch k).dirty ⊆ (c.branch k).dirty) := by
  have he : p / 4 < 640 := by omega
  have parks := Chip.superviseResult_unanswered_parks he answering
  obtain ⟨record, state⟩ := Chip.superviseResult_unanswered_element he answering
  have result := Chip.handResult_unansweredLoad (c := c) port
  rw [element] at result
  dsimp only
  rw [result]
  generalize c.superviseResult (p / 4) false none = e at parks record state ⊢
  have stands : e.port p = c.port p := parks.flying p flies
  have loadable : e.loadable (p / 4) = decide ((c.element (p / 4)).sup.unanswered < 2) := by
    rw [Chip.loadable, Chip.isTap, record, used, tap, state]
    by_cases fewer : (c.element (p / 4)).sup.unanswered < 2
    · rw [if_neg (by omega), decide_eq_true fewer]; rfl
    · rw [if_pos (by omega), decide_eq_false fewer]; rfl
  have settled := e.settleUnanswered_port hp
  rw [loadable, stands] at settled
  have elements : (e.settleUnanswered p).elements = e.elements := e.settleUnanswered_reaches p .elements (by decide)
  refine ⟨?_, ?_, fun i owner hi => ?_, fun third => ⟨?_, fun k => ?_⟩⟩
  · exact settled.trans (by simp only [decide_eq_true_eq])
  · exact congrArg Element.doubt (vget_vupd_same (e.settleUnanswered p).elements (p / 4)
      (fun el => { el with doubt := true }) he)
  · exact Chip.settleUnanswered_owner hp (by rw [stands]; exact owner) hi
  · have kept := vget_vupd_kept Element.sup (f := fun el => { el with doubt := true }) (fun _ => rfl)
      (e.settleUnanswered p).elements (p / 4) (p / 4)
    have failing : (e.element (p / 4)).sup.state = .failing := by rw [state, if_pos third]
    have before : (vget (e.settleUnanswered p).elements (p / 4)).sup = (e.element (p / 4)).sup := by
      rw [elements]; rfl
    exact (congrArg SupRecord.state (kept.trans before)).trans failing
  · have unloadable : e.loadable (p / 4) = false := by rw [loadable]; exact decide_eq_false (by omega)
    have lists : ((e.settleUnanswered p).branch k) = e.branch k := by
      rw [Chip.branch, e.settleUnanswered_eq, Chip.copySummary_branches, Chip.loadLost_lists unloadable, ← Chip.branch]
    have same : ((e.settleUnanswered p).updElement (p / 4) fun el => { el with doubt := true }).branch k =
        (e.settleUnanswered p).branch k := rfl
    rw [same, lists]
    exact parks.lists k

/-! ### A reply window that closes (R42, R44, R60 to R62) -/

theorem Chip.windowCloses_retries {c : Chip} {b : Nat} {x : Exchange} (hold : (c.branch b).hold = some x)
    (left : x.attempt < 3) (goesOn : x.last = false) :
    c.windowCloses b = c.updBranch b fun r =>
      { r with link := .sending, hold := some { x with attempt := x.attempt + 1 } } := by
  have again : (decide (x.attempt < 3) && !x.last) = true := by rw [decide_eq_true left, goesOn]; rfl
  unfold Chip.windowCloses
  rw [hold]
  exact if_pos again

theorem Chip.windowCloses_ends {c : Chip} {b : Nat} {x : Exchange} (hold : (c.branch b).hold = some x)
    (spent : 3 ≤ x.attempt ∨ x.last = true) : c.windowCloses b = c.endExchange b none := by
  have ends : (decide (x.attempt < 3) && !x.last) = false := by
    obtain third | last := spent
    · rw [decide_eq_false (Nat.not_lt.mpr third)]; rfl
    · rw [last]; exact Bool.and_false _
  unfold Chip.windowCloses
  rw [hold]
  exact if_neg (by rw [ends]; exact Bool.false_ne_true)

theorem exec_windowClosed_eq (b : Fin 4) {s : State} (listening : (s.chip.branch b).link = .listening) :
    exec (.branchReplyWindowClosed b) s = .next (s.act fun c => c.windowCloses b) :=
  congrArg Host.Outcome.next (State.actIf_ready (ready := Chip.listening b) (beq_iff_eq.mpr listening) _)

/-- A window that closes with an attempt left sends the frame again (R42). -/
theorem windowClosed_retries {b : Fin 4} {x : Exchange} {s : State} (settled : Settled s)
    (listening : (s.chip.branch b).link = .listening) (hold : (s.chip.branch b).hold = some x) (left : x.attempt < 3)
    (goesOn : x.last = false) : ∃ t, exec (.branchReplyWindowClosed b) s = .next t
        ∧ t.chip = s.chip.updBranch b
            (fun r => { r with link := .sending, hold := some { x with attempt := x.attempt + 1 } })
        ∧ SameOutside s t := by
  have again := Chip.windowCloses_retries hold left goesOn
  refine ⟨_, exec_windowClosed_eq b listening, ?_, s.act_outside _⟩
  rw [State.act_chip, again]
  exact Chip.settle_quiet _ (Chip.quiet_updBranch_held settled b.isLt rfl)

/-- The part behind the last window of an exchange. -/
theorem windowClosed_ended {b : Fin 4} {x : Exchange} {s : State} (hold : (s.chip.branch b).hold = some x)
    (spent : 3 ≤ x.attempt ∨ x.last = true) :
    (s.act fun c => c.windowCloses b).chip =
      (((s.chip.exchangeSettled b x none).stageEmptied b).armBranch b).settle := by
  rw [State.act_chip, Chip.windowCloses_ends hold spent, Chip.endExchange_eq hold]

/-- The port of an unanswered PORT LOAD, its unit and its owner, behind the selections (R51, R52). -/
theorem unansweredLoad_selected {s t : State} {b p : Nat} {x : Exchange}
    (chip : t.chip = (((s.chip.exchangeSettled b x none).stageEmptied b).armBranch b).settle)
    (keeps : x.discard = false) (port : x.port = some p) (element : x.element = p / 4) (hp : p < 2560)
    (used : (s.chip.element (p / 4)).record.inUse = true) (tap : (s.chip.element (p / 4)).record.kind = .tap)
    (answering : (s.chip.element (p / 4)).sup.state = .answering) (flies : (s.chip.port p).condition = .inFlight)
    (unlisted : ∀ k, k < 4 → p ∉ (s.chip.branch k).dirty) :
    (t.chip.port p).confirmed = false ∧ (t.chip.port p).applied = (s.chip.port p).applied
      ∧ (t.chip.port p).mismatch = (s.chip.port p).mismatch ∧ (t.chip.element (p / 4)).doubt = true
      ∧ (∀ i, (s.chip.port p).owner = some i → i < 2048 → (t.chip.sub i).live.confirmed = false)
      ∧ ((s.chip.element (p / 4)).sup.unanswered < 2 → (t.chip.port p).condition = .dirty
        ∨ ((t.chip.port p).condition = .inFlight ∧ (t.chip.port p).sent = some (t.chip.port p).desired))
      ∧ ((s.chip.element (p / 4)).sup.unanswered = 2 → (t.chip.port p).condition = .parked
        ∧ (t.chip.port p).sent = none ∧ (t.chip.element (p / 4)).sup.state = .failing) := by
  have handed : s.chip.exchangeSettled b x none = (s.chip.exchangeCounted b false).handResult x none :=
    if_neg (by rw [keeps]; exact Bool.false_ne_true)
  have lists : ∀ k, ((s.chip.exchangeCounted b false).branch k).dirty = (s.chip.branch k).dirty := fun k =>
    vget_vupd_kept Branch.dirty (f := fun r =>
      { r with exchanges := r.exchanges + 1, unanswered := r.unanswered + 1 }) (fun _ => rfl) s.chip.branches b k
  obtain ⟨settledPort, doubt, owner, third⟩ :=
    Chip.unansweredLoad (c := s.chip.exchangeCounted b false) hp port element used tap answering flies
  rw [handed] at chip
  generalize (s.chip.exchangeCounted b false).handResult x none = d at chip settledPort doubt owner third
  have selects := d.ended_selects b
  have ended := d.ended_reaches b
  rw [← chip] at selects ended
  have elements : t.chip.element (p / 4) = d.element (p / 4) := by
    rw [Chip.element, ended .elements (by decide), ← Chip.element]
  have subs : ∀ i, t.chip.sub i = d.sub i := fun i => by rw [Chip.sub, ended .subs (by decide), ← Chip.sub]
  have ports := selects.ports p
  have same : (s.chip.exchangeCounted b false).port p = s.chip.port p := rfl
  rw [same] at settledPort
  have unconfirmed : (t.chip.port p).confirmed = false ∧ (t.chip.port p).applied = (s.chip.port p).applied
      ∧ (t.chip.port p).mismatch = (s.chip.port p).mismatch := by
    obtain stays | ⟨-, taken⟩ := ports
    · rw [stays, settledPort]; exact ⟨rfl, rfl, rfl⟩
    · rw [taken, settledPort]; exact ⟨rfl, rfl, rfl⟩
  obtain ⟨confirmed, applied, mismatch⟩ := unconfirmed
  refine ⟨confirmed, applied, mismatch, by rw [elements]; exact doubt, fun i mine hi => ?_, fun fewer => ?_,
    fun two => ?_⟩
  · rw [subs]; exact owner i mine hi
  · have dirty : (d.port p).condition = .dirty := by rw [settledPort]; exact if_pos fewer
    obtain stays | ⟨-, taken⟩ := ports
    · exact .inl (by rw [stays]; exact dirty)
    · exact .inr (by rw [taken]; exact ⟨rfl, rfl⟩)
  · obtain ⟨failing, shrink⟩ := third (Nat.le_of_eq two.symm)
    have parked : t.chip.port p = d.port p := by
      obtain stays | ⟨⟨k, on⟩, -⟩ := ports
      · exact stays
      · have listed := shrink k on
        rw [lists] at listed
        by_cases hk : k < 4
        · exact absurd listed (unlisted k hk)
        · have none : s.chip.branch k = default := vget_outside s.chip.branches (Nat.le_of_not_lt hk)
          rw [none] at listed
          exact absurd listed List.not_mem_nil
    rw [parked, settledPort]
    refine ⟨if_neg (Nat.not_lt.mpr (Nat.le_of_eq two.symm)), rfl, ?_⟩
    rw [elements]
    exact failing

/-- Settles O34: the retry by the held exchange; the end by its counts, what a discarded one leaves, and the port of an
unanswered PORT LOAD behind the selections. -/
theorem windowClosedRetriesOrCounts : Obligations.WindowClosedRetriesOrCounts := by
  intro b x s settled listening hold
  refine ⟨windowClosed_retries settled listening hold, fun spent => ?_⟩
  have chip := windowClosed_ended hold spent
  have whole := s.act_chip fun c => c.windowCloses b
  have outside := s.act_outside fun c => c.windowCloses b
  refine ⟨_, exec_windowClosed_eq b listening, ?_⟩
  generalize (s.act fun c => c.windowCloses b) = t at chip whole outside ⊢
  have meters : (t.chip.branch b).meters = { (s.chip.branch b).meters with
      exchanges := (s.chip.branch b).exchanges + 1, unanswered := (s.chip.branch b).unanswered + 1 } := by
    rw [whole, (Chip.settle_selects _).meters b, Chip.windowCloses_ends hold spent,
      Chip.endExchange_meters b.isLt hold]
    rfl
  have reach := s.chip.windowCloses_reaches b
  refine ⟨congrArg Meters.exchanges meters, congrArg Meters.unanswered meters, congrArg Meters.rejected meters,
    fun discard => ?discarded, fun p keeps port element hp used tap answering flies unlisted => ?load,
    sameTime_of_reaches reach whole (by decide), sameLineUp_of_reaches reach whole (by decide), outside⟩
  case discarded =>
    have counted : s.chip.exchangeSettled b x none = s.chip.exchangeCounted b false := if_pos discard
    rw [counted] at chip
    have still : Reaches settleBlocks s.chip t.chip := by
      rw [chip]
      exact (s.chip.updBranch_reaches b _).then (by rfl) (Chip.ended_reaches _ b)
    refine ⟨fun closed => ?_, ⟨still .elements (by decide), still .plant (by decide), still .sources (by decide),
      still .outages (by decide)⟩, ⟨still .subs (by decide), still .store (by decide)⟩, still .journal (by decide)⟩
    rw [chip]
    exact Chip.ended_silent b.isLt closed
  case load => exact unansweredLoad_selected chip keeps port element hp used tap answering flies unlisted

end Sys2Proof.Machine

namespace Sys2Proof.Machine

/-! ### A valid STATUS REPLY on the wire (R43, R189) -/

/-- The received form of a STATUS REPLY frame: a sum of zero behind the lead byte. -/
theorem frameAfterLead_statusReply {addr : Nat} (short : addr < 1024) (a b c : Byte) :
    ∃ body, frameOf addr 0x81 [a, b, c] = leadByte :: body ∧ frameAfterLead body =
      some { addr := addr, kind := 0x81, length := 3, payload := [a, b, c], sum := 0 } := by
  obtain ⟨a0, a1, bytes⟩ : ∃ a0 a1, bytesOfNat 2 addr = [a0, a1] := ⟨_, _, rfl⟩
  have back : natOfBytes [a0, a1] = addr := by
    rw [← bytes]; exact natOfBytes_bytesOfNat_of_lt (by omega)
  have sum := byteSum_check [a0, a1, 0x81, 3, a, b, c]
  generalize hk : 0 - byteSum [a0, a1, 0x81, 3, a, b, c] = check at sum
  refine ⟨[a0, a1, 0x81, 3, a, b, c] ++ [check], ?_, ?_⟩
  · rw [frameOf, Nat.mod_eq_of_lt short, bytes, ← hk]; rfl
  · have whole : frameAfterLead ([a0, a1, 0x81, 3, a, b, c] ++ [check]) =
        some { addr := natOfBytes [a0, a1], kind := 0x81, length := 3, payload := [a, b, c]
               sum := byteSum ([a0, a1, 0x81, 3, a, b, c] ++ [check]) } := by rfl
    rw [whole, sum, back]

/-- The scan finds the STATUS REPLY of a poll at once and discards nothing. -/
theorem scanFrames_statusReply {x : Exchange} (poll : x.port = none) (short : x.address < 1024) (a b c : Byte) :
    scanFrames x.accepts 0 (frameOf x.address 0x81 [a, b, c]) =
      (0, some { addr := x.address, kind := 0x81, length := 3, payload := [a, b, c], sum := 0 }) := by
  obtain ⟨body, framed, parsed⟩ := frameAfterLead_statusReply short a b c
  have accepted :
      x.accepts { addr := x.address, kind := 0x81, length := 3, payload := [a, b, c], sum := 0 } = true := by
    simp [Exchange.accepts, poll, Frame.fits, statusReply, statusLength]
  rw [framed, scanFrames, if_pos rfl, parsed]
  exact if_pos accepted

/-- A valid reply found at once ends the exchange. -/
theorem Chip.branchReceives_found {c : Chip} {b : Nat} {x : Exchange} {bs : List Byte} {f : Frame}
    (hold : (c.branch b).hold = some x) (keeps : x.discard = false) (found : scanFrames x.accepts 0 bs = (0, some f)) :
    c.branchReceives b bs = c.endExchange b (some f.payload) := by
  have counted : c.updBranch b (fun k => { k with rejected := k.rejected + BitVec.ofNat 32 0 }) = c := by
    have none : (fun k : Branch => { k with rejected := k.rejected + BitVec.ofNat 32 0 }) = id := by
      funext k
      rw [BitVec.add_zero]
      rfl
    exact congrArg c.setBranches (by rw [none]; exact vupd_id _ _ _ rfl)
  unfold Chip.branchReceives
  rw [hold]
  dsimp only
  rw [keeps, found]
  exact congrArg (fun d : Chip => d.endExchange b (some f.payload)) counted

/-! ### The answered poll at the supervision record (R74 to R77) -/

/-- The supervision record of an element after an answered poll, before its state is decided: history and counts, and
the level sample of an AMPLIFIER (R74 steps 1 to 3). -/
def Element.answeredSup (el : Element) (v : Nat) (now : Option Nat) : SupRecord :=
  let r := (el.sup.shift true).tally true now
  if el.record.kind = .amplifier then r.sample el.record.arm el.record.trigger v now else r

/-- Is the level of an AMPLIFIER low behind the sample? -/
def Element.staysLow (el : Element) (v : Nat) (now : Option Nat) : Bool :=
  el.record.kind == .amplifier && (el.answeredSup v now).level == .tripped

/-- Has the level of an AMPLIFIER just become low? -/
def Element.turnsLow (el : Element) (v : Nat) (now : Option Nat) : Bool :=
  el.record.kind == .amplifier && (el.sup.level != .tripped && (el.answeredSup v now).level == .tripped)

/-- Of a record sampled or not, the state, the history and the counts of exchanges are the tallied ones. -/
theorem Element.answeredSup_kept (el : Element) (v : Nat) (now : Option Nat) :
    (el.answeredSup v now).state = el.sup.state ∧ (el.answeredSup v now).history = (el.sup.history <<< 1) ||| 1
      ∧ (el.answeredSup v now).unanswered = 0 ∧ (el.answeredSup v now).answered = min 2 (el.sup.answered + 1) := by
  unfold Element.answeredSup
  dsimp only
  split <;> exact ⟨rfl, rfl, rfl, rfl⟩

/-- The part with the answered poll of element e in its record. -/
def Chip.answerTallied (c : Chip) (e v : Nat) : Chip := c.updSup e fun _ => (c.element e).answeredSup v c.now

theorem Chip.answerTallied_element (c : Chip) {e : Nat} (he : e < 640) (v : Nat) :
    (c.answerTallied e v).element e = { c.element e with sup := (c.element e).answeredSup v c.now } :=
  vget_vupd_same c.elements e (fun el => { el with sup := (c.element e).answeredSup v c.now }) he

theorem Chip.superviseResult_suppressed {c : Chip} {e : Nat} (suppressed : (c.element e).sup.state = .suppressed)
    (v : Option Nat) : c.superviseResult e true v = c.updSup e fun r => r.shift true := by
  rw [Chip.superviseResult, suppressed]
  exact if_pos rfl

/-- Steps 1 to 3 are the tallied record, step 4 decides (R74). -/
theorem Chip.superviseResult_decides {c : Chip} {e : Nat} (heard : (c.element e).sup.state ≠ .suppressed) (v : Nat) :
    c.superviseResult e true (some v) =
      (c.answerTallied e v).decideState e true
        ((c.element e).sup.level != .tripped && ((c.element e).answeredSup v c.now).level == .tripped) := by
  rw [Chip.superviseResult]
  exact if_neg heard

theorem Chip.answerTallied_lowLevel (c : Chip) {e : Nat} (he : e < 640) (v : Nat) :
    ((c.answerTallied e v).element e).lowLevel = (c.element e).staysLow v c.now := by
  rw [c.answerTallied_element he]; rfl

theorem Chip.superviseResult_failing {c : Chip} {e : Nat} (he : e < 640) (failing : (c.element e).sup.state = .failing)
    (v : Nat) : c.superviseResult e true (some v) =
      if 1 ≤ (c.element e).sup.answered ∧ (c.element e).staysLow v c.now = false then
        (c.answerTallied e v).recoverElement e
      else c.answerTallied e v := by
  obtain ⟨state, -, -, answered⟩ := (c.element e).answeredSup_kept v c.now
  have sup := congrArg Element.sup (c.answerTallied_element he v)
  have second : min 2 ((c.element e).sup.answered + 1) = 2 ↔ 1 ≤ (c.element e).sup.answered := by omega
  rw [Chip.superviseResult_decides (by rw [failing]; exact Supervision.noConfusion), Chip.decideState,
    c.answerTallied_lowLevel he, sup]
  dsimp only
  rw [state, failing, answered]
  simp only [second]

theorem Chip.superviseResult_unverified {c : Chip} {e : Nat} (he : e < 640)
    (unverified : (c.element e).sup.state = .unverified) (v : Nat) : c.superviseResult e true (some v) =
      if (c.element e).staysLow v c.now then c.answerTallied e v else (c.answerTallied e v).verifyElement e := by
  obtain ⟨state, -, unanswered, -⟩ := (c.element e).answeredSup_kept v c.now
  have sup := congrArg Element.sup (c.answerTallied_element he v)
  rw [Chip.superviseResult_decides (by rw [unverified]; exact Supervision.noConfusion), Chip.decideState,
    c.answerTallied_lowLevel he, sup]
  dsimp only
  rw [state, unverified, unanswered]
  cases (c.element e).staysLow v c.now <;> rfl

theorem Chip.superviseResult_answering {c : Chip} {e : Nat} (he : e < 640)
    (answering : (c.element e).sup.state = .answering) (v : Nat) : c.superviseResult e true (some v) =
      if (c.element e).turnsLow v c.now then
        (c.answerTallied e v).failElement e ((c.element e).answeredSup v c.now).lowStart
      else c.answerTallied e v := by
  obtain ⟨state, -, unanswered, -⟩ := (c.element e).answeredSup_kept v c.now
  have whole := c.answerTallied_element he v
  have sup := congrArg Element.sup whole
  have record := congrArg Element.record whole
  rw [Chip.superviseResult_decides (by rw [answering]; exact Supervision.noConfusion), Chip.decideState, sup, record]
  dsimp only
  rw [state, answering, unanswered]
  rfl

/-- The supervision record that an answered poll leaves (R74 to R77, R80). -/
def Element.decidedSup (el : Element) (v : Nat) (now : Option Nat) : SupRecord :=
  let r := el.answeredSup v now
  match el.sup.state with
  | .suppressed => el.sup.shift true
  | .failing =>
    if 1 ≤ el.sup.answered ∧ el.staysLow v now = false then { r with state := .answering, failure := none } else r
  | .unverified => if el.staysLow v now then r else { r with state := .answering, failure := none }
  | .answering => if el.turnsLow v now then { r with state := .failing, failure := r.lowStart } else r

theorem Chip.superviseResult_sup (c : Chip) {e : Nat} (he : e < 640) (v : Nat) :
    ((c.superviseResult e true (some v)).element e).sup = (c.element e).decidedSup v c.now := by
  have tallied := congrArg Element.sup (c.answerTallied_element he v)
  unfold Element.decidedSup
  cases state : (c.element e).sup.state with
  | suppressed => rw [Chip.superviseResult_suppressed state, c.updSup_state he]
  | failing =>
    rw [Chip.superviseResult_failing he state]
    dsimp only
    split
    · rw [Chip.recoverElement_sup _ he, tallied]
    · exact tallied
  | unverified =>
    rw [Chip.superviseResult_unverified he state]
    dsimp only
    split
    · exact tallied
    · rw [Chip.verifyElement_sup _ he, tallied]
  | answering =>
    rw [Chip.superviseResult_answering he state]
    dsimp only
    split
    · rw [Chip.failElement_sup _ he, tallied]
    · exact tallied

/-- Every answered poll shifts a 1 into the history (R74 step 1). -/
theorem Element.decidedSup_history (el : Element) (v : Nat) (now : Option Nat) :
    (el.decidedSup v now).history = (el.sup.history <<< 1) ||| 1 := by
  have kept := (el.answeredSup_kept v now).2.1
  unfold Element.decidedSup
  dsimp only
  split
  · rfl
  all_goals split <;> exact kept

/-! ### What the closing of an outage record leaves of an element's mark and of what was heard (R56, R86, R88) -/

/-- From c to d marks alone have changed of the elements, and an element e that was unmarked and is not FAILING still
is unmarked. -/
structure MarksOnly (e : Nat) (c d : Chip) : Prop where
  bare : ∀ x, { d.element x with mark := none } = { c.element x with mark := none }
  unmarked : (c.element e).mark = none → (c.element e).sup.state ≠ .failing → (d.element e).mark = none

section
variable {e : Nat} {c d x : Chip}

theorem MarksOnly.refl (e : Nat) (c : Chip) : MarksOnly e c c := ⟨fun _ => rfl, fun h _ => h⟩
theorem MarksOnly.sup (h : MarksOnly e c d) (y : Nat) : (d.element y).sup = (c.element y).sup :=
  (congrArg Element.sup (h.bare y) :)
theorem MarksOnly.trans (h : MarksOnly e c d) (h' : MarksOnly e d x) : MarksOnly e c x :=
  ⟨fun y => (h'.bare y).trans (h.bare y), fun none well =>
    h'.unmarked (h.unmarked none well) (by rw [h.sup]; exact well)⟩
theorem MarksOnly.ite {p : Prop} [Decidable p] (h : MarksOnly e c d) (h' : MarksOnly e c x) :
    MarksOnly e c (if p then d else x) := by split <;> assumption
theorem MarksOnly.of_elements (h : d.elements = c.elements) : MarksOnly e c d := by
  have same : ∀ y, d.element y = c.element y := fun y => by rw [Chip.element, h, ← Chip.element]
  exact ⟨fun y => by rw [same], fun none _ => by rw [same]; exact none⟩

end

/-- A mark set or cleared at another object. -/
theorem Chip.setMark_marksOnly {c : Chip} {e : Nat} {k : OutageKind} {o : Nat} (other : ¬ (k = .plant ∧ o = e))
    (m : Option Mark) : MarksOnly e c (c.setMark k o m) := by
  cases k with
  | plant =>
    refine ⟨fun x => ?_, fun none _ => ?_⟩
    · exact vget_vupd_kept (fun el : Element => ({ el with mark := none } : Element))
        (f := fun el => { el with mark := m })
        (fun _ => rfl) c.elements o x
    · have ne : e ≠ o := fun here => other ⟨rfl, here.symm⟩
      have same : (c.setMark .plant o m).element e = c.element e := vget_vupd_other c.elements o e _ ne
      rw [same]
      exact none
  | source => exact .of_elements rfl

theorem Chip.openNow_marksOnly {c : Chip} {e : Nat} {o : Opening} (other : ¬ (o.kind = .plant ∧ o.object = e)) :
    MarksOnly e c (c.openNow o) := by
  have appended : ∀ (d : Chip) l, MarksOnly e d (d.appendRecord l o) := fun d l =>
    .of_elements (Chip.noticeOf_reaches _ _ _ .elements (by decide))
  have opened : ∀ l, MarksOnly e c ((c.setMark o.kind o.object none).appendRecord l o) := fun l =>
    (Chip.setMark_marksOnly other none).trans (appended _ l)
  have marked : MarksOnly e c ((c.setMark o.kind o.object (some { start := o.start })).noticeOf o.object
      (.outageUnrecorded o.kind o.start)) :=
    (Chip.setMark_marksOnly other _).trans (.of_elements (Chip.noticeOf_reaches _ _ _ .elements (by decide)))
  unfold Chip.openNow
  exact .ite (opened _) (.ite (opened _) (.ite (.refl e c) marked))

/-- A marked object is served only while it is still failing (R88). -/
theorem Chip.serveMarked_marksOnly {c : Chip} {e : Nat} (well : (c.element e).sup.state ≠ .failing) :
    MarksOnly e c c.serveMarked := by
  unfold Chip.serveMarked
  split
  · next k found =>
    refine Chip.openNow_marksOnly fun ⟨kind, object⟩ => well ?_
    have failing := List.find?_some found
    dsimp only at kind object failing
    rw [kind, object] at failing
    exact beq_iff_eq.mp (Bool.and_eq_true_iff.mp failing).2
  · exact .refl e c

/-- An opening that waits proceeds only while its object is still failing (R86). -/
theorem Chip.openWaiting_marksOnly {c : Chip} {e : Nat} (well : (c.element e).sup.state ≠ .failing) (k : OutageKind)
    (o : Nat) : MarksOnly e c (c.openWaiting k o) := by
  unfold Chip.openWaiting
  dsimp only
  split
  · exact .refl e c
  · next w found =>
    have dropped : MarksOnly e c (c.setOutages { c.outages with
        waiting := c.outages.waiting.filter fun w => !(w.kind == k && w.object == o) }) := .of_elements rfl
    split
    · next failing =>
      refine dropped.trans (Chip.openNow_marksOnly fun ⟨kind, object⟩ => well ?_)
      have mine := List.find?_some found
      simp only [Bool.and_eq_true, beq_iff_eq] at mine
      obtain ⟨kind', object'⟩ := mine
      rw [← kind', ← object', kind, object] at failing
      exact beq_iff_eq.mp (Bool.and_eq_true_iff.mp failing).2
    · exact dropped

theorem Chip.recordClosed_marksOnly {c : Chip} {e : Nat} (well : (c.element e).sup.state ≠ .failing) (r : Outage) :
    MarksOnly e c (c.recordClosed r) := by
  have freed : MarksOnly e c
      (if r.acknowledged then c.freeRecord r.id else c.updRecord r.id fun x => { x with state := .closed }) :=
    .ite (.of_elements rfl) (.of_elements rfl)
  unfold Chip.recordClosed
  dsimp only
  generalize (if r.acknowledged then c.freeRecord r.id else c.updRecord r.id fun x => { x with state := .closed }) = d
    at freed ⊢
  have served := freed.trans (Chip.serveMarked_marksOnly (by rw [freed.sup]; exact well))
  exact served.trans (Chip.openWaiting_marksOnly (by rw [served.sup]; exact well) _ _)

/-- The closing of a record leaves a sound element unmarked and what was heard of every unit (R86, R88). -/
theorem Chip.closeOf_marksOnly {c : Chip} {e : Nat} (well : (c.element e).sup.state ≠ .failing) (k : OutageKind)
    (o : Nat) (p : OutageState → Bool) (w : CloseCause) : MarksOnly e c (c.closeOf k o p w) := by
  unfold Chip.closeOf
  split
  · next r _ =>
    have closing : MarksOnly e c ((c.updRecord r.id fun x =>
        { x with state := .closing, stop := c.now, cause := w }).noticeOf r.object
          (.outageClosed r.id r.kind r.start c.now w)) :=
      .of_elements (Chip.noticeOf_reaches _ _ _ .elements (by decide))
    unfold Chip.closeRecord
    dsimp only
    split
    · exact closing
    · exact closing.trans (Chip.recordClosed_marksOnly (by rw [closing.sup]; exact well) r)
  · exact .refl e c

end Sys2Proof.Machine

namespace Sys2Proof.Machine

/-! ### The four ports of a unit (R53, R56) -/

/-- A port that is unparked: unconfirmed, count 0, DIRTY or still IN FLIGHT (R53). -/
def Port.unparked (r : Port) : Port :=
  { r with confirmed := false, mismatch := 0, condition := if r.condition = .inFlight then .inFlight else .dirty }

theorem Chip.unparkPort_port (c : Chip) {p : Nat} (hp : p < 2560) :
    (c.unparkPort p).port p = (c.port p).unparked := by
  have reset : ((c.updPort p fun r => { r with confirmed := false, mismatch := 0 }).copySummary p).port p =
      { c.port p with confirmed := false, mismatch := 0 } :=
    (Chip.copySummary_port _ p p).trans (c.updPort_port _ hp)
  unfold Chip.unparkPort Port.unparked
  dsimp only
  rw [reset]
  cases condition : (c.port p).condition with
  | inFlight =>
    dsimp only
    rw [reset, if_pos rfl]
    dsimp only
    rw [condition]
  | idle | dirty | parked =>
    dsimp only
    rw [Chip.makeDirty_port _ hp, reset]
    rfl
  | stuck =>
    dsimp only
    rw [Chip.copySummary_port, Chip.makeDirty_port _ hp, reset]
    rfl

theorem Chip.unparkPort_port_other (c : Chip) {p q : Nat} (other : q ≠ p) : (c.unparkPort p).port q = c.port q := by
  have reset : ((c.updPort p fun r => { r with confirmed := false, mismatch := 0 }).copySummary p).port q = c.port q :=
    (Chip.copySummary_port _ p q).trans (c.updPort_port_other other _)
  have listed := (Chip.makeDirty_port_other
    ((c.updPort p fun r => { r with confirmed := false, mismatch := 0 }).copySummary p) other).trans reset
  unfold Chip.unparkPort
  dsimp only
  split
  · exact reset
  · exact listed
  · exact listed
  · exact listed
  · exact (Chip.copySummary_port _ p q).trans listed

/-- An operation on each port of a unit, where it reaches its own port alone. -/
theorem Chip.eachPort_port {f : Chip → Nat → Chip} {g : Port → Port} (c : Chip) {e : Nat} (he : e < 640)
    (own : ∀ (d : Chip) p, p < 2560 → (f d p).port p = g (d.port p))
    (other : ∀ (d : Chip) p q, q ≠ p → (f d p).port q = d.port q) {k : Nat} (hk : k < 4) :
    (c.eachPort e f).port (e * 4 + k) = g (c.port (e * 4 + k)) := by
  have loop : ∀ n, n ≤ 4 → ∀ j, j < 4 → (forIndices n (fun d i => f d (e * 4 + i)) c).port (e * 4 + j) =
      if j < n then g (c.port (e * 4 + j)) else c.port (e * 4 + j) := by
    intro n
    induction n with
    | zero => exact fun _ j _ => (if_neg (Nat.not_lt_zero j)).symm
    | succ n ih =>
      intro hn j hj
      rw [forIndices_succ]
      have before := ih (by omega) j hj
      by_cases here : j = n
      · subst here
        rw [own _ _ (by omega), before, if_neg (Nat.lt_irrefl j), if_pos (Nat.lt_succ_self j)]
      · rw [other _ _ _ (by omega), before]
        by_cases earlier : j < n
        · rw [if_pos earlier, if_pos (by omega)]
        · rw [if_neg earlier, if_neg (by omega)]
  exact (loop 4 (Nat.le_refl 4) k hk).trans (if_pos hk)

/-! ### A unit that answers (R53, R56) -/

/-- The element's unit has been heard, its ports doubted where its reply makes a report (R56). -/
def Chip.unitHeard (c : Chip) (e : Nat) (flags count : Byte) : Chip :=
  if c.isTap e then c.unitReport e flags count else c

/-- Behind the unit-report check the repoll lists alone change (R58). -/
theorem Chip.settlePoll_behind (c : Chip) (e : Nat) (level flags count : Byte) :
    Reaches [.branches] (c.unitHeard e flags count) (c.settlePoll e (some [level, flags, count])) := by
  have poll : c.settlePoll e (some [level, flags, count]) =
      if ((c.unitHeard e flags count).element e).record.inUse
        && ((c.unitHeard e flags count).element e).sup.state == .unverified
      then (c.unitHeard e flags count).repollAppend e else c.unitHeard e flags count := rfl
  rw [poll]
  exact .ite (Chip.repollAppend_reaches _ e) (.same _ _)

theorem Chip.unitHeard_other {c : Chip} {e : Nat} (flags count : Byte) (other : c.isTap e = false) :
    c.unitHeard e flags count = c := if_neg (by rw [other]; exact Bool.false_ne_true)

/-- The ports of a unit doubted or not, before the unit counts as heard. -/
def Chip.portsDoubted (c : Chip) (e : Nat) (flags count : Byte) : Chip :=
  if c.unitReports e flags count then c.eachPort e Chip.doubtPort else c

theorem Chip.unitHeard_tap {c : Chip} {e : Nat} (flags count : Byte) (tap : c.isTap e = true) :
    c.unitHeard e flags count = (c.portsDoubted e flags count).heardUnit e count := if_pos tap

theorem Chip.portsDoubted_reaches (c : Chip) (e : Nat) (flags count : Byte) :
    Reaches portBlocks c (c.portsDoubted e flags count) :=
  .ite (Chip.eachPort_reaches Chip.doubtPort_reaches c e) (.same _ c)

/-- The elements behind the unit-report check: of one tap what was heard and the doubt flag have changed. -/
theorem Chip.unitHeard_elements {c : Chip} {e : Nat} (flags count : Byte) (tap : c.isTap e = true) :
    (c.unitHeard e flags count).elements =
      vupd c.elements e fun el => { el with heard := some count, doubt := false } := by
  have elements := c.portsDoubted_reaches e flags count .elements (by decide)
  rw [Chip.unitHeard_tap flags count tap]
  exact congrArg (fun v => vupd v e fun el : Element => { el with heard := some count, doubt := false }) elements

theorem Chip.unitHeard_sup (c : Chip) (e : Nat) (flags count : Byte) (y : Nat) :
    ((c.unitHeard e flags count).element y).sup = (c.element y).sup
      ∧ ((c.unitHeard e flags count).element y).mark = (c.element y).mark := by
  cases tap : c.isTap e with
  | false => rw [Chip.unitHeard_other flags count tap]; exact ⟨rfl, rfl⟩
  | true =>
    rw [Chip.element, Chip.unitHeard_elements flags count tap]
    exact ⟨vget_vupd_kept Element.sup (f := fun el => { el with heard := some count, doubt := false })
        (fun _ => rfl) _ _ _,
      vget_vupd_kept Element.mark (f := fun el => { el with heard := some count, doubt := false }) (fun _ => rfl) _ _ _⟩

theorem Chip.unitHeard_element_other (c : Chip) {e y : Nat} (flags count : Byte) (other : y ≠ e) :
    (c.unitHeard e flags count).element y = c.element y := by
  cases tap : c.isTap e with
  | false => rw [Chip.unitHeard_other flags count tap]
  | true =>
    rw [Chip.element, Chip.unitHeard_elements flags count tap]
    exact vget_vupd_other _ _ _ _ other

theorem Chip.unitHeard_port {c : Chip} {e : Nat} (flags count : Byte) (tap : c.isTap e = true) {k : Nat} (hk : k < 4) :
    (c.unitHeard e flags count).port (e * 4 + k) =
      if c.unitReports e flags count then (c.port (e * 4 + k)).doubted else c.port (e * 4 + k) := by
  have he : e < 640 := Chip.element_lt (Bool.and_eq_true_iff.mp tap).1
  have heard : (c.unitHeard e flags count).port (e * 4 + k) = (c.portsDoubted e flags count).port (e * 4 + k) := by
    rw [Chip.unitHeard_tap flags count tap]; rfl
  rw [heard, Chip.portsDoubted]
  split
  · exact c.eachPort_port he (fun d p hp => d.doubtPort_port hp) (fun d p q ne => d.doubtPort_port_other ne) hk
  · rfl

/-- A reply that makes no report leaves ports and owners (R56). -/
theorem Chip.unitHeard_still {c : Chip} {e : Nat} {flags count : Byte} (still : c.unitReports e flags count = false) :
    Reaches [.elements] c (c.unitHeard e flags count) := by
  have same : c.portsDoubted e flags count = c := if_neg (by rw [still]; exact Bool.false_ne_true)
  unfold Chip.unitHeard
  refine .ite ?_ (.same _ c)
  have report : c.unitReport e flags count = (c.portsDoubted e flags count).heardUnit e count := rfl
  rw [report, same]
  exact c.heardUnit_reaches e count

/-- What makes a report: a restart, a summary that differs from the applied states, or an unexplained load (R56). -/
theorem Chip.unitReports_iff (c : Chip) (e : Nat) (flags count : Byte) : c.unitReports e flags count = true ↔
    flags.getLsbD 7 = true
      ∨ (∃ k, k < 4 ∧ ¬ (flags.getLsbD k = true ↔ (c.port (e * 4 + k)).applied ≠ .off))
      ∨ ((c.element e).doubt = false ∧ ∃ n, (c.element e).heard = some n ∧ n ≠ count) := by
  have each : ∀ k, (flags.getLsbD k != ((c.port (e * 4 + k)).applied != .off)) = true
      ↔ ¬ (flags.getLsbD k = true ↔ (c.port (e * 4 + k)).applied ≠ .off) := fun k => by
    rw [bne_iff_ne, ne_eq, Bool.eq_iff_iff, bne_iff_ne]
  have differs : c.summaryDiffers e flags = true
      ↔ ∃ k, k < 4 ∧ ¬ (flags.getLsbD k = true ↔ (c.port (e * 4 + k)).applied ≠ .off) := by
    rw [Chip.summaryDiffers, List.any_eq_true]
    simp only [List.mem_range, each]
  rw [Chip.unitReports, Bool.or_eq_true, Bool.or_eq_true, differs, or_assoc]
  by_cases restart : flags.getLsbD 7 = true
  · simp only [restart, true_or]
  · have calm : flags.getLsbD 7 = false := Bool.not_eq_true _ ▸ restart
    rw [calm]
    cases (c.element e).heard with
    | none => simp
    | some n => simp

/-! ### An element that enters ANSWERING: its mark, what was heard of its unit, and its ports (R53, R77, R80) -/

/-- Does an answered poll make the element, no AMPLIFIER, ANSWERING: it was UNVERIFIED, or FAILING with an answer
before (R77, R80)? -/
def Element.rejoins (el : Element) : Bool :=
  el.sup.state == .unverified || (el.sup.state == .failing && decide (1 ≤ el.sup.answered))

/-- An element with its mark gone and its record changed has been heard as before. -/
theorem Chip.enterAnswering_element (c : Chip) {e : Nat} (he : e < 640) : (c.enterAnswering e).element e =
    { c.element e with sup := { (c.element e).sup with state := .answering, failure := none }, mark := none } := by
  have marked : (c.enterAnswering e).element e =
      { (c.updSup e fun r => { r with state := .answering, failure := none }).element e with mark := none } :=
    vget_vupd_same _ _ _ he
  have changed : (c.updSup e fun r => { r with state := .answering, failure := none }).element e =
      { c.element e with sup := { (c.element e).sup with state := .answering, failure := none } } :=
    vget_vupd_same _ _ _ he
  rw [marked, changed]

/-- The element as it enters ANSWERING. -/
def Element.joined (el : Element) : Element :=
  { el with sup := { el.sup with state := .answering, failure := none }, mark := none }

theorem Chip.unparkElement_elements (c : Chip) (e : Nat) : (c.unparkElement e).elements = c.elements :=
  c.unparkElement_reaches e .elements (by decide)

/-- The closing of its record leaves an element that has just entered ANSWERING. -/
theorem Chip.closeOf_joined {c : Chip} {e : Nat} {el : Element} (joined : c.element e = el.joined) (k : OutageKind)
    (o : Nat) (p : OutageState → Bool) (w : CloseCause) : (c.closeOf k o p w).element e = el.joined := by
  have closed : MarksOnly e c (c.closeOf k o p w) :=
    Chip.closeOf_marksOnly (by rw [joined]; exact Supervision.noConfusion) k o p w
  have unmarked := closed.unmarked (by rw [joined]; rfl) (by rw [joined]; exact Supervision.noConfusion)
  have bare := closed.bare e
  rw [joined] at bare
  have same : (c.closeOf k o p w).element e = { (c.closeOf k o p w).element e with mark := none } := by
    rw [← unmarked]
  rw [same, bare]
  rfl

theorem Chip.verifyElement_element (c : Chip) {e : Nat} (he : e < 640) :
    (c.verifyElement e).element e = (c.element e).joined := by
  have entered : ((c.enterAnswering e).unparkElement e).element e = (c.element e).joined := by
    rw [Chip.element, Chip.unparkElement_elements, ← Chip.element, c.enterAnswering_element he]; rfl
  exact Chip.closeOf_joined entered _ _ _ _

theorem Chip.releaseBelow_element_self (c : Chip) (e : Nat) : (c.releaseBelow e).element e = c.element e := by
  refine forIndices_frame (fun d : Chip => d.element e) (fun d x => ?_) 640 c
  split
  · next below =>
    have freshened : (d.freshen x).element e = (d.updSup x fun _ => SupRecord.fresh).element e := rfl
    rw [freshened]
    exact vget_vupd_other _ _ _ _ (Ne.symm below.1)
  · rfl

theorem Chip.recoverElement_element (c : Chip) {e : Nat} (he : e < 640) :
    (c.recoverElement e).element e = (c.element e).joined := by
  rw [Chip.recoverElement, Chip.element, Chip.unparkElement_elements, ← Chip.element,
    Chip.releaseBelow_element_self]
  exact Chip.closeOf_joined (by rw [c.enterAnswering_element he]; rfl) _ _ _ _

/-- The ports of an in-use tap are unparked (R53). -/
theorem Chip.unparkElement_port {c : Chip} {e : Nat} (tap : c.isTap e = true) {k : Nat} (hk : k < 4) :
    (c.unparkElement e).port (e * 4 + k) = (c.port (e * 4 + k)).unparked := by
  have he : e < 640 := Chip.element_lt (Bool.and_eq_true_iff.mp tap).1
  have each : c.unparkElement e = c.eachPort e Chip.unparkPort := if_pos tap
  rw [each]
  exact c.eachPort_port he (fun d p hp => d.unparkPort_port hp) (fun d p q ne => d.unparkPort_port_other ne) hk

theorem Chip.isTap_of_element {c d : Chip} {e : Nat} (record : (d.element e).record = (c.element e).record) :
    d.isTap e = c.isTap e := by rw [Chip.isTap, Chip.isTap, record]

theorem Chip.verifyElement_port {c : Chip} {e : Nat} (tap : c.isTap e = true) {k : Nat} (hk : k < 4) :
    (c.verifyElement e).port (e * 4 + k) = (c.port (e * 4 + k)).unparked := by
  have he : e < 640 := Chip.element_lt (Bool.and_eq_true_iff.mp tap).1
  have still : (c.enterAnswering e).isTap e = true := by
    rw [Chip.isTap_of_element (c := c) (by rw [c.enterAnswering_element he])]; exact tap
  have ports : (c.enterAnswering e).port (e * 4 + k) = c.port (e * 4 + k) :=
    Chip.port_eq_of_reaches (c.enterAnswering_reaches e) (by decide) _
  rw [Chip.verifyElement, Chip.port_eq_of_reaches (Chip.closeOf_reaches _ _ _ _ _) (by decide),
    Chip.unparkElement_port still hk, ports]

theorem Chip.recoverElement_port {c : Chip} {e : Nat} (tap : c.isTap e = true) {k : Nat} (hk : k < 4) :
    (c.recoverElement e).port (e * 4 + k) = (c.port (e * 4 + k)).unparked := by
  have he : e < 640 := Chip.element_lt (Bool.and_eq_true_iff.mp tap).1
  let released := ((c.enterAnswering e).closeOf .plant e (· == .opened) .recovered).releaseBelow e
  have element : released.element e = (c.element e).joined := by
    rw [Chip.releaseBelow_element_self]
    exact Chip.closeOf_joined (by rw [c.enterAnswering_element he]; rfl) _ _ _ _
  have still : released.isTap e = true := by
    rw [Chip.isTap_of_element (c := c) (by rw [element]; rfl)]; exact tap
  have reach : Reaches [.elements, .outages, .journal, .branches] c released :=
    ((c.enterAnswering_reaches e).then (by rfl) (Chip.closeOf_reaches _ _ _ _ _)
      (bs := [.elements, .outages, .journal])).then (by rfl) (Chip.releaseBelow_reaches _ e)
  rw [Chip.recoverElement, Chip.unparkElement_port still hk, Chip.port_eq_of_reaches reach (by decide)]

/-! ### A tap whose poll is answered (R74 to R77, R80) -/

theorem Element.plain_not_low {el : Element} (plain : el.record.kind ≠ .amplifier) (v : Nat) (now : Option Nat) :
    el.staysLow v now = false ∧ el.turnsLow v now = false := by
  have kind : (el.record.kind == ElementKind.amplifier) = false := beq_eq_false_iff_ne.mpr plain
  rw [Element.staysLow, Element.turnsLow, kind]
  exact ⟨rfl, rfl⟩

/-- An element that is no AMPLIFIER, behind its answered poll: verified, recovered, or its record alone has changed. -/
theorem Chip.superviseResult_plain {c : Chip} {e : Nat} (he : e < 640) (plain : (c.element e).record.kind ≠ .amplifier)
    (v : Nat) :
    ((c.element e).sup.state = .unverified
        ∧ c.superviseResult e true (some v) = (c.answerTallied e v).verifyElement e)
      ∨ ((c.element e).sup.state = .failing ∧ 1 ≤ (c.element e).sup.answered
        ∧ c.superviseResult e true (some v) = (c.answerTallied e v).recoverElement e)
      ∨ ((c.element e).rejoins = false
        ∧ ∃ f, c.superviseResult e true (some v) = c.updSup e f) := by
  obtain ⟨stays, turns⟩ := Element.plain_not_low plain v c.now
  unfold Element.rejoins
  cases state : (c.element e).sup.state with
  | suppressed => exact .inr (.inr ⟨rfl, _, Chip.superviseResult_suppressed state _⟩)
  | failing =>
    have result := Chip.superviseResult_failing he state v
    by_cases second : 1 ≤ (c.element e).sup.answered
    · rw [if_pos ⟨second, stays⟩] at result
      exact .inr (.inl ⟨rfl, second, result⟩)
    · rw [if_neg fun both => second both.1] at result
      exact .inr (.inr ⟨by rw [decide_eq_false second]; rfl, _, result⟩)
  | unverified =>
    have result := Chip.superviseResult_unverified he state v
    rw [stays] at result
    exact .inl ⟨rfl, result⟩
  | answering =>
    have result := Chip.superviseResult_answering he state v
    rw [turns] at result
    have tallied : c.superviseResult e true (some v) = c.answerTallied e v := result
    exact .inr (.inr ⟨rfl, _, tallied⟩)

/-- What the supervision of an answered poll leaves of an in-use tap: its table record, what was heard of its unit,
its doubt flag; its ports unparked where it has become ANSWERING, and otherwise every port and record. -/
structure TapAnswered (e : Nat) (c d : Chip) : Prop where
  tap : d.isTap e = true
  heard : (d.element e).heard = (c.element e).heard
  doubt : (d.element e).doubt = (c.element e).doubt
  ports : ∀ k, k < 4 → d.port (e * 4 + k) =
    if (c.element e).rejoins then (c.port (e * 4 + k)).unparked else c.port (e * 4 + k)
  rest : (c.element e).rejoins = false → Reaches [.elements] c d

theorem Chip.superviseResult_tap {c : Chip} {e : Nat} (used : (c.element e).record.inUse = true)
    (kind : (c.element e).record.kind = .tap) (v : Nat) : TapAnswered e c (c.superviseResult e true (some v)) := by
  have he : e < 640 := Chip.element_lt used
  have tap : c.isTap e = true := by rw [Chip.isTap, used, kind]; rfl
  have tallied := c.answerTallied_element he v
  have tallyTap : (c.answerTallied e v).isTap e = true := by
    rw [Chip.isTap_of_element (c := c) (by rw [tallied])]; exact tap
  obtain ⟨state, result⟩ | ⟨state, second, result⟩ | ⟨stays, f, result⟩ :=
    Chip.superviseResult_plain he (by rw [kind]; exact ElementKind.noConfusion) v
  · have rejoins : (c.element e).rejoins = true := by rw [Element.rejoins, state]; rfl
    have element := (c.answerTallied e v).verifyElement_element he
    rw [tallied] at element
    rw [result]
    refine ⟨?_, by rw [element]; rfl, by rw [element]; rfl, fun k hk => ?_, fun no =>
      absurd (no.symm.trans rejoins) Bool.false_ne_true⟩
    · rw [Chip.isTap_of_element (c := c) (by rw [element]; rfl)]; exact tap
    · rw [Chip.verifyElement_port tallyTap hk, if_pos rejoins]; rfl
  · have rejoins : (c.element e).rejoins = true := by rw [Element.rejoins, state, decide_eq_true second]; rfl
    have element := (c.answerTallied e v).recoverElement_element he
    rw [tallied] at element
    rw [result]
    refine ⟨?_, by rw [element]; rfl, by rw [element]; rfl, fun k hk => ?_, fun no =>
      absurd (no.symm.trans rejoins) Bool.false_ne_true⟩
    · rw [Chip.isTap_of_element (c := c) (by rw [element]; rfl)]; exact tap
    · rw [Chip.recoverElement_port tallyTap hk, if_pos rejoins]; rfl
  · have element : (c.updSup e f).element e = { c.element e with sup := f (c.element e).sup } :=
      vget_vupd_same _ _ _ he
    rw [result]
    refine ⟨?_, by rw [element], by rw [element], fun k hk => ?_, fun _ => c.updSup_reaches e f⟩
    · rw [Chip.isTap_of_element (c := c) (by rw [element])]; exact tap
    · rw [stays]; rfl

end Sys2Proof.Machine

namespace Sys2Proof.Machine

/-! ### The record that an answered poll leaves, kind by kind (R74 to R77, R80) -/

section
variable {el : Element} (v : Nat) (now : Option Nat)

theorem Element.decidedSup_suppressed (suppressed : el.sup.state = .suppressed) :
    el.decidedSup v now = { el.sup with history := (el.sup.history <<< 1) ||| 1 } := by
  rw [Element.decidedSup, suppressed]; rfl

theorem Element.answeredSup_plain (plain : el.record.kind ≠ .amplifier) : el.answeredSup v now =
    { el.sup with history := (el.sup.history <<< 1) ||| 1, unanswered := 0, answered := min 2 (el.sup.answered + 1) } :=
  if_neg plain

theorem Element.decidedSup_answering_plain (plain : el.record.kind ≠ .amplifier)
    (answering : el.sup.state = .answering) :
    el.decidedSup v now = { el.sup with
      history := (el.sup.history <<< 1) ||| 1, unanswered := 0, answered := min 2 (el.sup.answered + 1) } := by
  rw [Element.decidedSup, answering]
  dsimp only
  rw [(Element.plain_not_low plain v now).2, el.answeredSup_plain v now plain]
  rfl

/-- An element, no AMPLIFIER, that has become ANSWERING. -/
theorem Element.decidedSup_rejoins (plain : el.record.kind ≠ .amplifier) (rejoins : el.rejoins = true) :
    (el.decidedSup v now).state = .answering ∧ (el.decidedSup v now).failure = none := by
  have low := (Element.plain_not_low plain v now).1
  unfold Element.rejoins at rejoins
  unfold Element.decidedSup
  cases state : el.sup.state with
  | unverified =>
    dsimp only
    rw [low]
    exact ⟨rfl, rfl⟩
  | failing =>
    have second : 1 ≤ el.sup.answered := by simpa [state] using rejoins
    dsimp only
    rw [if_pos ⟨second, low⟩]
    exact ⟨rfl, rfl⟩
  | answering => rw [state] at rejoins; exact absurd rejoins Bool.false_ne_true
  | suppressed => rw [state] at rejoins; exact absurd rejoins Bool.false_ne_true

/-- A FAILING element recovers on its second answer in a row, its level not low (R80). -/
theorem Element.decidedSup_failing (failing : el.sup.state = .failing) : (el.decidedSup v now).state = .answering
    ↔ 1 ≤ el.sup.answered ∧ el.staysLow v now = false := by
  have state := (el.answeredSup_kept v now).1
  rw [Element.decidedSup, failing]
  dsimp only
  split
  · next recovers => exact ⟨fun _ => recovers, fun _ => rfl⟩
  · next not =>
    rw [state, failing]
    exact ⟨fun other => Supervision.noConfusion other, fun recovers => absurd recovers not⟩

theorem Element.decidedSup_unverified (unverified : el.sup.state = .unverified) :
    (el.decidedSup v now).state = if el.staysLow v now then .unverified else .answering := by
  have state := (el.answeredSup_kept v now).1
  rw [Element.decidedSup, unverified]
  dsimp only
  split
  · rw [state, unverified]
  · rfl

theorem Element.decidedSup_answering (answering : el.sup.state = .answering) :
    (el.turnsLow v now = true → (el.decidedSup v now).state = .failing
        ∧ (el.decidedSup v now).failure = (el.answeredSup v now).lowStart)
      ∧ (el.turnsLow v now = false → (el.decidedSup v now).state = .answering) := by
  have state := (el.answeredSup_kept v now).1
  rw [Element.decidedSup, answering]
  dsimp only
  refine ⟨fun turns => ?_, fun not => ?_⟩
  · rw [if_pos turns]
    exact ⟨rfl, rfl⟩
  · rw [if_neg (by rw [not]; exact Bool.false_ne_true), state, answering]

/-- The decision leaves the hysteresis as sampled. -/
theorem Element.decidedSup_run (heard : el.sup.state ≠ .suppressed) :
    (el.decidedSup v now).run = (el.answeredSup v now).run := by
  unfold Element.decidedSup
  cases state : el.sup.state with
  | suppressed => exact absurd state heard
  | unverified | answering | failing =>
    dsimp only
    split <;> rfl

/-- The level sample of an AMPLIFIER (R75). -/
theorem Element.answeredSup_amplifier (amplifier : el.record.kind = .amplifier) :
    (el.answeredSup v now).run = el.sup.run.sample el.record.arm el.record.trigger 3 2 v now := by
  have sampled : el.answeredSup v now =
      ((el.sup.shift true).tally true now).sample el.record.arm el.record.trigger v now := if_pos amplifier
  rw [sampled]
  rfl

theorem Element.low_amplifier (amplifier : el.record.kind = .amplifier) :
    let y := el.sup.run.sample el.record.arm el.record.trigger 3 2 v now
    (el.staysLow v now = decide (y.state = .tripped))
      ∧ (el.turnsLow v now = decide (el.sup.level ≠ .tripped ∧ y.state = .tripped)) := by
  have level : (el.answeredSup v now).level = (el.sup.run.sample el.record.arm el.record.trigger 3 2 v now).state :=
    congrArg LevelRun.state (el.answeredSup_amplifier v now amplifier)
  have kind : (el.record.kind == ElementKind.amplifier) = true := beq_iff_eq.mpr amplifier
  rw [Element.staysLow, Element.turnsLow, kind, level, Bool.true_and, Bool.true_and]
  refine ⟨rfl, Bool.eq_iff_iff.mpr ?_⟩
  simp only [Bool.and_eq_true, bne_iff_ne, beq_iff_eq, decide_eq_true_eq]

/-- Everything an answered poll does to the record of an AMPLIFIER that is not SUPPRESSED (R75 to R77, R80). -/
theorem Element.decidedSup_amplifier (amplifier : el.record.kind = .amplifier) (heard : el.sup.state ≠ .suppressed) :
    let y := el.sup.run.sample el.record.arm el.record.trigger 3 2 v now
    let z := el.decidedSup v now
    z.level = y.state ∧ z.low = y.low ∧ z.high = y.high ∧ z.lowStart = y.start
      ∧ (el.sup.state = .answering → (el.sup.level ≠ .tripped ∧ y.state = .tripped →
            z.state = .failing ∧ z.failure = y.start)
          ∧ (¬ (el.sup.level ≠ .tripped ∧ y.state = .tripped) → z.state = .answering))
      ∧ (el.sup.state = .unverified → z.state = if y.state = .tripped then .unverified else .answering)
      ∧ (el.sup.state = .failing → (z.state = .answering ↔ 1 ≤ el.sup.answered ∧ y.state ≠ .tripped)) := by
  intro y z
  have sampled : (el.answeredSup v now).run = y := el.answeredSup_amplifier v now amplifier
  have run : z.run = y := (el.decidedSup_run v now heard).trans sampled
  obtain ⟨stays, turns⟩ := el.low_amplifier v now amplifier
  refine ⟨congrArg LevelRun.state run, congrArg LevelRun.low run, congrArg LevelRun.high run,
    congrArg LevelRun.start run, fun answering => ?_, fun unverified => ?_, fun failing => ?_⟩
  · obtain ⟨fails, keeps⟩ := el.decidedSup_answering v now answering
    refine ⟨fun trips => ?_, fun holds => keeps (turns.trans (decide_eq_false holds))⟩
    obtain ⟨state, failure⟩ := fails (turns.trans (decide_eq_true trips))
    exact ⟨state, failure.trans (congrArg LevelRun.start sampled)⟩
  · refine (el.decidedSup_unverified v now unverified).trans ?_
    rw [stays]
    simp only [decide_eq_true_eq]
    rfl
  · rw [el.decidedSup_failing v now failing, stays, decide_eq_false_iff_not]

end

/-! ### The part behind an answered poll -/

/-- From c, its exchange counted, to d a valid STATUS REPLY of element e has been handed on, and links have selected. -/
structure PollAnswered (e : Nat) (level flags count : Byte) (c d : Chip) : Prop where
  reach : Reaches settleBlocks ((c.superviseResult e true (some level.toNat)).unitHeard e flags count) d
  ports : ∀ p, let w := (c.superviseResult e true (some level.toNat)).unitHeard e flags count
    d.port p = w.port p ∨ d.port p = (w.port p).loaded

section
variable {e : Nat} {level flags count : Byte} {c d : Chip}

theorem PollAnswered.element (h : PollAnswered e level flags count c d) (y : Nat) : d.element y =
    ((c.superviseResult e true (some level.toNat)).unitHeard e flags count).element y := by
  rw [Chip.element, h.reach .elements (by decide), ← Chip.element]

theorem PollAnswered.sup (h : PollAnswered e level flags count c d) (he : e < 640) :
    (d.element e).sup = (c.element e).decidedSup level.toNat c.now := by
  rw [h.element, (Chip.unitHeard_sup _ e flags count e).1, c.superviseResult_sup he]

/-- The unit-report check reaches neither journal nor outage records. -/
theorem Chip.unitHeard_reaches (c : Chip) (e : Nat) (flags count : Byte) :
    Reaches [.subs, .ports, .branches, .elements] c (c.unitHeard e flags count) := by
  refine .ite ?_ (.same _ c)
  exact (c.portsDoubted_reaches e flags count).then (by rfl) (Chip.heardUnit_reaches _ e count)

/-- An ANSWERING element that is no AMPLIFIER stays so: its own record alone has changed. -/
theorem Chip.superviseResult_stays (he : e < 640) (plain : (c.element e).record.kind ≠ .amplifier)
    (answering : (c.element e).sup.state = .answering) (v : Nat) :
    ∃ f, c.superviseResult e true (some v) = c.updSup e f := by
  obtain ⟨state, -⟩ | ⟨state, -⟩ | ⟨-, f, result⟩ := Chip.superviseResult_plain he plain v
  · rw [answering] at state; exact Supervision.noConfusion state
  · rw [answering] at state; exact Supervision.noConfusion state
  · exact ⟨f, result⟩

theorem PollAnswered.stays (h : PollAnswered e level flags count c d) (he : e < 640)
    (plain : (c.element e).record.kind ≠ .amplifier) (answering : (c.element e).sup.state = .answering) :
    (∀ y, y ≠ e → d.element y = c.element y) ∧ d.journal = c.journal ∧ d.outages = c.outages := by
  obtain ⟨f, result⟩ := Chip.superviseResult_stays he plain answering level.toNat
  have tallied : Reaches [.elements] c (c.superviseResult e true (some level.toNat)) := by
    rw [result]; exact c.updSup_reaches e f
  have whole := tallied.then (by rfl) (Chip.unitHeard_reaches _ e flags count)
    (bs := [.subs, .ports, .branches, .elements])
  refine ⟨fun y ne => ?_, ?_, ?_⟩
  · rw [h.element, Chip.unitHeard_element_other _ flags count ne, result]
    exact vget_vupd_other _ _ _ _ ne
  · exact (whole .journal (by decide)).trans (h.reach .journal (by decide))
  · exact (whole .outages (by decide)).trans (h.reach .outages (by decide))

/-- A NODE: its subscribers stand while it is ANSWERING, and its mark is gone once it is verified (R77, R88). -/
theorem PollAnswered.node (h : PollAnswered e level flags count c d) (he : e < 640)
    (node : (c.element e).record.kind = .node) :
    ((c.element e).sup.state = .answering → d.subs = c.subs)
      ∧ ((c.element e).sup.state = .unverified → (d.element e).mark = none) := by
  have plain : (c.element e).record.kind ≠ .amplifier := by rw [node]; exact ElementKind.noConfusion
  refine ⟨fun answering => ?_, fun unverified => ?_⟩
  · obtain ⟨f, result⟩ := Chip.superviseResult_stays he plain answering level.toNat
    have reach := h.reach .subs (by decide)
    have other : (c.updSup e f).isTap e = false := by
      have kind : ((c.updSup e f).element e).record.kind = .node :=
        (congrArg ElementRecord.kind (c.updSup_records e f e)).trans node
      rw [Chip.isTap, kind]
      exact Bool.and_false _
    rw [result, Chip.unitHeard_other flags count other] at reach
    exact reach
  · obtain ⟨-, result⟩ | ⟨state, -⟩ | ⟨stays, -⟩ := Chip.superviseResult_plain he plain level.toNat
    · rw [h.element, (Chip.unitHeard_sup _ e flags count e).2, result, Chip.verifyElement_element _ he]
      rfl
    · rw [unverified] at state; exact Supervision.noConfusion state
    · rw [Element.rejoins, unverified] at stays; exact absurd stays.symm Bool.false_ne_true

/-! ### The ports of a tap behind its answered poll (R53, R56) -/

/-- A port as it stands behind an answered poll of its tap, before the links select. -/
def Port.polledBy (r : Port) (rejoins reports : Bool) : Port :=
  if reports then (if rejoins then r.unparked else r).doubted else if rejoins then r.unparked else r

theorem Port.doubted_confirmed (r : Port) : r.doubted.confirmed = false := by
  unfold Port.doubted
  split <;> rfl

/-- A port that is unparked, doubted or not, waits for its load unconfirmed (R53). -/
theorem Port.polledBy_rejoins (r : Port) (reports : Bool) :
    (r.polledBy true reports).confirmed = false ∧ (r.polledBy true reports).mismatch = 0
      ∧ ((r.polledBy true reports).condition = .dirty ∨ (r.polledBy true reports).condition = .inFlight) := by
  have unparked : r.unparked.condition = .inFlight ∨ r.unparked.condition = .dirty := by
    unfold Port.unparked
    dsimp only
    split
    · exact .inl rfl
    · exact .inr rfl
  have calm : r.unparked.confirmed = false ∧ r.unparked.mismatch = 0 := ⟨rfl, rfl⟩
  cases reports with
  | false => exact ⟨calm.1, calm.2, unparked.symm⟩
  | true =>
    have doubted : r.polledBy true true = r.unparked.doubted := rfl
    rw [doubted, Port.doubted]
    obtain flies | dirty := unparked
    · rw [flies]; exact ⟨rfl, calm.2, .inr rfl⟩
    · rw [dirty]; exact ⟨rfl, calm.2, .inl rfl⟩

theorem TapAnswered.unitReports {u : Chip} (h : TapAnswered e c u) :
    u.unitReports e flags count = true ↔ c.unitReports e flags count = true := by
  have applied : ∀ k, k < 4 → (u.port (e * 4 + k)).applied = (c.port (e * 4 + k)).applied := fun k hk => by
    rw [h.ports k hk]
    split <;> rfl
  have ports : (∃ k, k < 4 ∧ ¬ (flags.getLsbD k = true ↔ (u.port (e * 4 + k)).applied ≠ .off))
      ↔ ∃ k, k < 4 ∧ ¬ (flags.getLsbD k = true ↔ (c.port (e * 4 + k)).applied ≠ .off) :=
    exists_congr fun k => and_congr_right fun hk => by rw [applied k hk]
  rw [Chip.unitReports_iff, Chip.unitReports_iff, h.heard, h.doubt, ports]

/-- Each port of a polled tap behind the selections. -/
theorem PollAnswered.tapPort (h : PollAnswered e level flags count c d) (used : (c.element e).record.inUse = true)
    (kind : (c.element e).record.kind = .tap) {k : Nat} (hk : k < 4) :
    let r := (c.port (e * 4 + k)).polledBy (c.element e).rejoins (c.unitReports e flags count)
    d.port (e * 4 + k) = r ∨ d.port (e * 4 + k) = r.loaded := by
  have answered := Chip.superviseResult_tap used kind level.toNat
  have reports : (c.superviseResult e true (some level.toNat)).unitReports e flags count =
      c.unitReports e flags count := Bool.eq_iff_iff.mpr answered.unitReports
  have heard := Chip.unitHeard_port flags count answered.tap hk
  rw [reports, answered.ports k hk] at heard
  have selected := h.ports (e * 4 + k)
  dsimp only at selected
  rw [heard] at selected
  exact selected

/-- A reply that makes no report, of an ANSWERING tap, leaves confirmed flags and owners (R56). -/
theorem PollAnswered.unreported (h : PollAnswered e level flags count c d)
    (used : (c.element e).record.inUse = true) (kind : (c.element e).record.kind = .tap)
    (stays : (c.element e).rejoins = false) (calm : c.unitReports e flags count = false) :
    (∀ p, (d.port p).confirmed = (c.port p).confirmed) ∧ d.subs = c.subs := by
  have answered := Chip.superviseResult_tap used kind level.toNat
  have still : (c.superviseResult e true (some level.toNat)).unitReports e flags count = false :=
    (Bool.eq_iff_iff.mpr answered.unitReports).trans calm
  have reach := (answered.rest stays).then (by rfl) (Chip.unitHeard_still still) (bs := [.elements])
  refine ⟨fun p => ?_, (reach .subs (by decide)).trans (h.reach .subs (by decide))⟩
  have port := Chip.port_eq_of_reaches reach (by decide) p
  obtain same | taken := h.ports p
  · rw [same, port]
  · rw [taken, port]; rfl

/-- The unit of a polled tap has been heard (R56). -/
theorem PollAnswered.heard (h : PollAnswered e level flags count c d) (used : (c.element e).record.inUse = true)
    (kind : (c.element e).record.kind = .tap) :
    (d.element e).heard = some count ∧ (d.element e).doubt = false := by
  have answered := Chip.superviseResult_tap used kind level.toNat
  rw [h.element, Chip.element, Chip.unitHeard_elements flags count answered.tap,
    vget_vupd_same _ _ _ (Chip.element_lt used)]
  exact ⟨rfl, rfl⟩

/-- Everything an answered poll does to an in-use tap (R53, R54, R56, R77, R80). -/
theorem PollAnswered.tapClauses (h : PollAnswered e level flags count c d)
    (kind : (c.element e).record.kind = .tap) (used : (c.element e).record.inUse = true) :
    let reports := flags.getLsbD 7 = true
      ∨ (∃ k, k < 4 ∧ ¬ (flags.getLsbD k = true ↔ (c.port (e * 4 + k)).applied ≠ .off))
      ∨ ((c.element e).doubt = false ∧ ∃ n, (c.element e).heard = some n ∧ n ≠ count)
    (d.element e).heard = some count ∧ (d.element e).doubt = false
      ∧ (reports → ∀ k, k < 4 → (d.port (e * 4 + k)).confirmed = false)
      ∧ ((c.element e).sup.state = .unverified ∨ ((c.element e).sup.state = .failing ∧ 1 ≤ (c.element e).sup.answered) →
        (d.element e).sup.state = .answering ∧ (d.element e).sup.failure = none
          ∧ ∀ k, k < 4 → let p := d.port (e * 4 + k)
            p.confirmed = false ∧ p.mismatch = 0 ∧ (p.condition = .dirty ∨ p.condition = .inFlight))
      ∧ ((c.element e).sup.state = .answering →
        (reports → ∀ k, k < 4 →
            ((c.port (e * 4 + k)).condition = .idle ∨ (c.port (e * 4 + k)).condition = .stuck →
              (d.port (e * 4 + k)).condition = .dirty ∨ (d.port (e * 4 + k)).condition = .inFlight)
              ∧ ((c.port (e * 4 + k)).condition = .stuck → (d.port (e * 4 + k)).mismatch = 0))
          ∧ (¬ reports → (∀ p, (d.port p).confirmed = (c.port p).confirmed) ∧ d.subs = c.subs)) := by
  intro reports
  have plain : (c.element e).record.kind ≠ .amplifier := by rw [kind]; exact ElementKind.noConfusion
  have means : c.unitReports e flags count = true ↔ reports := c.unitReports_iff e flags count
  obtain ⟨heard, doubt⟩ := h.heard used kind
  refine ⟨heard, doubt, fun makes k hk => ?_, fun was => ?_, fun answering => ⟨fun makes k hk => ?_, fun calm => ?_⟩⟩
  · have unconfirmed : ((c.port (e * 4 + k)).polledBy (c.element e).rejoins
        (c.unitReports e flags count)).confirmed = false := by
      rw [means.mpr makes]; exact Port.doubted_confirmed _
    obtain same | taken := h.tapPort used kind hk
    · rw [same]; exact unconfirmed
    · rw [taken]; exact unconfirmed
  · have rejoins : (c.element e).rejoins = true := by
      rw [Element.rejoins]
      obtain state | ⟨state, second⟩ := was
      · rw [state]; rfl
      · rw [state, decide_eq_true second]; rfl
    obtain ⟨state, failure⟩ := Element.decidedSup_rejoins level.toNat c.now plain rejoins
    rw [h.sup (Chip.element_lt used)]
    refine ⟨state, failure, fun k hk => ?_⟩
    obtain ⟨confirmed, mismatch, condition⟩ :=
      (c.port (e * 4 + k)).polledBy_rejoins (c.unitReports e flags count)
    have port := h.tapPort used kind hk
    rw [rejoins] at port
    obtain same | taken := port
    · rw [same]; exact ⟨confirmed, mismatch, condition⟩
    · rw [taken]; exact ⟨confirmed, mismatch, .inr rfl⟩
  · have stays : (c.element e).rejoins = false := by rw [Element.rejoins, answering]; rfl
    have port := h.tapPort used kind hk
    rw [stays, means.mpr makes] at port
    have doubted : (c.port (e * 4 + k)).polledBy false true = (c.port (e * 4 + k)).doubted := rfl
    rw [doubted] at port
    refine ⟨fun listable => ?_, fun stuck => ?_⟩
    · have dirty : (c.port (e * 4 + k)).doubted.condition = .dirty := by
        rw [Port.doubted]
        obtain condition | condition := listable <;> rw [condition]
      obtain same | taken := port
      · rw [same]; exact .inl dirty
      · rw [taken]; exact .inr rfl
    · have cleared : (c.port (e * 4 + k)).doubted.mismatch = 0 := by rw [Port.doubted, stuck]
      obtain same | taken := port
      · rw [same]; exact cleared
      · rw [taken]; exact cleared
  · have stays : (c.element e).rejoins = false := by rw [Element.rejoins, answering]; rfl
    exact h.unreported used kind stays (Bool.eq_false_iff.mpr fun makes => calm (means.mp makes))

end

/-- A valid STATUS REPLY to the poll under way: the exchange is counted answered, the reply handed on. -/
theorem exec_statusReply {b : Fin 4} {x : Exchange} {s : State} (level flags count : Byte)
    (listening : (s.chip.branch b).link = .listening) (hold : (s.chip.branch b).hold = some x)
    (keeps : x.discard = false) (poll : x.port = none) (short : x.address < 1024) :
    ∃ t, exec (.branchReplyReceived b (frameOf x.address 0x81 [level, flags, count])) s = .next t
      ∧ (t.chip.branch b).exchanges = (s.chip.branch b).exchanges + 1
      ∧ (t.chip.branch b).unanswered = (s.chip.branch b).unanswered
      ∧ (t.chip.branch b).rejected = (s.chip.branch b).rejected
      ∧ PollAnswered x.element level flags count (s.chip.exchangeCounted b true) t.chip
      ∧ SameTime s t ∧ SameLineUp s t ∧ SameOutside s t := by
  have found := scanFrames_statusReply poll short level flags count
  generalize frameOf x.address 0x81 [level, flags, count] = bytes at found ⊢
  have received := Chip.branchReceives_found hold keeps found
  dsimp only at received
  have run : exec (.branchReplyReceived b bytes) s = .next (s.act fun c => c.branchReceives b bytes) :=
    congrArg Host.Outcome.next (State.actIf_ready (ready := Chip.listening b) (beq_iff_eq.mpr listening) _)
  have chip := s.act_chip fun c => c.branchReceives b bytes
  have outside := s.act_outside fun c => c.branchReceives b bytes
  refine ⟨_, run, ?_⟩
  generalize (s.act fun c => c.branchReceives b bytes) = t at chip outside ⊢
  have reach := s.chip.branchReceives_reaches b bytes
  have meters : (t.chip.branch b).meters = { (s.chip.branch b).meters with
      exchanges := (s.chip.branch b).exchanges + 1 } := by
    rw [chip, (Chip.settle_selects _).meters b, received, Chip.endExchange_meters b.isLt hold]
    rfl
  have settled : s.chip.exchangeSettled b x (some [level, flags, count]) =
      ((s.chip.exchangeCounted b true).superviseResult x.element true (some level.toNat)).settlePoll x.element
        (some [level, flags, count]) := by
    have handed : s.chip.exchangeSettled b x (some [level, flags, count]) =
        (s.chip.exchangeCounted b true).handResult x (some [level, flags, count]) :=
      if_neg (by rw [keeps]; exact Bool.false_ne_true)
    rw [handed, Chip.handResult, poll]
    rfl
  have behind := Chip.settlePoll_behind
    ((s.chip.exchangeCounted b true).superviseResult x.element true (some level.toNat)) x.element level flags count
  have ended : t.chip =
      (((s.chip.exchangeSettled b x (some [level, flags, count])).stageEmptied b).armBranch b).settle := by
    rw [chip, received, Chip.endExchange_eq hold]
  rw [settled] at ended
  generalize ((s.chip.exchangeCounted b true).superviseResult x.element true (some level.toNat)).settlePoll x.element
    (some [level, flags, count]) = d at behind ended
  have answered : PollAnswered x.element level flags count (s.chip.exchangeCounted b true) t.chip := by
    rw [ended]
    refine ⟨behind.then (by rfl) (d.ended_reaches b), fun p => ?_⟩
    have port := Chip.port_eq_of_reaches behind (by decide) p
    obtain same | ⟨-, taken⟩ := (d.ended_selects b).ports p
    · exact .inl (same.trans port)
    · exact .inr (taken.trans (congrArg Port.loaded port))
  exact ⟨congrArg Meters.exchanges meters, congrArg Meters.unanswered meters, congrArg Meters.rejected meters, answered,
    sameTime_of_reaches reach chip (by decide), sameLineUp_of_reaches reach chip (by decide), outside⟩

/-- Settles O36: the record of the element by what its kind and state make of an answered poll, the ports of a tap by
what supervision and the unit-report check make of them, each behind the selections. -/
theorem statusReplyAnswersThePoll : Obligations.StatusReplyAnswersThePoll := by
  intro b x level flags count s listening hold keeps poll short he el r history
  obtain ⟨t, run, exchanges, unanswered, rejected, answered, time, lineUp, outside⟩ :=
    exec_statusReply level flags count listening hold keeps poll short
  have sup : (t.chip.element x.element).sup = el.decidedSup level.toNat s.chip.clock.minute := answered.sup he
  refine ⟨t, run, exchanges, unanswered, rejected, ?_, fun suppressed => ?_, fun kind answering => ?_,
    fun node => ⟨fun answering => ?_, fun unverified => ?_, fun failing => ?_⟩, fun amplifier heard => ?_,
    fun tap used => answered.tapClauses tap used, time, lineUp, outside⟩
  · rw [sup]; exact el.decidedSup_history _ _
  · rw [sup]; exact Element.decidedSup_suppressed _ _ suppressed
  · have plain : el.record.kind ≠ .amplifier := by
      obtain node | tap := kind
      · rw [node]; exact ElementKind.noConfusion
      · rw [tap]; exact ElementKind.noConfusion
    obtain ⟨others, journal, outages⟩ := answered.stays he plain answering
    exact ⟨sup.trans (Element.decidedSup_answering_plain _ _ plain answering), others, journal, outages⟩
  · exact (answered.node he node).1 answering
  · have plain : el.record.kind ≠ .amplifier := by rw [node]; exact ElementKind.noConfusion
    have rejoins : el.rejoins = true := by
      have state : el.sup.state = .unverified := unverified
      rw [Element.rejoins, state]; rfl
    obtain ⟨state, failure⟩ := Element.decidedSup_rejoins level.toNat s.chip.clock.minute plain rejoins
    rw [sup]
    exact ⟨state, failure, (answered.node he node).2 unverified⟩
  · have plain : el.record.kind ≠ .amplifier := by rw [node]; exact ElementKind.noConfusion
    rw [sup, Element.decidedSup_failing _ _ failing, (Element.plain_not_low plain _ _).1]
    exact and_iff_left rfl
  · rw [sup]
    exact Element.decidedSup_amplifier level.toNat s.chip.clock.minute amplifier heard

end Sys2Proof.Machine

namespace Sys2Proof.Machine

/-! ### A loop whose step at an index reaches that index alone -/

/-- A loop whose step at k touches what π shows at k alone leaves there what its own step made of what stood there
before: nothing earlier changed it, and nothing later does. -/
theorem forIndices_each {α β : Type} {f : α → Nat → α} {π : α → Nat → β}
    (other : ∀ y k j, j ≠ k → π (f y k) j = π y j) (x : α) (n j : Nat) :
    π (forIndices n f x) j = if j < n then π (f (forIndices j f x) j) j else π x j := by
  induction n with
  | zero => rfl
  | succ n ih =>
    rw [forIndices_succ]
    by_cases here : j = n
    · subst here
      rw [if_pos (Nat.lt_succ_self j)]
    · rw [other _ _ _ here, ih]
      by_cases before : j < n
      · rw [if_pos before, if_pos (by omega)]
      · rw [if_neg before, if_neg (by omega)]

/-- Before its own step an index shows what it showed at first. -/
theorem forIndices_before {α β : Type} {f : α → Nat → α} {π : α → Nat → β}
    (other : ∀ y k j, j ≠ k → π (f y k) j = π y j) (x : α) (j : Nat) : π (forIndices j f x) j = π x j := by
  rw [forIndices_each other, if_neg (Nat.lt_irrefl j)]

/-- What holds at first and goes on from each index to the next holds behind the loop. -/
theorem forIndices_upTo {α : Type} {P : Nat → α → Prop} {f : α → Nat → α} {x : α} {n : Nat} (first : P 0 x)
    (step : ∀ k, k < n → ∀ y, P k y → P (k + 1) (f y k)) : P n (forIndices n f x) := by
  induction n with
  | zero => exact first
  | succ n ih =>
    rw [forIndices_succ]
    exact step n (Nat.lt_succ_self n) _ (ih fun k hk => step k (by omega))

/-! ### The ancestors in a table whose parents lie before their children (R67, R69) -/

/-- In-use units have in-use parents of lower index (check 3 of R69). -/
def Rooted (es : Vector Element 640) : Prop :=
  ∀ e, 4 ≤ e → (vget es e).record.inUse = true →
    (vget es e).record.parent < e ∧ (vget es (vget es e).record.parent).record.inUse = true

section
variable {es : Vector Element 640} {e a x : Nat}

/-- The ancestors of an in-use element are in use and of lower index. -/
theorem Rooted.ancestor (h : Rooted es) (fuel : Nat) (used : (vget es e).record.inUse = true)
    (above : a ∈ ancestorsFrom es fuel e) : a < e ∧ (vget es a).record.inUse = true := by
  induction fuel generalizing e with
  | zero => exact absurd above List.not_mem_nil
  | succ fuel ih =>
    by_cases root : e < 4
    · rw [ancestorsFrom, if_pos root] at above
      exact absurd above List.not_mem_nil
    · obtain ⟨lower, parentUsed⟩ := h e (by omega) used
      rw [ancestorsFrom, if_neg root, List.mem_cons] at above
      obtain rfl | above := above
      · exact ⟨lower, parentUsed⟩
      · obtain ⟨below, aUsed⟩ := ih parentUsed above
        exact ⟨by omega, aUsed⟩

/-- As many steps as the index has are enough to reach the root. -/
theorem Rooted.fuel (h : Rooted es) {n k : Nat} (used : (vget es e).record.inUse = true) (hn : e ≤ n) (hk : e ≤ k) :
    ancestorsFrom es n e = ancestorsFrom es k e := by
  induction e using Nat.strong_induction_on generalizing n k with
  | _ e ih =>
    by_cases root : e < 4
    · cases n <;> cases k <;> simp [ancestorsFrom, root]
    · obtain ⟨lower, parentUsed⟩ := h e (by omega) used
      obtain ⟨n', rfl⟩ : ∃ i, n = i + 1 := ⟨n - 1, by omega⟩
      obtain ⟨k', rfl⟩ : ∃ i, k = i + 1 := ⟨k - 1, by omega⟩
      rw [ancestorsFrom, ancestorsFrom, if_neg root, if_neg root, ih _ lower (n := n') (k := k') parentUsed (by omega)
        (by omega)]

/-- An ancestor's ancestors are the element's. -/
theorem Rooted.trans (h : Rooted es) (he : e < 640) (used : (vget es e).record.inUse = true)
    (above : a ∈ ancestorsFrom es 640 e) (further : x ∈ ancestorsFrom es 640 a) : x ∈ ancestorsFrom es 640 e := by
  induction e using Nat.strong_induction_on with
  | _ e ih =>
    by_cases root : e < 4
    · rw [ancestorsFrom, if_pos root] at above
      exact absurd above List.not_mem_nil
    · obtain ⟨lower, parentUsed⟩ := h e (by omega) used
      have chain : ancestorsFrom es 640 e =
          (vget es e).record.parent :: ancestorsFrom es 640 (vget es e).record.parent := by
        rw [ancestorsFrom, if_neg root, h.fuel parentUsed (n := 639) (k := 640) (by omega) (by omega)]
      rw [chain, List.mem_cons] at above ⊢
      obtain rfl | above := above
      · exact .inr further
      · exact .inr (ih _ lower (by omega) parentUsed above)

/-- Of the ancestors with a property the one of lowest index has none above it. -/
theorem Rooted.topmost (h : Rooted es) {p : Nat → Bool} (he : e < 640) (used : (vget es e).record.inUse = true)
    (some : (ancestorsFrom es 640 e).any p = true) :
    ∃ a ∈ ancestorsFrom es 640 e, p a = true ∧ (ancestorsFrom es 640 a).any p = false := by
  obtain ⟨a, above, holds⟩ := List.any_eq_true.mp some
  induction a using Nat.strong_induction_on with
  | _ a ih =>
    cases higher : (ancestorsFrom es 640 a).any p with
    | false => exact ⟨a, above, holds, higher⟩
    | true =>
      obtain ⟨x, further, holds'⟩ := List.any_eq_true.mp higher
      have aUsed := (h.ancestor 640 used above).2
      exact ih x (h.ancestor 640 aUsed further).1 (h.trans he used above further) holds'

end

/-! ### The table of a mirror that passes the checks (R69) -/

theorem Chip.checkPlant_passes {c : Chip} (passes : c.checkPlant = none) :
    (List.range 4).all (rootOk c.plant.mirror) = true ∧ units.all (parentOk c.plant.mirror) = true := by
  unfold Chip.checkPlant at passes
  dsimp only at passes
  split at passes
  · exact absurd passes (Option.some_ne_none _)
  next roots =>
  split at passes
  · exact absurd passes (Option.some_ne_none _)
  split at passes
  · exact absurd passes (Option.some_ne_none _)
  next parents => exact ⟨by simpa using roots, by simpa using parents⟩

theorem mem_units {e : Nat} : e ∈ units ↔ 4 ≤ e ∧ e < 640 := by
  simp [units, and_comm]

/-- An element in use in the mirror's table is one of the table's. -/
theorem Chip.mirrorElements_inUse_lt {c : Chip} {e : Nat} (used : (vget c.mirrorElements e).record.inUse = true) :
    e < 640 := by
  by_contra outside
  rw [vget_outside _ (Nat.le_of_not_lt outside)] at used
  exact absurd used Bool.false_ne_true

theorem Chip.mirrorElements_rooted {c : Chip} (passes : c.checkPlant = none) : Rooted c.mirrorElements := by
  intro e unit used
  have he := Chip.mirrorElements_inUse_lt used
  have ok := List.all_eq_true.mp (Chip.checkPlant_passes passes).2 e (mem_units.mpr ⟨unit, he⟩)
  rw [c.mirrorElements_record he] at used ⊢
  simp only [parentOk, used, Bool.not_true, Bool.false_or, Bool.and_eq_true, decide_eq_true_eq] at ok
  obtain ⟨⟨lower, parentUsed⟩, -⟩ := ok
  refine ⟨lower, ?_⟩
  rw [c.mirrorElements_record (by omega)]
  exact parentUsed

/-! ### What step 5 decides by (R71) -/

/-- An element in use in the new table is not absent from it nor removed. -/
theorem Chip.classAt_used {c : Chip} {e : Nat} (he : e < 640) (used : (mirrorElement c.plant.mirror e).inUse = true) :
    c.classAt e ≠ .absent ∧ c.classAt e ≠ .removed := by
  rw [Chip.classAt, classOf, c.mirrorElements_record he, used]
  cases (vget c.elements e).record.inUse
  · exact ⟨nofun, nofun⟩
  · dsimp only
    split <;> exact ⟨nofun, nofun⟩

/-- An unchanged element is in use in the new table. -/
theorem Chip.classAt_unchanged {c : Chip} {e : Nat} (he : e < 640) (same : c.classAt e = .unchanged) :
    (mirrorElement c.plant.mirror e).inUse = true := by
  rw [Chip.classAt, classOf, c.mirrorElements_record he] at same
  cases used : (mirrorElement c.plant.mirror e).inUse with
  | true => rfl
  | false =>
    rw [used] at same
    cases was : (vget c.elements e).record.inUse <;> rw [was] at same <;> cases same

/-- An element outside the table is in use in neither. -/
theorem Chip.classAt_outside {c : Chip} {e : Nat} (outside : 640 ≤ e) : c.classAt e = .absent := by
  rw [Chip.classAt, classOf, vget_outside _ outside, vget_outside _ outside]
  rfl

/-- Step 4 keeps the state of an unchanged element. -/
theorem Chip.supAfterReset_unchanged {c : Chip} {e : Nat} (same : c.classAt e = .unchanged) :
    (c.supAfterReset e).state = (c.element e).sup.state := by
  unfold Chip.supAfterReset
  rw [same]
  dsimp only
  split <;> rfl

/-- Behind step 4 an element in use is FAILING where it is unchanged and was. -/
theorem Chip.supAfterReset_failing {c : Chip} {e : Nat} (he : e < 640)
    (used : (mirrorElement c.plant.mirror e).inUse = true) :
    ((c.supAfterReset e).state == .failing) = (c.classAt e == .unchanged && (c.element e).sup.state == .failing) := by
  obtain ⟨notAbsent, notRemoved⟩ := Chip.classAt_used he used
  cases k : c.classAt e with
  | absent => exact absurd k notAbsent
  | removed => exact absurd k notRemoved
  | unchanged => rw [Chip.supAfterReset_unchanged k]; rfl
  | changed => rw [Chip.supAfterReset, k]; rfl
  | added => rw [Chip.supAfterReset, k]; rfl

/-- Behind step 5 an element in use is FAILING where it was and none above it is. -/
theorem Chip.supAfterTake_failing {c : Chip} {e : Nat} (he : e < 640)
    (used : (mirrorElement c.plant.mirror e).inUse = true) :
    ((c.supAfterTake e).state == .failing) =
      (c.classAt e == .unchanged && (c.element e).sup.state == .failing && !c.failedAbove e) := by
  rw [← Chip.supAfterReset_failing he used]
  unfold Chip.supAfterTake Chip.nowSuppressed
  rw [used]
  cases c.failedAbove e <;> cases state : (c.supAfterReset e).state <;> simp [he, state, SupRecord.fresh]

/-- A FAILING ancestor of the new table, and one that stays FAILING behind step 5, are the same thing: the topmost of
them has none above it. -/
theorem Chip.failedAbove_eq {c : Chip} (rooted : Rooted c.mirrorElements) {e : Nat} (he : e < 640)
    (used : (mirrorElement c.plant.mirror e).inUse = true) :
    ((ancestorsFrom c.mirrorElements 640 e).any fun a => (c.supAfterTake a).state == .failing) = c.failedAbove e := by
  have used' : (vget c.mirrorElements e).record.inUse = true := by rw [c.mirrorElements_record he]; exact used
  have stays : ∀ a ∈ ancestorsFrom c.mirrorElements 640 e, ((c.supAfterTake a).state == .failing) =
      (c.classAt a == .unchanged && (c.element a).sup.state == .failing && !c.failedAbove a) := fun a above => by
    obtain ⟨lower, aUsed⟩ := rooted.ancestor 640 used' above
    rw [c.mirrorElements_record (by omega)] at aUsed
    exact Chip.supAfterTake_failing (by omega) aUsed
  rw [Bool.eq_iff_iff]
  constructor
  · intro some
    obtain ⟨a, above, failing⟩ := List.any_eq_true.mp some
    rw [stays a above, Bool.and_eq_true] at failing
    exact List.any_eq_true.mpr ⟨a, above, failing.1⟩
  · intro some
    obtain ⟨a, above, failing, top⟩ := rooted.topmost he used' some
    have clear : c.failedAbove a = false := top
    refine List.any_eq_true.mpr ⟨a, above, ?_⟩
    rw [stays a above, failing, clear]
    rfl

end Sys2Proof.Machine

namespace Sys2Proof.Machine

/-! ### Elements that keep all but their unrecorded mark (R88) -/

/-- An element but for its unrecorded mark. -/
def Element.bare (el : Element) : Element := { el with mark := none }

/-- Every element is the same in two parts but for its unrecorded mark. -/
def SameBare (c d : Chip) : Prop := ∀ x, (d.element x).bare = (c.element x).bare

section
variable {c d e : Chip}

theorem SameBare.refl (c : Chip) : SameBare c c := fun _ => rfl
theorem SameBare.trans (h : SameBare c d) (h' : SameBare d e) : SameBare c e := fun x => (h' x).trans (h x)
theorem SameBare.ite {p : Prop} [Decidable p] (h : SameBare c d) (h' : SameBare c e) :
    SameBare c (if p then d else e) := by split <;> assumption
theorem SameBare.loop {f : Chip → Nat → Chip} (hf : ∀ c k, SameBare c (f c k)) (n : Nat) (c : Chip) :
    SameBare c (forIndices n f c) :=
  forIndices_keeps (P := SameBare c) n (.refl c) fun d k _ h => h.trans (hf d k)
theorem SameBare.of_elements (h : d.elements = c.elements) : SameBare c d := fun x => by
  rw [Chip.element, h, ← Chip.element]
theorem SameBare.record (h : SameBare c d) (x : Nat) : (d.element x).record = (c.element x).record :=
  (congrArg Element.record (h x) :)
theorem SameBare.sup (h : SameBare c d) (x : Nat) : (d.element x).sup = (c.element x).sup :=
  (congrArg Element.sup (h x) :)
theorem SameBare.heard (h : SameBare c d) (x : Nat) : (d.element x).heard = (c.element x).heard :=
  (congrArg Element.heard (h x) :)
theorem SameBare.doubt (h : SameBare c d) (x : Nat) : (d.element x).doubt = (c.element x).doubt :=
  (congrArg Element.doubt (h x) :)

end

/-- No element stands outside the table; none there is FAILING. -/
theorem Chip.outside_not_failing (c : Chip) : (c.element 640).sup.state ≠ .failing := by
  rw [Chip.element, vget_outside _ (Nat.le_refl 640)]
  decide

theorem Chip.setMark_bare (c : Chip) (k : OutageKind) (o : Nat) (m : Option Mark) : SameBare c (c.setMark k o m) := by
  cases k with
  | plant =>
    exact fun x => vget_vupd_kept Element.bare (f := fun el => { el with mark := m }) (fun _ => rfl) c.elements o x
  | source => exact .of_elements rfl
theorem Chip.closeOf_bare (c : Chip) (k : OutageKind) (o : Nat) (p : OutageState → Bool) (w : CloseCause) :
    SameBare c (c.closeOf k o p w) := (Chip.closeOf_marksOnly c.outside_not_failing k o p w).bare
theorem Chip.withdraw_bare (c : Chip) (e : Nat) : SameBare c (c.withdraw e) :=
  (c.setMark_bare _ _ _).trans (Chip.closeOf_bare _ _ _ _ _)

/-! ### What each step of a take makes of its own element (R71 steps 4 and 5) -/

/-- An element behind step 4. -/
def Element.reset4 (el : Element) (k : Class) (old new : ElementRecord) : Element :=
  if k.fresh || k == .removed then { el with sup := SupRecord.fresh, heard := none, doubt := false }
  else if k == .unchanged && new.kind == .amplifier && (old.arm != new.arm || old.trigger != new.trigger) then
    { el with sup := { el.sup with low := 0, high := 0 } }
  else el

/-- Step 4 keeps the table record and the mark; what was heard goes with a changed, new or removed element alone. -/
theorem Element.reset4_kept (el : Element) (k : Class) (old new : ElementRecord) :
    (el.reset4 k old new).record = el.record ∧ (el.reset4 k old new).mark = el.mark
      ∧ (el.reset4 k old new).heard = (if k.fresh || k == .removed then none else el.heard)
      ∧ (el.reset4 k old new).doubt = (if k.fresh || k == .removed then false else el.doubt) := by
  unfold Element.reset4
  split
  · exact ⟨rfl, rfl, rfl, rfl⟩
  · split <;> exact ⟨rfl, rfl, rfl, rfl⟩

/-- The supervision record of an unchanged element behind step 4. -/
theorem Element.reset4_unchanged (el : Element) (old new : ElementRecord) :
    (el.reset4 .unchanged old new).sup =
      if new.kind = .amplifier ∧ (old.arm ≠ new.arm ∨ old.trigger ≠ new.trigger) then
        { el.sup with low := 0, high := 0 }
      else el.sup := by
  unfold Element.reset4
  rw [if_neg (by decide)]
  simp only [beq_self_eq_true, Bool.true_and, Bool.and_eq_true, beq_iff_eq, Bool.or_eq_true, bne_iff_ne, ne_eq]
  split <;> rfl

theorem Chip.resetElement_other (c : Chip) (k : Class) (old new : ElementRecord) {e x : Nat} (other : x ≠ e) :
    (c.resetElement k old new e).element x = c.element x := by
  unfold Chip.resetElement
  split
  · exact vget_vupd_other c.elements e x _ other
  split
  · exact vget_vupd_other c.elements e x _ other
  · rfl
theorem Chip.resetElement_own (c : Chip) (k : Class) (old new : ElementRecord) {e : Nat} (he : e < 640) :
    (c.resetElement k old new e).element e = (c.element e).reset4 k old new := by
  unfold Chip.resetElement Element.reset4
  split
  · exact vget_vupd_same c.elements e _ he
  split
  · exact vget_vupd_same c.elements e _ he
  · rfl
theorem Chip.resetElement_records (c : Chip) (k : Class) (old new : ElementRecord) (e : Nat) :
    SameRecords c (c.resetElement k old new e) := by
  unfold Chip.resetElement
  split
  · exact fun x => vget_vupd_kept Element.record
      (f := fun el => { el with sup := SupRecord.fresh, heard := none, doubt := false }) (fun _ => rfl) c.elements e x
  split
  · exact c.updSup_records e _
  · exact fun _ => rfl

/-- A record that has become SUPPRESSED (R71 step 5, R79 step 2). -/
def SupRecord.suppressed (r : SupRecord) : SupRecord := { r with state := .suppressed, answered := 0, unanswered := 0 }

/-- Of the elements the suppression of one changes that one's supervision record alone. -/
theorem Chip.suppress_elements (c : Chip) (x : Nat) :
    (c.suppress x).elements = (c.updSup x SupRecord.suppressed).elements := by
  have parked : Reaches portBlocks (c.updSup x SupRecord.suppressed)
      (((c.updSup x SupRecord.suppressed).offRepoll x).parkElement x) :=
    (Chip.offRepoll_reaches _ x).then (by rfl) (Chip.parkElement_reaches _ x)
  rw [← parked.elements (by decide)]
  unfold Chip.suppress
  dsimp only
  split
  · exact (Chip.updRecord_reaches _ _ _).elements (by decide)
  · rfl

/-- An element behind step 5, where it stands below a FAILING element or not. -/
def Element.reset5 (el : Element) (below : Bool) : Element :=
  if el.record.inUse = false then el
  else if below then (if el.sup.state = .suppressed then el else { el with sup := el.sup.suppressed })
  else if el.sup.state = .suppressed then { el with sup := SupRecord.fresh }
  else el

theorem Chip.resuppress_other (c : Chip) {e x : Nat} (other : x ≠ e) : (c.resuppress e).element x = c.element x := by
  have updated : ∀ f, (c.updSup e f).element x = c.element x := fun f => vget_vupd_other c.elements e x _ other
  have suppressed : (c.suppress e).element x = c.element x := by
    rw [Chip.element, c.suppress_elements]; exact updated _
  unfold Chip.resuppress
  dsimp only
  split
  · rfl
  split
  · split
    · rfl
    · exact suppressed
  split
  · exact updated _
  · rfl
theorem Chip.resuppress_own (c : Chip) {e : Nat} (he : e < 640) :
    (c.resuppress e).element e = (c.element e).reset5 (c.failingAbove e) := by
  have updated : ∀ f, (c.updSup e f).element e = { c.element e with sup := f (c.element e).sup } := fun f =>
    vget_vupd_same c.elements e _ he
  have suppressed : (c.suppress e).element e = { c.element e with sup := (c.element e).sup.suppressed } := by
    rw [Chip.element, c.suppress_elements]; exact updated _
  unfold Chip.resuppress Element.reset5
  dsimp only
  split
  · rfl
  split
  · split
    · rfl
    · exact suppressed
  split
  · exact updated _
  · rfl
theorem Chip.resuppress_records (c : Chip) (e : Nat) : SameRecords c (c.resuppress e) := by
  unfold Chip.resuppress
  dsimp only
  split
  · exact fun _ => rfl
  split
  · split
    · exact fun _ => rfl
    · exact (c.suppress_suppresses e).records
  split
  · exact c.updSup_records e _
  · exact fun _ => rfl

/-! ### The elements behind steps 3 to 5 (R71) -/

theorem SameRecords.refl (c : Chip) : SameRecords c c := fun _ => rfl
theorem SameRecords.trans {c d e : Chip} (h : SameRecords c d) (h' : SameRecords d e) : SameRecords c e :=
  fun x => (h' x).trans (h x)
theorem SameRecords.loop {f : Chip → Nat → Chip} (hf : ∀ c k, SameRecords c (f c k)) (n : Nat) (c : Chip) :
    SameRecords c (forIndices n f c) :=
  forIndices_keeps (P := SameRecords c) n (.refl c) fun d k _ h => h.trans (hf d k)

/-- The part behind step 3: records and marks withdrawn. -/
def Chip.plantWithdrawn (c : Chip) : Chip :=
  forIndices 640 (fun d e => if (c.classAt e).lost then d.withdraw e else d) c.plantInForce
/-- The part behind step 4: elements reset. -/
def Chip.plantReset (c : Chip) : Chip :=
  forIndices 640 (fun d e => d.resetElement (c.classAt e) (vget c.elements e).record (vget c.mirrorElements e).record e)
    c.plantWithdrawn

theorem Chip.plantUnits_eq (c : Chip) : c.plantUnits = forIndices 640 Chip.resuppress c.plantReset := rfl

section
variable (c : Chip)

theorem Chip.plantInForce_element {e : Nat} (he : e < 640) :
    c.plantInForce.element e = { c.element e with record := mirrorElement c.plant.mirror e } := by
  simp [Chip.plantInForce, Chip.element, Chip.mirrorElements, vget, he]

theorem Chip.plantWithdrawn_bare : SameBare c.plantInForce c.plantWithdrawn :=
  .loop (fun d e => .ite (d.withdraw_bare e) (.refl d)) 640 _

theorem Chip.plantReset_records : SameRecords c.plantInForce c.plantReset :=
  SameRecords.trans (fun x => c.plantWithdrawn_bare.record x)
    (.loop (fun d e => d.resetElement_records _ _ _ e) 640 _)

/-- The records of the new table stand behind any number of steps 5. -/
theorem Chip.resuppressed_records (n : Nat) :
    SameRecords c.plantInForce (forIndices n Chip.resuppress c.plantReset) :=
  c.plantReset_records.trans (.loop Chip.resuppress_records n _)

theorem Chip.plantReset_element {e : Nat} (he : e < 640) : c.plantReset.element e =
    (c.plantWithdrawn.element e).reset4 (c.classAt e) (vget c.elements e).record (vget c.mirrorElements e).record := by
  rw [Chip.plantReset, forIndices_each (π := Chip.element) fun d k j other => d.resetElement_other _ _ _ other,
    if_pos he, Chip.resetElement_own _ _ _ _ he,
    forIndices_before (π := Chip.element) fun d k j other => d.resetElement_other _ _ _ other]

/-- Nothing is heard any more from a unit that is changed, new or removed (R71 step 4, log 48). -/
def Chip.unheardAt (e : Nat) : Bool := (c.classAt e).fresh || c.classAt e == .removed

/-- Every element behind step 4: its record the mirror's, its supervision record that of the step. -/
theorem Chip.plantReset_view {e : Nat} (he : e < 640) :
    (c.plantReset.element e).record = mirrorElement c.plant.mirror e
      ∧ (c.plantReset.element e).sup = c.supAfterReset e
      ∧ (c.plantReset.element e).heard = (if c.unheardAt e then none else (c.element e).heard)
      ∧ (c.plantReset.element e).doubt = (if c.unheardAt e then false else (c.element e).doubt)
      ∧ (c.plantReset.element e).mark = (c.plantWithdrawn.element e).mark := by
  have bare := c.plantWithdrawn_bare
  have inForce := c.plantInForce_element he
  obtain ⟨record, mark, heard, doubt⟩ := (c.plantWithdrawn.element e).reset4_kept (c.classAt e)
    (vget c.elements e).record (vget c.mirrorElements e).record
  rw [c.plantReset_element he]
  refine ⟨?_, ?_, ?_, ?_, mark⟩
  · rw [record, bare.record, inForce]
  · have sup : (c.plantWithdrawn.element e).sup = (c.element e).sup := by rw [bare.sup, inForce]
    unfold Chip.supAfterReset
    cases c.classAt e with
    | absent => exact sup
    | unchanged => rw [Element.reset4_unchanged, sup, c.mirrorElements_record he]; rfl
    | changed | added | removed => rfl
  · rw [heard, bare.heard, inForce]; rfl
  · rw [doubt, bare.doubt, inForce]; rfl

end

end Sys2Proof.Machine

namespace Sys2Proof.Machine

/-! ### Suppression by the new table (R71 step 5) -/

/-- Step 5 keeps all of an element but its supervision record. -/
theorem Element.reset5_kept (el : Element) (below : Bool) :
    { el.reset5 below with sup := SupRecord.fresh } = { el with sup := SupRecord.fresh } := by
  unfold Element.reset5
  repeat' split
  all_goals rfl

/-- The supervision record of step 5 on that of step 4. -/
theorem Element.reset5_sup {c : Chip} {e : Nat} {el : Element} (he : e < 640)
    (record : el.record = mirrorElement c.plant.mirror e) (sup : el.sup = c.supAfterReset e) :
    (el.reset5 (c.failedAbove e)).sup = c.supAfterTake e := by
  unfold Element.reset5 Chip.supAfterTake Chip.nowSuppressed
  rw [record, ← sup]
  cases (mirrorElement c.plant.mirror e).inUse <;> cases c.failedAbove e <;> cases state : el.sup.state <;>
    simp [he, state, SupRecord.suppressed]

section
variable {c : Chip} (rooted : Rooted c.mirrorElements)
include rooted

/-- Where the lower elements stand as step 5 leaves them, the FAILING ancestors it meets are those of the new table. -/
theorem Chip.failingAbove_of_lower {e : Nat} (he : e < 640) (used : (mirrorElement c.plant.mirror e).inUse = true)
    (lower : ∀ a, a < e → (c.plantUnits.element a).sup = c.supAfterTake a) :
    (forIndices e Chip.resuppress c.plantReset).failingAbove e = c.failedAbove e := by
  have records := c.resuppressed_records e
  have chain : (forIndices e Chip.resuppress c.plantReset).ancestors e = ancestorsFrom c.mirrorElements 640 e :=
    ancestorsFrom_congr records 640 e
  have used' : (vget c.mirrorElements e).record.inUse = true := by rw [c.mirrorElements_record he]; exact used
  rw [← Chip.failedAbove_eq rooted he used, Chip.failingAbove, chain]
  refine Bool.eq_iff_iff.mpr ?_
  simp only [List.any_eq_true]
  refine exists_congr fun a => and_congr_right fun above => ?_
  obtain ⟨before, aUsed⟩ := rooted.ancestor 640 used' above
  have stands : (forIndices e Chip.resuppress c.plantReset).element a = c.plantUnits.element a := by
    rw [c.plantUnits_eq, forIndices_each (π := Chip.element) (fun d k j other => d.resuppress_other other),
      forIndices_each (π := Chip.element) (fun d k j other => d.resuppress_other other), if_pos before,
      if_pos (by omega)]
  have inUse : ((forIndices e Chip.resuppress c.plantReset).element a).record.inUse = true := by
    rw [records a]; exact aUsed
  rw [inUse, stands, lower a before, Bool.true_and]

/-- Every element behind steps 3 to 5: suppression follows the FAILING ancestors of the new table. -/
theorem Chip.plantUnits_element {e : Nat} (he : e < 640) :
    c.plantUnits.element e = (c.plantReset.element e).reset5 (c.failedAbove e) := by
  induction e using Nat.strong_induction_on with
  | _ e ih =>
    obtain ⟨record, -⟩ := c.plantReset_view he
    have lower : ∀ a, a < e → (c.plantUnits.element a).sup = c.supAfterTake a := fun a before => by
      obtain ⟨record, sup, -⟩ := c.plantReset_view (e := a) (by omega)
      rw [ih a before (by omega)]
      exact Element.reset5_sup (by omega) record sup
    rw [c.plantUnits_eq, forIndices_each (π := Chip.element) (fun d k j other => d.resuppress_other other), if_pos he,
      Chip.resuppress_own _ he, forIndices_before (π := Chip.element) fun d k j other => d.resuppress_other other]
    cases used : (mirrorElement c.plant.mirror e).inUse with
    | true => rw [Chip.failingAbove_of_lower rooted he used lower]
    | false =>
      have unused : (c.plantReset.element e).record.inUse = false := by rw [record]; exact used
      rw [Element.reset5, if_pos unused, Element.reset5, if_pos unused]

/-- Every element behind steps 3 to 5 (R71, logs 48 and 51). -/
theorem Chip.plantUnits_view {e : Nat} (he : e < 640) :
    (c.plantUnits.element e).record = mirrorElement c.plant.mirror e
      ∧ (c.plantUnits.element e).sup = c.supAfterTake e
      ∧ (c.plantUnits.element e).heard = (if c.unheardAt e then none else (c.element e).heard)
      ∧ (c.plantUnits.element e).doubt = (if c.unheardAt e then false else (c.element e).doubt)
      ∧ (c.plantUnits.element e).mark = (c.plantWithdrawn.element e).mark := by
  obtain ⟨record, sup, heard, doubt, mark⟩ := c.plantReset_view he
  have kept := (c.plantReset.element e).reset5_kept (c.failedAbove e)
  rw [Chip.plantUnits_element rooted he]
  exact ⟨(congrArg Element.record kept).trans record, Element.reset5_sup he record sup,
    (congrArg Element.heard kept).trans heard, (congrArg Element.doubt kept).trans doubt,
    (congrArg Element.mark kept).trans mark⟩

/-- What step 5 does at an element, on the part that the elements before it have left: it suppresses those of the
statement, and otherwise touches no more than the element. -/
theorem Chip.resuppress_at {e : Nat} (he : e < 640) :
    let d := forIndices e Chip.resuppress c.plantReset
    (c.nowSuppressed e = true → d.resuppress e = d.suppress e)
      ∧ (c.nowSuppressed e = false → Reaches [.elements] d (d.resuppress e)) := by
  intro d
  obtain ⟨record, sup, -⟩ := c.plantReset_view he
  have element : d.element e = c.plantReset.element e :=
    forIndices_before (π := Chip.element) (fun d k j other => d.resuppress_other other) _ e
  have below : (mirrorElement c.plant.mirror e).inUse = true → d.failingAbove e = c.failedAbove e := fun used =>
    Chip.failingAbove_of_lower rooted he used fun a before => (Chip.plantUnits_view rooted (by omega)).2.1
  unfold Chip.nowSuppressed Chip.resuppress
  dsimp only
  rw [element, record, sup]
  cases used : (mirrorElement c.plant.mirror e).inUse with
  | false => exact ⟨fun on => by simp at on, fun _ => .same _ d⟩
  | true =>
    rw [below used]
    cases c.failedAbove e with
    | false =>
      rw [if_neg (by decide), if_neg (by decide)]
      exact ⟨fun on => by simp at on, fun _ => .ite (d.updSup_reaches e _) (.same _ d)⟩
    | true =>
      by_cases was : (c.supAfterReset e).state = .suppressed
      · rw [was]
        exact ⟨fun on => by simp at on, fun _ => .same _ d⟩
      · rw [if_neg (by decide), if_pos rfl, if_neg was]
        exact ⟨fun _ => rfl, fun off => by simp [he, was] at off⟩

end

end Sys2Proof.Machine

namespace Sys2Proof.Machine

/-! ### One record among records with ids of their own (R83) -/

section
variable {l : List Outage} {p q : Outage → Bool} {f g : Outage → Outage}

/-- A record found is the only one there, where no two are. -/
theorem filter_found {r : Outage} (apart : l.Nodup) (one : ∀ x ∈ l, ∀ y ∈ l, p x = true → p y = true → x = y)
    (found : l.find? p = some r) : l.filter p = [r] := by
  have mem := List.mem_of_find?_eq_some found
  have holds := List.find?_some found
  have all : ∀ x ∈ l.filter p, x = r := fun x hx => by
    obtain ⟨inside, also⟩ := List.mem_filter.mp hx
    exact one x inside r mem also holds
  have rep := List.eq_replicate_of_mem all
  have nodup := apart.filter p
  rw [rep, List.nodup_replicate] at nodup
  have some : 0 < (l.filter p).length := List.length_pos_of_mem (List.mem_filter.mpr ⟨mem, holds⟩)
  rw [rep, show (l.filter p).length = 1 by omega]
  rfl

/-- With no record of a kind the records of that kind may be changed in any way. -/
theorem map_unfound (missing : l.find? p = none) :
    l.map (fun x => if p x then f (g x) else g x) = l.map g :=
  List.map_congr_left fun x hx => if_neg (List.find?_eq_none.mp missing x hx)

/-- A change by id of the record found is the change of the records of that kind. -/
theorem map_found {r : Outage} (ids : ∀ x ∈ l, ∀ y ∈ l, x.id = y.id → x = y) (kept : ∀ x, (g x).id = x.id)
    (one : ∀ x ∈ l, ∀ y ∈ l, p x = true → p y = true → x = y) (found : l.find? p = some r) :
    l.map (fun x => if p x then f (g x) else g x) = (l.map g).map fun x => if x.id = (g r).id then f x else x := by
  have mem := List.mem_of_find?_eq_some found
  have holds := List.find?_some found
  rw [List.map_map]
  refine List.map_congr_left fun x hx => ?_
  simp only [Function.comp_apply, kept]
  by_cases here : x.id = r.id
  · rw [ids x hx r mem here, if_pos holds, if_pos rfl]
  · have other : ¬ p x = true := fun also => here (congrArg Outage.id (one x hx r mem also holds))
    rw [if_neg other, if_neg here]

end

/-- Outage records with ids of their own, of which one per object at most is not CLOSED (R83, R84). -/
abbrev RecordsApart (l : List Outage) : Prop :=
  l.Pairwise fun x y => x.id ≠ y.id ∧ (x.kind = y.kind → x.object = y.object → x.state = .closed ∨ y.state = .closed)

section
variable {l : List Outage} (apart : RecordsApart l) {x y : Outage} (hx : x ∈ l) (hy : y ∈ l)
include apart

theorem RecordsApart.nodup : l.Nodup := apart.imp fun h e => h.1 (congrArg Outage.id e)

include hx hy

theorem RecordsApart.ids (same : x.id = y.id) : x = y := by
  by_contra ne
  have sym : Std.Symm fun x y : Outage => x.id ≠ y.id := ⟨fun _ _ h => h.symm⟩
  exact (apart.imp fun h => h.1).forall hx hy ne same

theorem RecordsApart.live (kind : x.kind = y.kind) (object : x.object = y.object) (live : x.state ≠ .closed)
    (live' : y.state ≠ .closed) : x = y := by
  by_contra ne
  have sym : Std.Symm fun x y : Outage =>
      x.kind = y.kind → x.object = y.object → x.state = .closed ∨ y.state = .closed :=
    ⟨fun _ _ h k o => (h k.symm o.symm).symm⟩
  obtain closed | closed := (apart.imp fun h => h.2).forall hx hy ne kind object
  · exact live closed
  · exact live' closed

end

/-! ### The records and notices that steps 3 and 5 leave, up to an index each (R71, R86) -/

/-- A record withdrawn at a minute (R86). -/
def Outage.withdrawnAt (r : Outage) (now : Option Nat) : Outage :=
  { r with state := .closing, stop := now, cause := .withdrawn }

/-- A record where step 3 has come to element n and step 5 to element m. -/
def Chip.recordUpTo (c : Chip) (n m : Nat) (r : Outage) : Outage :=
  if r.object < n ∧ c.withdrawn r = true then r.withdrawnAt c.now
  else if r.object < m ∧ (r.kind == .plant && r.state == .opened && c.nowSuppressed r.object) = true then
    { r with state := .covered }
  else r

/-- The notices of step 3 at element e. -/
def Chip.noticesAt (c : Chip) (e : Nat) : List Queued :=
  (c.outages.records.filter fun r => r.object == e && c.withdrawn r).map fun r =>
    { entry := { index := e, minute := c.now, account := 0, amount := 0, cycle := 0
                 body := .outageClosed r.id .plant r.start c.now .withdrawn }
      ring := 0, writing := false }

/-- The notices of step 3 before element n. -/
def Chip.noticesUpTo (c : Chip) (n : Nat) : List Queued := (List.range n).flatMap c.noticesAt

theorem Chip.noticesUpTo_succ (c : Chip) (n : Nat) : c.noticesUpTo (n + 1) = c.noticesUpTo n ++ c.noticesAt n := by
  rw [Chip.noticesUpTo, List.range_succ, List.flatMap_append, List.flatMap_singleton, Chip.noticesUpTo]

theorem Chip.withdrawalNotices_eq (c : Chip) : c.withdrawalNotices = c.noticesUpTo 640 := rfl

/-- A count that is the sum of two at every record is so over a list. -/
theorem countP_eq_add {p q r : Outage → Bool} (each : ∀ x, (p x).toNat = (q x).toNat + (r x).toNat) (l : List Outage) :
    l.countP p = l.countP q + l.countP r := by
  have one : ∀ b : Bool, (if b = true then 1 else 0) = b.toNat := fun b => by cases b <;> rfl
  induction l with
  | nil => rfl
  | cons x l ih =>
    have here := each x
    simp only [List.countP_cons, one]
    omega

/-- There is a notice for each withdrawn record of an element before n. -/
theorem Chip.noticesUpTo_length (c : Chip) (n : Nat) : (c.noticesUpTo n).length =
    c.outages.records.countP fun r => decide (r.object < n) && c.withdrawn r := by
  induction n with
  | zero =>
    have none : (fun r : Outage => decide (r.object < 0) && c.withdrawn r) = fun _ => false := by
      funext r; simp
    rw [none, List.countP_false]
    rfl
  | succ n ih =>
    rw [c.noticesUpTo_succ, List.length_append, ih, Chip.noticesAt, List.length_map, ← List.countP_eq_length_filter]
    refine (countP_eq_add (fun r => ?_) _).symm
    by_cases here : r.object = n
    · simp [here]
    · have other : (r.object == n) = false := beq_eq_false_iff_ne.mpr here
      have passed : r.object < n + 1 ↔ r.object < n := by omega
      simp [other, passed]

theorem Chip.noticesUpTo_le (c : Chip) (n : Nat) :
    (c.noticesUpTo n).length ≤ (c.outages.records.filter c.withdrawn).length := by
  rw [c.noticesUpTo_length, ← List.countP_eq_length_filter]
  refine List.countP_mono_left fun r _ both => ?_
  rw [Bool.and_eq_true] at both
  exact both.2

section
variable (c : Chip) (n m : Nat) (r : Outage)

theorem Chip.recordUpTo_kept : (c.recordUpTo n m r).id = r.id ∧ (c.recordUpTo n m r).kind = r.kind
    ∧ (c.recordUpTo n m r).object = r.object := by
  unfold Chip.recordUpTo
  split
  · exact ⟨rfl, rfl, rfl⟩
  · split <;> exact ⟨rfl, rfl, rfl⟩

theorem Chip.recordUpTo_none : c.recordUpTo 0 0 r = r := by
  unfold Chip.recordUpTo
  rw [if_neg (by omega), if_neg (by omega)]

/-- A withdrawn record is a live one of an element that is lost. -/
theorem Chip.withdrawn_iff : c.withdrawn r = true ↔
    r.kind = .plant ∧ (r.state = .opened ∨ r.state = .covered) ∧ (c.classAt r.object).lost = true := by
  simp [Chip.withdrawn, and_assoc]

/-- A lost element is one of the table's. -/
theorem Chip.lost_lt {e : Nat} (lost : (c.classAt e).lost = true) : e < 640 := by
  by_contra outside
  rw [Chip.classAt_outside (Nat.le_of_not_lt outside)] at lost
  cases lost

theorem Chip.recordUpTo_all : c.recordUpTo 640 640 r = c.recordAfterTake r := by
  have withdrawn : r.object < 640 ∧ c.withdrawn r = true ↔ c.withdrawn r = true :=
    and_iff_right_of_imp fun h => c.lost_lt ((c.withdrawn_iff r).mp h).2.2
  have suppressed : r.object < 640 ∧ (r.kind == .plant && r.state == .opened && c.nowSuppressed r.object) = true
      ↔ (r.kind == .plant && r.state == .opened && c.nowSuppressed r.object) = true :=
    and_iff_right_of_imp fun h => by
      simp only [Chip.nowSuppressed, Bool.and_eq_true, decide_eq_true_eq] at h
      exact h.2.1.1.1
  unfold Chip.recordUpTo Chip.recordAfterTake
  simp only [withdrawn, suppressed]
  rfl

/-- Step 3 at an element that is not lost withdraws nothing. -/
theorem Chip.recordUpTo_keeps (kept : (c.classAt n).lost = false) : c.recordUpTo (n + 1) m r = c.recordUpTo n m r := by
  have same : r.object < n + 1 ∧ c.withdrawn r = true ↔ r.object < n ∧ c.withdrawn r = true := by
    refine and_congr_left fun withdrawn => ⟨fun h => ?_, fun h => by omega⟩
    have ne : r.object ≠ n := fun here => by
      have lost := ((c.withdrawn_iff r).mp withdrawn).2.2
      rw [here, kept] at lost
      cases lost
    omega
  unfold Chip.recordUpTo
  simp only [same]

/-- Does step 3 look at the record, where it comes to element n? -/
def isLiveOf (n : Nat) (r : Outage) : Bool :=
  r.kind == .plant && r.object == n && (r.state == .opened || r.state == .covered)
/-- Does step 5? -/
def isOpenOf (n : Nat) (r : Outage) : Bool := r.kind == .plant && r.object == n && r.state == .opened

variable {n r} in
/-- A record of the element that step 3 comes to is as it was. -/
theorem Chip.recordUpTo_here (here : r.object = n) : c.recordUpTo n 0 r = r := by
  unfold Chip.recordUpTo
  rw [if_neg (by omega), if_neg (by omega)]

/-- Step 3 at a lost element withdraws the records of that element alone. -/
theorem Chip.recordUpTo_withdraws (lost : (c.classAt n).lost = true) :
    isLiveOf n (c.recordUpTo n 0 r) = (r.object == n && c.withdrawn r)
      ∧ c.recordUpTo (n + 1) 0 r =
        if r.object == n && c.withdrawn r then (c.recordUpTo n 0 r).withdrawnAt c.now else c.recordUpTo n 0 r := by
  obtain ⟨-, kind, object⟩ := c.recordUpTo_kept n 0 r
  by_cases here : r.object = n
  · rw [c.recordUpTo_here here]
    refine ⟨?_, ?_⟩
    · rw [isLiveOf, Chip.withdrawn, here, lost, beq_self_eq_true]
      simp
    · unfold Chip.recordUpTo
      simp [here]
  · have passed : r.object < n + 1 ↔ r.object < n := by omega
    have other : (r.object == n) = false := beq_eq_false_iff_ne.mpr here
    refine ⟨?_, ?_⟩
    · rw [isLiveOf, object, other, Bool.and_false, Bool.false_and, Bool.false_and]
    · rw [other, Bool.false_and, if_neg Bool.false_ne_true]
      unfold Chip.recordUpTo
      simp only [passed, Nat.not_lt_zero, false_and, if_false]

/-- Step 5 at an element that it suppresses covers the open records of that element alone. -/
theorem Chip.recordUpTo_covers (hm : m < 640) (suppressed : c.nowSuppressed m = true) : c.recordUpTo 640 (m + 1) r =
    if isOpenOf m (c.recordUpTo 640 m r) then { c.recordUpTo 640 m r with state := .covered }
    else c.recordUpTo 640 m r := by
  obtain ⟨-, kind, object⟩ := c.recordUpTo_kept 640 m r
  by_cases here : r.object = m
  · by_cases withdrawn : c.withdrawn r = true
    · have closing : ∀ k, c.recordUpTo 640 k r = r.withdrawnAt c.now := fun k => if_pos ⟨by omega, withdrawn⟩
      have not : ¬ isOpenOf m (r.withdrawnAt c.now) = true := by simp [isOpenOf, Outage.withdrawnAt]
      rw [closing, closing, if_neg not]
    · have still : c.recordUpTo 640 m r = r := by
        unfold Chip.recordUpTo
        rw [if_neg fun h => withdrawn h.2, if_neg (by omega)]
      rw [still]
      unfold Chip.recordUpTo isOpenOf
      simp [withdrawn, here, suppressed]
  · have passed : r.object < m + 1 ↔ r.object < m := by omega
    have other : isOpenOf m (c.recordUpTo 640 m r) = false := by
      rw [isOpenOf, object, beq_eq_false_iff_ne.mpr here, Bool.and_false, Bool.false_and]
    rw [other, if_neg Bool.false_ne_true]
    unfold Chip.recordUpTo
    simp only [passed]

theorem Chip.recordUpTo_spares (still : c.nowSuppressed m = false) :
    c.recordUpTo 640 (m + 1) r = c.recordUpTo 640 m r := by
  have same : r.object < m + 1 ∧ (r.kind == .plant && r.state == .opened && c.nowSuppressed r.object) = true
      ↔ r.object < m ∧ (r.kind == .plant && r.state == .opened && c.nowSuppressed r.object) = true := by
    refine and_congr_left fun covers => ⟨fun h => ?_, fun h => by omega⟩
    have ne : r.object ≠ m := fun here => by
      rw [here, still, Bool.and_false] at covers
      cases covers
    omega
  unfold Chip.recordUpTo
  simp only [same]

/-- A CLOSED record stays so. -/
theorem Chip.recordUpTo_live (live : (c.recordUpTo n m r).state ≠ .closed) : r.state ≠ .closed := by
  intro closed
  have withdrawn : ¬ (r.object < n ∧ c.withdrawn r = true) := fun h => by
    obtain ⟨-, opened | covered, -⟩ := (c.withdrawn_iff r).mp h.2
    · rw [closed] at opened; cases opened
    · rw [closed] at covered; cases covered
  refine live ?_
  unfold Chip.recordUpTo
  rw [if_neg withdrawn, if_neg fun h => by rw [closed] at h; simp at h]
  exact closed

end

end Sys2Proof.Machine

namespace Sys2Proof.Machine

/-! ### Step 3: the records withdrawn, their notices and the marks (R71, R86, R88) -/

/-- A notice for which there is room joins the queue (R153). -/
theorem Chip.noticeOf_room {c : Chip} (room : c.noticeRoom = true) (index : Nat) (body : EntryBody) :
    c.noticeOf index body = c.setJournal { c.journal with
      queue := c.journal.queue ++ [{ entry := { index := index, minute := c.now, account := 0, amount := 0, cycle := 0
                                                body := body }
                                     ring := 0, writing := false }] } := if_pos room

/-- A record whose notice finds room becomes CLOSING (R86). -/
theorem Chip.closeOf_room {c : Chip} {k : OutageKind} {o : Nat} {p : OutageState → Bool} {r : Outage}
    (room : c.noticeRoom = true) (found : c.recordOf k o p = some r) : c.closeOf k o p .withdrawn =
      (c.updRecord r.id fun x => x.withdrawnAt c.now).noticeOf r.object
        (.outageClosed r.id r.kind r.start c.now .withdrawn) := by
  rw [Chip.closeOf, found]
  exact if_pos room

theorem Chip.closeOf_none {c : Chip} {k : OutageKind} {o : Nat} {p : OutageState → Bool} (w : CloseCause)
    (missing : c.recordOf k o p = none) : c.closeOf k o p w = c := by rw [Chip.closeOf, missing]

/-- A part where step 3 has come to element n. -/
structure WithdrawnTo (c : Chip) (n : Nat) (d : Chip) : Prop where
  outages : d.outages = { c.outages with records := c.outages.records.map (c.recordUpTo n 0) }
  journal : d.journal = { c.journal with queue := c.journal.queue ++ c.noticesUpTo n }
  marks : ∀ x, x < 640 → (d.element x).mark =
    if x < n ∧ (c.classAt x).lost = true then none else (c.element x).mark
  now : d.now = c.now

section
variable {c : Chip} {n : Nat} {d : Chip}

theorem WithdrawnTo.first (c : Chip) : WithdrawnTo c 0 c.plantInForce := by
  have reach := c.plantInForce_reaches
  refine ⟨?_, ?_, fun x hx => ?_, ?_⟩
  · have same : c.outages.records.map (c.recordUpTo 0 0) = c.outages.records :=
      (List.map_congr_left fun r _ => c.recordUpTo_none r).trans (List.map_id _)
    rw [same]
    exact reach.outages (by decide)
  · rw [reach.journal (by decide)]
    exact congrArg (fun q => { c.journal with queue := q }) (List.append_nil _).symm
  · rw [c.plantInForce_element hx, if_neg fun h => absurd h.1 (Nat.not_lt_zero x)]
  · rw [Chip.now, reach.clock (by decide), ← Chip.now]

/-- An element that is not lost is passed over. -/
theorem WithdrawnTo.passes (h : WithdrawnTo c n d) (kept : (c.classAt n).lost = false) : WithdrawnTo c (n + 1) d := by
  have unwithdrawn : ∀ r, (r.object == n && c.withdrawn r) = false := fun r => by
    by_contra both
    rw [Bool.not_eq_false, Bool.and_eq_true, beq_iff_eq] at both
    have lost := ((c.withdrawn_iff r).mp both.2).2.2
    rw [both.1, kept] at lost
    cases lost
  have silent : c.noticesAt n = [] := by
    simp only [Chip.noticesAt, unwithdrawn, List.filter_false, List.map_nil]
  refine ⟨?_, ?_, fun x hx => ?_, h.now⟩
  · rw [h.outages, List.map_congr_left fun r _ => c.recordUpTo_keeps n 0 r kept]
  · rw [h.journal, c.noticesUpTo_succ, silent, List.append_nil]
  · rw [h.marks x hx]
    by_cases here : x = n
    · subst here
      rw [kept, if_neg fun h => Bool.false_ne_true h.2, if_neg fun h => Bool.false_ne_true h.2]
    · have passed : x < n + 1 ↔ x < n := by omega
      simp only [passed]

/-- While there is room for the notices, each finds some (R153). -/
theorem WithdrawnTo.room (h : WithdrawnTo c n d)
    (fits : c.journal.queue.length + (c.outages.records.filter c.withdrawn).length ≤ 56) (more : c.noticesAt n ≠ []) :
    d.noticeRoom = true := by
  have upTo := c.noticesUpTo_le (n + 1)
  have some := List.length_pos_iff.mpr more
  rw [c.noticesUpTo_succ, List.length_append] at upTo
  rw [Chip.noticeRoom, h.journal, decide_eq_true_eq, List.length_append]
  have limit : Config.noticeLimit = 56 := rfl
  omega

/-- A lost element: its mark goes, its live record becomes CLOSING with a notice. -/
theorem WithdrawnTo.withdraws (h : WithdrawnTo c n d)
    (fits : c.journal.queue.length + (c.outages.records.filter c.withdrawn).length ≤ 56)
    (apart : RecordsApart c.outages.records) (lost : (c.classAt n).lost = true) :
    WithdrawnTo c (n + 1) (d.withdraw n) := by
  have steps := fun r => c.recordUpTo_withdraws n r lost
  let q := fun r : Outage => r.object == n && c.withdrawn r
  let d1 := d.setMark .plant n none
  have records : d1.outages.records = c.outages.records.map (c.recordUpTo n 0) := congrArg OutageTable.records h.outages
  have sought : d1.recordOf .plant n (fun s => s == .opened || s == .covered) =
      (c.outages.records.find? q).map (c.recordUpTo n 0) := by
    have live : isLiveOf n ∘ c.recordUpTo n 0 = q := funext fun r => (steps r).1
    rw [← live, ← List.find?_map, ← records]
    rfl
  have mapped : c.outages.records.map (c.recordUpTo (n + 1) 0) = c.outages.records.map fun r =>
      if q r then (c.recordUpTo n 0 r).withdrawnAt c.now else c.recordUpTo n 0 r :=
    List.map_congr_left fun r _ => (steps r).2
  have marks : ∀ y : Chip, y.elements = d1.elements → ∀ x, x < 640 → (y.element x).mark =
      if x < n + 1 ∧ (c.classAt x).lost = true then none else (c.element x).mark := fun y same x hx => by
    rw [Chip.element, same, ← Chip.element]
    by_cases here : x = n
    · subst here
      rw [if_pos ⟨Nat.lt_succ_self x, lost⟩]
      exact congrArg Element.mark (vget_vupd_same d.elements x (fun el => { el with mark := none }) hx)
    · have passed : x < n + 1 ↔ x < n := by omega
      have other : d1.element x = d.element x := vget_vupd_other d.elements n x _ here
      rw [other, h.marks x hx]
      simp only [passed]
  have now : (d.withdraw n).now = c.now := by
    rw [Chip.now, (d.withdraw_unit n).clock (by decide), ← Chip.now, h.now]
  cases found : c.outages.records.find? q with
  | none =>
    rw [found] at sought
    have same : d.withdraw n = d1 := Chip.closeOf_none _ sought
    have silent : c.noticesAt n = [] := by
      rw [Chip.noticesAt, List.filter_eq_nil_iff.mpr fun r hr => List.find?_eq_none.mp found r hr, List.map_nil]
    rw [same] at now ⊢
    refine ⟨?_, ?_, marks d1 rfl, now⟩
    · rw [mapped.trans (map_unfound (f := fun x => x.withdrawnAt c.now) found)]
      exact h.outages
    · rw [c.noticesUpTo_succ, silent, List.append_nil]
      exact h.journal
  | some r =>
    obtain ⟨here, withdrawn⟩ : r.object = n ∧ c.withdrawn r = true := by
      simpa [q] using List.find?_some found
    have one : ∀ x ∈ c.outages.records, ∀ y ∈ c.outages.records, q x = true → q y = true → x = y := by
      intro x hx y hy hqx hqy
      simp only [q, Bool.and_eq_true, beq_iff_eq] at hqx hqy
      obtain ⟨kind, live, -⟩ := (c.withdrawn_iff x).mp hqx.2
      obtain ⟨kind', live', -⟩ := (c.withdrawn_iff y).mp hqy.2
      refine apart.live hx hy (kind.trans kind'.symm) (hqx.1.trans hqy.1.symm) ?_ ?_
      · obtain e | e := live <;> rw [e] <;> exact OutageState.noConfusion
      · obtain e | e := live' <;> rw [e] <;> exact OutageState.noConfusion
    have alone := filter_found apart.nodup one found
    have notice : c.noticesAt n =
        [{ entry := { index := r.object, minute := d1.now, account := 0, amount := 0, cycle := 0
                      body := .outageClosed r.id r.kind r.start d1.now .withdrawn }
           ring := 0, writing := false }] := by
      have now1 : d1.now = c.now := h.now
      rw [now1, here, ((c.withdrawn_iff r).mp withdrawn).1]
      exact congrArg (List.map _) alone
    have room : d1.noticeRoom = true := h.room fits (by rw [notice]; exact List.cons_ne_nil _ _)
    rw [found, Option.map_some, c.recordUpTo_here here] at sought
    have closes : d.withdraw n = (d1.updRecord r.id fun x => x.withdrawnAt d1.now).noticeOf r.object
        (.outageClosed r.id r.kind r.start d1.now .withdrawn) := Chip.closeOf_room room sought
    have joined := Chip.noticeOf_room (c := d1.updRecord r.id fun x => x.withdrawnAt d1.now) room r.object
      (.outageClosed r.id r.kind r.start d1.now .withdrawn)
    rw [closes, joined] at now ⊢
    refine ⟨?_, ?_, marks _ rfl, now⟩
    · have now1 : d1.now = c.now := h.now
      rw [mapped.trans (map_found (f := fun x => x.withdrawnAt c.now) (fun x hx y hy => apart.ids hx hy)
        (fun x => (c.recordUpTo_kept n 0 x).1) one found), c.recordUpTo_here here, ← records, ← now1]
      exact congrArg (fun t : OutageTable => { t with
        records := d1.outages.records.map fun x : Outage => if x.id = r.id then x.withdrawnAt d1.now else x }) h.outages
    · have journal : d1.journal = { c.journal with queue := c.journal.queue ++ c.noticesUpTo n } := h.journal
      rw [c.noticesUpTo_succ, notice, ← List.append_assoc]
      have joins := fun l : List Queued => congrArg (fun j : Journal => { j with queue := j.queue ++ l }) journal
      exact joins [{ entry := { index := r.object, minute := d1.now, account := 0, amount := 0, cycle := 0
                                body := .outageClosed r.id r.kind r.start d1.now .withdrawn }
                     ring := 0, writing := false }]

/-- The records, the notices and the marks behind step 3. -/
theorem Chip.plantWithdrawn_to (fits : c.journal.queue.length + (c.outages.records.filter c.withdrawn).length ≤ 56)
    (apart : RecordsApart c.outages.records) : WithdrawnTo c 640 c.plantWithdrawn :=
  forIndices_upTo (P := WithdrawnTo c) (.first c) fun n _ d h => by
    by_cases lost : (c.classAt n).lost = true
    · rw [if_pos lost]
      exact h.withdraws fits apart lost
    · rw [if_neg lost]
      exact h.passes (Bool.not_eq_true _ ▸ lost)

/-! ### Step 5: the records covered (R71, R85) -/

/-- The suppression of an element covers its open record and leaves the journal. -/
theorem Chip.suppress_covers (d : Chip) (x : Nat) : (d.suppress x).journal = d.journal
    ∧ (d.suppress x).outages = match d.outages.records.find? (isOpenOf x) with
      | none => d.outages
      | some r => { d.outages with
          records := d.outages.records.map fun y => if y.id = r.id then { y with state := .covered } else y } := by
  let d1 := ((d.updSup x SupRecord.suppressed).offRepoll x).parkElement x
  have parked : Reaches [.elements, .subs, .ports, .branches] d d1 :=
    ((d.updSup_reaches x _).then (by rfl) (Chip.offRepoll_reaches _ x) (bs := [.elements, .branches])).then (by rfl)
      (Chip.parkElement_reaches _ x)
  have outages : d1.outages = d.outages := parked.outages (by decide)
  have journal : d1.journal = d.journal := parked.journal (by decide)
  have sought : d1.recordOf .plant x (· == .opened) = d.outages.records.find? (isOpenOf x) := by
    rw [← outages]; rfl
  have step : d.suppress x = match d1.recordOf .plant x (· == .opened) with
      | some r => d1.updRecord r.id fun o => { o with state := .covered }
      | none => d1 := rfl
  rw [step, sought]
  cases d.outages.records.find? (isOpenOf x) with
  | none => exact ⟨journal, outages⟩
  | some r =>
    refine ⟨journal, ?_⟩
    rw [← outages]
    rfl

/-- The records and the notices behind step 5. -/
theorem Chip.plantUnits_records (rooted : Rooted c.mirrorElements)
    (fits : c.journal.queue.length + (c.outages.records.filter c.withdrawn).length ≤ 56)
    (apart : RecordsApart c.outages.records) :
    c.plantUnits.outages = { c.outages with records := c.outages.records.map c.recordAfterTake }
      ∧ c.plantUnits.journal = { c.journal with queue := c.journal.queue ++ c.withdrawalNotices } := by
  have withdrawn := Chip.plantWithdrawn_to fits apart
  have reset : Reaches [.elements] c.plantWithdrawn c.plantReset :=
    forIndices_reaches (fun d e => d.resetElement_unit e _ _ _) 640 _
  have loop : ∀ m, m ≤ 640 →
      (forIndices m Chip.resuppress c.plantReset).outages =
          { c.outages with records := c.outages.records.map (c.recordUpTo 640 m) }
        ∧ (forIndices m Chip.resuppress c.plantReset).journal = c.plantWithdrawn.journal := by
    intro m
    induction m with
    | zero =>
      rw [forIndices_zero]
      exact fun _ => ⟨(reset.outages (by decide)).trans withdrawn.outages, reset.journal (by decide)⟩
    | succ m ih =>
      intro hm
      obtain ⟨outages, journal⟩ := ih (by omega)
      obtain ⟨suppresses, spares⟩ := Chip.resuppress_at rooted (e := m) (by omega)
      rw [forIndices_succ]
      generalize forIndices m Chip.resuppress c.plantReset = d at outages journal suppresses spares ⊢
      cases due : c.nowSuppressed m with
      | false =>
        have reach := spares due
        rw [List.map_congr_left fun r _ => c.recordUpTo_spares m r due]
        exact ⟨(reach.outages (by decide)).trans outages, (reach.journal (by decide)).trans journal⟩
      | true =>
        obtain ⟨kept, covered⟩ := d.suppress_covers m
        rw [suppresses due]
        refine ⟨?_, kept.trans journal⟩
        have records := congrArg OutageTable.records outages
        have mapped : c.outages.records.map (c.recordUpTo 640 (m + 1)) = c.outages.records.map fun r =>
            if (isOpenOf m ∘ c.recordUpTo 640 m) r then { c.recordUpTo 640 m r with state := .covered }
            else c.recordUpTo 640 m r :=
          List.map_congr_left fun r _ => c.recordUpTo_covers m r (by omega) due
        have one : ∀ x ∈ c.outages.records, ∀ y ∈ c.outages.records, (isOpenOf m ∘ c.recordUpTo 640 m) x = true →
            (isOpenOf m ∘ c.recordUpTo 640 m) y = true → x = y := by
          intro x hx y hy opened opened'
          simp only [Function.comp_apply, isOpenOf, Bool.and_eq_true, beq_iff_eq] at opened opened'
          obtain ⟨⟨kind, object⟩, state⟩ := opened
          obtain ⟨⟨kind', object'⟩, state'⟩ := opened'
          obtain ⟨-, keptKind, keptObject⟩ := c.recordUpTo_kept 640 m x
          obtain ⟨-, keptKind', keptObject'⟩ := c.recordUpTo_kept 640 m y
          refine apart.live hx hy ?_ ?_ (c.recordUpTo_live 640 m x ?_) (c.recordUpTo_live 640 m y ?_)
          · rw [← keptKind, ← keptKind', kind, kind']
          · rw [← keptObject, ← keptObject', object, object']
          · rw [state]; exact OutageState.noConfusion
          · rw [state']; exact OutageState.noConfusion
        rw [covered, records, List.find?_map, mapped]
        cases found : c.outages.records.find? (isOpenOf m ∘ c.recordUpTo 640 m) with
        | none =>
          rw [map_unfound (f := fun x => { x with state := .covered }) found]
          exact outages
        | some r =>
          rw [map_found (f := fun x => { x with state := .covered }) (fun x hx y hy => apart.ids hx hy)
            (fun x => (c.recordUpTo_kept 640 m x).1) one found, outages]
          rfl
  obtain ⟨outages, journal⟩ := loop 640 (Nat.le_refl 640)
  rw [c.plantUnits_eq, outages, journal, withdrawn.journal, c.withdrawalNotices_eq,
    List.map_congr_left fun r _ => c.recordUpTo_all r]
  exact ⟨rfl, rfl⟩

/-- The marks behind step 5 (R88). -/
theorem Chip.plantUnits_marks (rooted : Rooted c.mirrorElements)
    (fits : c.journal.queue.length + (c.outages.records.filter c.withdrawn).length ≤ 56)
    (apart : RecordsApart c.outages.records) {e : Nat} (he : e < 640) :
    (c.plantUnits.element e).mark = if (c.classAt e).lost then none else (c.element e).mark := by
  obtain ⟨-, -, -, -, mark⟩ := Chip.plantUnits_view rooted he
  rw [mark, (Chip.plantWithdrawn_to fits apart).marks e he]
  simp only [he, true_and]

end

end Sys2Proof.Machine

namespace Sys2Proof.Machine

/-! ### Holding stages and dirty lists through a take (R71 step 6) -/

/-- From c to d every holding stage is kept and nothing joins a dirty list. -/
structure KeepsWork (c d : Chip) : Prop where
  holds : ∀ b, (d.branch b).hold = (c.branch b).hold
  dirty : ∀ b, (d.branch b).dirty ⊆ (c.branch b).dirty

section
variable {c d e : Chip}

theorem KeepsWork.refl (c : Chip) : KeepsWork c c := ⟨fun _ => rfl, fun _ => List.Subset.refl _⟩
theorem KeepsWork.trans (h : KeepsWork c d) (h' : KeepsWork d e) : KeepsWork c e :=
  ⟨fun b => (h'.holds b).trans (h.holds b), fun b => List.Subset.trans (h'.dirty b) (h.dirty b)⟩
theorem KeepsWork.ite {p : Prop} [Decidable p] (h : KeepsWork c d) (h' : KeepsWork c e) :
    KeepsWork c (if p then d else e) := by split <;> assumption
theorem KeepsWork.loop {f : Chip → Nat → Chip} (hf : ∀ c k, KeepsWork c (f c k)) (n : Nat) (c : Chip) :
    KeepsWork c (forIndices n f c) :=
  forIndices_keeps (P := KeepsWork c) n (.refl c) fun d k _ h => h.trans (hf d k)
theorem KeepsWork.of_reaches {bs : List Block} (h : Reaches bs c d) (hb : Block.branches ∉ bs) : KeepsWork c d := by
  have same : ∀ b, d.branch b = c.branch b := fun b => by rw [Chip.branch, h.branches hb, ← Chip.branch]
  exact ⟨fun b => by rw [same], fun b => by rw [same]; exact List.Subset.refl _⟩

end

theorem Chip.updBranch_work (c : Chip) (b : Nat) {f : Branch → Branch} (hh : ∀ r, (f r).hold = r.hold)
    (hd : ∀ r, (f r).dirty ⊆ r.dirty) : KeepsWork c (c.updBranch b f) := by
  refine ⟨fun k => vget_vupd_kept Branch.hold hh c.branches b k, fun k => ?_⟩
  by_cases here : k = b
  · subst here
    by_cases hk : k < 4
    · rw [c.updBranch_branch f hk]; exact hd _
    · rw [Chip.updBranch, vupd_outside _ _ (Nat.le_of_not_lt hk)]; exact List.Subset.refl _
  · rw [c.updBranch_branch_other f here]; exact List.Subset.refl _
theorem Chip.offDirty_work (c : Chip) (p : Nat) : KeepsWork c (c.offDirty p) :=
  .loop (f := fun d b => d.updBranch b fun r => { r with dirty := r.dirty.filter (· != p) })
    (fun d b => d.updBranch_work b (fun _ => rfl) fun _ => List.filter_sublist.subset) 4 c
theorem Chip.offRepoll_work (c : Chip) (e : Nat) : KeepsWork c (c.offRepoll e) :=
  .loop (f := fun d b => d.updBranch b fun r => { r with repoll := r.repoll.filter (· != e) })
    (fun d b => d.updBranch_work b (fun _ => rfl) fun r => List.Subset.refl r.dirty) 4 c
theorem Chip.repollAppend_work (c : Chip) (e : Nat) : KeepsWork c (c.repollAppend e) :=
  c.updBranch_work _ (fun _ => rfl) fun r => List.Subset.refl r.dirty
theorem Chip.parkPort_work (c : Chip) (p : Nat) : KeepsWork c (c.parkPort p) := by
  have port := fun (d : Chip) k => KeepsWork.of_reaches (d.setCondition_reaches p k) (by decide)
  unfold Chip.parkPort
  split
  · exact port c _
  · exact (c.offDirty_work p).trans (port _ _)
  · exact (port c _).trans (.of_reaches (Chip.copySummary_reaches _ p) (by decide))
  · exact .refl c
  · exact .refl c
theorem Chip.parkElement_work (c : Chip) (e : Nat) : KeepsWork c (c.parkElement e) :=
  .loop (fun d k => d.parkPort_work (e * 4 + k)) 4 c
theorem Chip.suppress_work (c : Chip) (x : Nat) : KeepsWork c (c.suppress x) := by
  have parked := ((KeepsWork.of_reaches (c.updSup_reaches x SupRecord.suppressed) (by decide)).trans
    (Chip.offRepoll_work _ x)).trans (Chip.parkElement_work _ x)
  unfold Chip.suppress
  dsimp only
  split
  · exact parked.trans (.of_reaches (Chip.updRecord_reaches _ _ _) (by decide))
  · exact parked
theorem Chip.relist_work (c : Chip) (k : Class) (m : Bool) (w : Supervision) (e : Nat) :
    KeepsWork c (c.relist k m w e) := by
  have off : KeepsWork c (if k = .removed ∨ m = true then c.offRepoll e else c) := .ite (c.offRepoll_work e) (.refl c)
  unfold Chip.relist
  exact .ite (off.trans (Chip.repollAppend_work _ e)) off
theorem Chip.repark_work (c : Chip) (e : Nat) : KeepsWork c (c.repark e) := by
  unfold Chip.repark
  exact .ite (.refl c) (c.parkElement_work e)

/-! ### Parked ports (R52) -/

/-- A port parked, but for one IN FLIGHT. -/
def Port.parked (r : Port) : Port := if r.condition = .inFlight then r else { r with condition := .parked }

theorem Port.parked_parked (r : Port) : r.parked.parked = r.parked := by
  unfold Port.parked
  split
  · rfl
  · rw [if_neg (by exact PortCondition.noConfusion)]

theorem Chip.parkPort_port (c : Chip) {p : Nat} (hp : p < 2560) : (c.parkPort p).port p = (c.port p).parked := by
  have set : ∀ d : Chip, d.port p = c.port p →
      (d.setCondition p .parked).port p = { c.port p with condition := .parked } :=
    fun d same => (d.updPort_port _ hp).trans (by rw [same])
  unfold Chip.parkPort Port.parked
  cases condition : (c.port p).condition with
  | idle => exact set c rfl
  | dirty => exact set _ (Chip.port_eq_of_reaches (c.offDirty_reaches p) (by decide) p)
  | stuck =>
    rw [Chip.copySummary_port]
    exact set c rfl
  | parked =>
    have same : { c.port p with condition := .parked } = c.port p := by rw [← condition]
    exact same.symm
  | inFlight => rw [if_pos rfl]
theorem Chip.parkPort_port_other (c : Chip) {p q : Nat} (other : q ≠ p) : (c.parkPort p).port q = c.port q := by
  have set : ∀ d : Chip, (d.setCondition p .parked).port q = d.port q := fun d => d.updPort_port_other other _
  unfold Chip.parkPort
  split
  · exact set c
  · exact (set _).trans (Chip.port_eq_of_reaches (c.offDirty_reaches p) (by decide) q)
  · exact (Chip.copySummary_port _ p q).trans (set c)
  · rfl
  · rfl

/-- A unit's four ports are parked, no other port is touched. -/
theorem Chip.parkElement_port (c : Chip) (e : Nat) {p : Nat} (hp : p < 2560) :
    (c.parkElement e).port p = if p / 4 = e then (c.port p).parked else c.port p := by
  split
  · next here =>
    obtain ⟨k, hk, rfl⟩ : ∃ k, k < 4 ∧ p = e * 4 + k := ⟨p % 4, by omega, by omega⟩
    exact c.eachPort_port (f := Chip.parkPort) (g := Port.parked) (by omega) (fun d q hq => d.parkPort_port hq)
      (fun d q r ne => d.parkPort_port_other ne) hk
  · next other =>
    have each : c.parkElement e = forIndices 4 (fun d k => d.parkPort (e * 4 + k)) c := rfl
    rw [each]
    exact forIndices_keeps (P := fun d : Chip => d.port p = c.port p) 4 rfl fun d k hk same =>
      (d.parkPort_port_other (by omega)).trans same

theorem Chip.suppress_port (c : Chip) (x : Nat) {p : Nat} (hp : p < 2560) :
    (c.suppress x).port p = if p / 4 = x then (c.port p).parked else c.port p := by
  let d := (c.updSup x SupRecord.suppressed).offRepoll x
  have before : d.port p = c.port p := Chip.port_eq_of_reaches
    ((c.updSup_reaches x _).then (by rfl) (Chip.offRepoll_reaches _ x) (bs := [.elements, .branches])) (by decide) p
  have parked : (d.parkElement x).port p = if p / 4 = x then (c.port p).parked else c.port p := by
    rw [d.parkElement_port x hp, before]
  rw [← parked]
  unfold Chip.suppress
  dsimp only
  split
  · exact Chip.port_eq_of_reaches (Chip.updRecord_reaches _ _ _) (by decide) p
  · rfl

theorem Chip.repark_port (c : Chip) (e : Nat) {p : Nat} (hp : p < 2560) :
    (c.repark e).port p = if p / 4 = e ∧ c.loadable e = false then (c.port p).parked else c.port p := by
  unfold Chip.repark
  cases c.loadable e with
  | true => rw [if_pos rfl, if_neg fun h => Bool.noConfusion h.2]
  | false =>
    rw [if_neg Bool.false_ne_true, c.parkElement_port e hp]
    simp only [and_true]

/-! ### Exchanges cut short (R61, R62) -/

/-- An exchange that a take leaves: cut short and discarded unless its element is unchanged. -/
def Exchange.cut (x : Exchange) (k : Nat → Class) : Exchange :=
  if x.discard || k x.element == .unchanged then x else { x with last := true, discard := true }

/-- A port whose load has been cut short. -/
def Port.cut (r : Port) : Port := { r with condition := .parked, confirmed := false, sent := none }

/-- Is a load of port p cut short at branch b? -/
def Chip.CutsAt (c : Chip) (k : Nat → Class) (b p : Nat) : Prop :=
  ∃ x, (c.branch b).hold = some x ∧ x.discard = false ∧ k x.element ≠ .unchanged ∧ x.port = some p

theorem Chip.cutExchange_branch_other (c : Chip) (k : Nat → Class) {b j : Nat} (other : j ≠ b) :
    (c.cutExchange k b).branch j = c.branch j := by
  have cut := fun f => c.updBranch_branch_other (b := b) (k := j) f other
  have ports : ∀ d : Chip, ∀ p f, ((d.updPort p f).copySummary p).branch j = d.branch j := fun d p f => by
    rw [Chip.branch, (Chip.copySummary_reaches _ p).branches (by decide)]
    rfl
  unfold Chip.cutExchange
  split
  · rfl
  split
  · rfl
  dsimp only
  split
  · rw [ports]; exact cut _
  · exact cut _
theorem Chip.cutExchange_branch (c : Chip) (k : Nat → Class) {b : Nat} (hb : b < 4) :
    (c.cutExchange k b).branch b = { c.branch b with hold := (c.branch b).hold.map fun x => x.cut k } := by
  have ports : ∀ d : Chip, ∀ p f, ((d.updPort p f).copySummary p).branch b = d.branch b := fun d p f => by
    rw [Chip.branch, (Chip.copySummary_reaches _ p).branches (by decide)]
    rfl
  unfold Chip.cutExchange
  split
  · next none => rw [none, Option.map_none, ← none]
  · next x hold =>
    rw [hold, Option.map_some, Exchange.cut]
    split
    · rw [← hold]
    · dsimp only
      split
      · rw [ports]; exact c.updBranch_branch _ hb
      · exact c.updBranch_branch _ hb

theorem Chip.cutExchange_port {c : Chip} {k : Nat → Class} {b p : Nat} (hp : p < 2560) (cuts : c.CutsAt k b p) :
    (c.cutExchange k b).port p = (c.port p).cut := by
  obtain ⟨x, hold, keeps, other, port⟩ := cuts
  unfold Chip.cutExchange
  rw [hold]
  dsimp only
  rw [keeps, Bool.false_or, if_neg (by simpa using other), port]
  dsimp only
  rw [Chip.copySummary_port]
  exact Chip.updPort_port _ _ hp
theorem Chip.cutExchange_port_other {c : Chip} {k : Nat → Class} {b p : Nat} (spares : ¬ c.CutsAt k b p) :
    (c.cutExchange k b).port p = c.port p := by
  unfold Chip.cutExchange
  split
  · rfl
  next x hold =>
  split
  · rfl
  next cut =>
  rw [Bool.or_eq_true, not_or, Bool.not_eq_true, beq_iff_eq] at cut
  dsimp only
  split
  · next q port =>
    have other : p ≠ q := fun here => spares ⟨x, hold, cut.1, cut.2, by rw [here]; exact port⟩
    rw [Chip.copySummary_port]
    exact Chip.updPort_port_other _ other _
  · rfl

/-- The four exchanges cut short: the branch links. -/
theorem cutExchanges_branch (c : Chip) (k : Nat → Class) {b : Nat} (hb : b < 4) :
    (forIndices 4 (fun d j => d.cutExchange k j) c).branch b =
      { c.branch b with hold := (c.branch b).hold.map fun x => x.cut k } := by
  rw [forIndices_each (π := Chip.branch) fun d j i other => d.cutExchange_branch_other k other, if_pos hb,
    Chip.cutExchange_branch _ k hb,
    forIndices_before (π := Chip.branch) fun d j i other => d.cutExchange_branch_other k other]

/-- The four exchanges cut short: the ports. -/
theorem cutExchanges_port (c : Chip) (k : Nat → Class) {p : Nat} (hp : p < 2560) :
    ((∃ b, b < 4 ∧ c.CutsAt k b p) → (forIndices 4 (fun d j => d.cutExchange k j) c).port p = (c.port p).cut)
      ∧ ((∀ b, b < 4 → ¬ c.CutsAt k b p) → (forIndices 4 (fun d j => d.cutExchange k j) c).port p = c.port p) := by
  have loop := forIndices_upTo (n := 4) (f := fun d j => Chip.cutExchange d k j) (x := c) (P := fun n d =>
    (∀ b, n ≤ b → d.branch b = c.branch b)
      ∧ ((∃ b, b < n ∧ c.CutsAt k b p) → d.port p = (c.port p).cut)
      ∧ ((∀ b, b < n → ¬ c.CutsAt k b p) → d.port p = c.port p))
    ⟨fun _ _ => rfl, fun ⟨b, hb, _⟩ => absurd hb (Nat.not_lt_zero b), fun _ => rfl⟩
    (fun n _ d ⟨later, cut, kept⟩ => by
      have here : d.CutsAt k n p ↔ c.CutsAt k n p := by unfold Chip.CutsAt; rw [later n (Nat.le_refl n)]
      refine ⟨fun b hb => (d.cutExchange_branch_other k (by omega)).trans (later b (by omega)), fun ⟨b, hb, cuts⟩ => ?_,
        fun none => ?_⟩
      · by_cases now : d.CutsAt k n p
        · rw [Chip.cutExchange_port hp now]
          by_cases before : ∃ b, b < n ∧ c.CutsAt k b p
          · rw [cut before]; rfl
          · rw [kept fun b hb cuts => before ⟨b, hb, cuts⟩]
        · have earlier : b ≠ n := by rintro rfl; exact now (here.mpr cuts)
          rw [Chip.cutExchange_port_other now]
          exact cut ⟨b, by omega, cuts⟩
      · rw [Chip.cutExchange_port_other fun now => none n (Nat.lt_succ_self n) (here.mp now)]
        exact kept fun b hb => none b (by omega))
  exact loop.2

end Sys2Proof.Machine

namespace Sys2Proof.Machine

/-! ### The repoll lists through a take (R58, R71 steps 5 and 6) -/

theorem Chip.offRepoll_repoll (c : Chip) (e : Nat) {b : Nat} (hb : b < 4) :
    ((c.offRepoll e).branch b).repoll = (c.branch b).repoll.filter (· != e) := by
  let f := fun (d : Chip) k => d.updBranch k fun r => { r with repoll := r.repoll.filter (· != e) }
  have other : ∀ y k j, j ≠ k → (f y k).branch j = y.branch j := fun y k j ne => y.updBranch_branch_other _ ne
  have each : (c.offRepoll e).branch b = (forIndices 4 f c).branch b := rfl
  rw [each, forIndices_each (π := Chip.branch) other, if_pos hb]
  have own : (f (forIndices b f c) b).branch b = _ := (forIndices b f c).updBranch_branch _ hb
  rw [own, forIndices_before (π := Chip.branch) other]

theorem Chip.suppress_repoll (c : Chip) (x : Nat) {b : Nat} (hb : b < 4) :
    ((c.suppress x).branch b).repoll = (c.branch b).repoll.filter (· != x) := by
  let d := (c.updSup x SupRecord.suppressed).offRepoll x
  have off : (d.branch b).repoll = (c.branch b).repoll.filter (· != x) :=
    (c.updSup x SupRecord.suppressed).offRepoll_repoll x hb
  have parked : SameLists d (d.parkElement x) := .loop (fun y k => y.parkPort_lists (x * 4 + k)) 4 d
  rw [← off, ← parked b]
  unfold Chip.suppress
  dsimp only
  split
  · exact SameLists.of_reaches (Chip.updRecord_reaches _ _ _) (by decide) b
  · rfl

/-- A list where the relisting of step 6 has come to element n: elements that leave it are gone, those that join it and
stood not on it already follow in index order. -/
def listedUpTo (old : List Nat) (leaves joins : Nat → Bool) (n : Nat) : List Nat :=
  old.filter (fun e => !(decide (e < n) && leaves e))
    ++ (List.range n).filter fun e => joins e && !(old.contains e && !leaves e)

theorem listedUpTo_zero (old : List Nat) (leaves joins : Nat → Bool) : listedUpTo old leaves joins 0 = old := by
  have all : old.filter (fun e => !(decide (e < 0) && leaves e)) = old := List.filter_eq_self.mpr fun e _ => by simp
  rw [listedUpTo, all]
  exact List.append_nil _

/-- One element more: it leaves the list where it leaves, then joins it where it joins. -/
theorem listedUpTo_succ (old : List Nat) (leaves joins : Nat → Bool) (n : Nat) :
    let l := if leaves n then (listedUpTo old leaves joins n).filter (· != n) else listedUpTo old leaves joins n
    listedUpTo old leaves joins (n + 1) = if joins n then appendNew l n else l := by
  let later := (List.range n).filter fun e => joins e && !(old.contains e && !leaves e)
  have new : n ∉ later := fun mem => absurd (List.mem_range.mp (List.mem_filter.mp mem).1) (Nat.lt_irrefl n)
  have left : (if leaves n then (listedUpTo old leaves joins n).filter (· != n) else listedUpTo old leaves joins n) =
      old.filter (fun e => !(decide (e < n + 1) && leaves e)) ++ later := by
    cases here : leaves n with
    | true =>
      have stays : later.filter (· != n) = later := List.filter_eq_self.mpr fun e mem => by
        rw [bne_iff_ne]
        exact fun same => new (same ▸ mem)
      rw [if_pos rfl, listedUpTo, List.filter_append, stays, List.filter_filter]
      refine congrArg (· ++ later) (List.filter_congr fun e _ => ?_)
      by_cases same : e = n
      · simp [same, here]
      · have passed : e < n + 1 ↔ e < n := by omega
        simp [same, passed]
    | false =>
      rw [if_neg Bool.false_ne_true, listedUpTo]
      refine congrArg (· ++ later) (List.filter_congr fun e _ => ?_)
      by_cases same : e = n
      · simp [same, here]
      · have passed : e < n + 1 ↔ e < n := by omega
        simp [passed]
  dsimp only
  rw [left, listedUpTo, filter_range_succ, ← List.append_assoc, appendNew]
  have listed : (old.filter (fun e => !(decide (e < n + 1) && leaves e)) ++ later).contains n =
      (old.contains n && !leaves n) := by
    rw [Bool.eq_iff_iff]
    simp [new]
  rw [listed]
  cases joins n <;> cases (old.contains n && !leaves n) <;> simp [later]

/-- The relisting of one element at the list of branch b. -/
theorem Chip.relist_repoll (c : Chip) (k : Class) (m : Bool) (w : Supervision) (e : Nat) {b : Nat} (hb : b < 4) :
    let l := if (k == .removed || m) = true then (c.branch b).repoll.filter (· != e) else (c.branch b).repoll
    ((c.relist k m w e).branch b).repoll =
      if (decide (4 ≤ e) && (c.element e).record.inUse && (c.element e).sup.state == .unverified
          && (k.fresh || w == .suppressed) && c.branchOf e == b) = true then appendNew l e else l := by
  let d := if k = .removed ∨ m = true then c.offRepoll e else c
  have reach : Reaches [.branches] c d := .ite (c.offRepoll_reaches e) (.same _ c)
  have list : (d.branch b).repoll =
      if (k == .removed || m) = true then (c.branch b).repoll.filter (· != e) else (c.branch b).repoll := by
    have leaves : (k == .removed || m) = true ↔ k = .removed ∨ m = true := by simp
    simp only [d, leaves]
    split
    · exact c.offRepoll_repoll e hb
    · rfl
  have element : d.element e = c.element e := by rw [Chip.element, reach.elements (by decide), ← Chip.element]
  have branchOf : d.branchOf e = c.branchOf e := by rw [Chip.branchOf, reach.elements (by decide), ← Chip.branchOf]
  have step : c.relist k m w e = if 4 ≤ e ∧ (d.element e).record.inUse = true ∧ (d.element e).sup.state = .unverified
      ∧ (k.fresh = true ∨ w = .suppressed) then d.repollAppend e else d := rfl
  intro l
  rw [step, element]
  by_cases joins : 4 ≤ e ∧ (c.element e).record.inUse = true ∧ (c.element e).sup.state = .unverified
      ∧ (k.fresh = true ∨ w = .suppressed)
  · have joins' : (decide (4 ≤ e) && (c.element e).record.inUse && (c.element e).sup.state == .unverified
        && (k.fresh || w == .suppressed)) = true := by
      simpa [and_assoc] using joins
    rw [if_pos joins, joins', Bool.true_and, d.repollAppend_repoll e hb, list, branchOf]
  · have stays : (decide (4 ≤ e) && (c.element e).record.inUse && (c.element e).sup.state == .unverified
        && (k.fresh || w == .suppressed)) = false := by
      rw [Bool.eq_false_iff]
      simpa [and_assoc] using joins
    rw [if_neg joins, stays, Bool.false_and, if_neg Bool.false_ne_true, list]

section
variable (c : Chip)

/-- Has the element moved to another branch (R71 step 6)? -/
def Chip.movedAt (e : Nat) : Bool :=
  c.classAt e == .changed && rootFrom c.elements e != rootFrom c.mirrorElements e
/-- Does the element leave the repoll lists in step 6? -/
def Chip.leavesAt (e : Nat) : Bool := c.classAt e == .removed || c.movedAt e
/-- Does the element join the repoll list of branch b in step 6? -/
def Chip.joinsAt (b e : Nat) : Bool :=
  decide (4 ≤ e) && (mirrorElement c.plant.mirror e).inUse && (c.supAfterTake e).state == .unverified
    && ((c.classAt e).fresh || (c.element e).sup.state == .suppressed) && rootFrom c.mirrorElements e == b

/-- The list of the statement is the one that steps 5 and 6 make. -/
theorem Chip.repollAfterTake_eq (b : Nat) : c.repollAfterTake b =
    listedUpTo ((c.branch b).repoll.filter fun e => !(decide (e < 640) && c.nowSuppressed e)) c.leavesAt (c.joinsAt b)
      640 := by
  have inside : ∀ e, (decide (e < 640) && c.nowSuppressed e) = c.nowSuppressed e := fun e => by
    unfold Chip.nowSuppressed
    cases decide (e < 640) <;> rfl
  have leaves : ∀ e, (decide (e < 640) && c.leavesAt e) = c.leavesAt e := fun e => by
    by_cases he : e < 640
    · rw [decide_eq_true he, Bool.true_and]
    · rw [Chip.leavesAt, Chip.movedAt, Chip.classAt_outside (Nat.le_of_not_lt he)]
      exact Bool.and_false _
  have stays : ∀ e, (!c.nowSuppressed e && c.classAt e != .removed
      && !(c.classAt e == .changed && rootFrom c.elements e != rootFrom c.mirrorElements e)) =
        (!c.nowSuppressed e && !c.leavesAt e) := fun e => by
    rw [Chip.leavesAt, Bool.not_or, ← Bool.and_assoc]
    rfl
  simp only [listedUpTo, inside, leaves, List.filter_filter]
  unfold Chip.repollAfterTake
  simp only [stays]
  refine congrArg₂ (· ++ ·) (List.filter_congr fun e _ => Bool.and_comm _ _) (List.filter_congr fun e _ => ?_)
  have contains : ((c.branch b).repoll.filter fun e => !c.nowSuppressed e).contains e =
      ((c.branch b).repoll.contains e && !c.nowSuppressed e) := by
    rw [Bool.eq_iff_iff]
    simp
  rw [contains, Bool.and_assoc ((c.branch b).repoll.contains e)]
  rfl

end

/-! ### Ports, lists and stages behind steps 3 to 5 (R71) -/

theorem Chip.plantReset_reaches (c : Chip) : Reaches [.elements, .plant, .outages, .journal] c c.plantReset := by
  have withdrawn : Reaches [.elements, .plant, .outages, .journal] c.plantInForce c.plantWithdrawn :=
    forIndices_reaches (fun d e => .ite ((d.setMark_reaches _ _ _).then (by rfl) (Chip.closeOf_reaches _ _ _ _ _))
      (.same _ d)) 640 _
  exact (c.plantInForce_reaches.then (by rfl) withdrawn (bs := [.elements, .plant, .outages, .journal])).then (by rfl)
    (forIndices_reaches (fun d e => d.resetElement_unit e _ _ _) 640 _)

section
variable {c : Chip} (rooted : Rooted c.mirrorElements)
include rooted

/-- Step 5 parks the ports of the elements it suppresses, takes them off the lists, and keeps every exchange. -/
theorem Chip.plantUnits_links : KeepsWork c c.plantUnits
    ∧ (∀ p, p < 2560 → c.plantUnits.port p = if c.nowSuppressed (p / 4) then (c.port p).parked else c.port p)
    ∧ ∀ b, b < 4 → (c.plantUnits.branch b).repoll =
        (c.branch b).repoll.filter fun e => !(decide (e < 640) && c.nowSuppressed e) := by
  have reset := c.plantReset_reaches
  have loop : ∀ m, m ≤ 640 →
      let d := forIndices m Chip.resuppress c.plantReset
      KeepsWork c d
        ∧ (∀ p, p < 2560 → d.port p =
            if (decide (p / 4 < m) && c.nowSuppressed (p / 4)) = true then (c.port p).parked else c.port p)
        ∧ ∀ b, b < 4 → (d.branch b).repoll =
            (c.branch b).repoll.filter fun e => !(decide (e < m) && c.nowSuppressed e) := by
    intro m
    induction m with
    | zero =>
      intro _
      dsimp only
      rw [forIndices_zero]
      refine ⟨.of_reaches reset (by decide), fun p hp => Chip.port_eq_of_reaches reset (by decide) p, fun b hb => ?_⟩
      have all : (c.branch b).repoll.filter (fun e => !(decide (e < 0) && c.nowSuppressed e)) = (c.branch b).repoll :=
        List.filter_eq_self.mpr fun e _ => by simp
      rw [all]
      exact SameLists.of_reaches reset (by decide) b
    | succ m ih =>
      intro hm
      obtain ⟨work, ports, lists⟩ := ih (by omega)
      obtain ⟨suppresses, spares⟩ := Chip.resuppress_at rooted (e := m) (by omega)
      dsimp only at work ports lists ⊢
      rw [forIndices_succ]
      generalize forIndices m Chip.resuppress c.plantReset = d at work ports lists suppresses spares ⊢
      cases due : c.nowSuppressed m with
      | false =>
        have reach := spares due
        have passed : ∀ e,
            (decide (e < m + 1) && c.nowSuppressed e) = (decide (e < m) && c.nowSuppressed e) := fun e => by
          by_cases here : e = m
          · rw [here, due, Bool.and_false, Bool.and_false]
          · have same : e < m + 1 ↔ e < m := by omega
            simp only [same]
        refine ⟨work.trans (.of_reaches reach (by decide)), fun p hp => ?_, fun b hb => ?_⟩
        · rw [passed, ← ports p hp]
          exact Chip.port_eq_of_reaches reach (by decide) p
        · simp only [passed]
          rw [← lists b hb]
          exact SameLists.of_reaches reach (by decide) b
      | true =>
        rw [suppresses due]
        refine ⟨work.trans (d.suppress_work m), fun p hp => ?_, fun b hb => ?_⟩
        · rw [d.suppress_port m hp, ports p hp]
          by_cases here : p / 4 = m
          · simp [here, due]
          · have same : p / 4 < m + 1 ↔ p / 4 < m := by omega
            simp [here, same]
        · rw [d.suppress_repoll m hb, lists b hb, List.filter_filter]
          refine List.filter_congr fun e _ => ?_
          by_cases here : e = m
          · simp [here, due]
          · have same : e < m + 1 ↔ e < m := by omega
            simp [here, same]
  obtain ⟨work, ports, lists⟩ := loop 640 (Nat.le_refl 640)
  refine ⟨work, fun p hp => ?_, lists⟩
  have inside : p / 4 < 640 := by omega
  rw [c.plantUnits_eq, ports p hp, decide_eq_true inside, Bool.true_and]

/-! ### What step 6 leaves (R52, R58, R61, R71) -/

/-- The repoll lists behind step 6 are those of the statement. -/
theorem Chip.plantListed_lists : KeepsWork c c.plantListed
    ∧ ∀ b, b < 4 → (c.plantListed.branch b).repoll = c.repollAfterTake b := by
  obtain ⟨work, -, lists⟩ := Chip.plantUnits_links rooted
  have listed : KeepsWork c.plantUnits c.plantListed := .loop (fun d e => d.relist_work _ _ _ e) 640 _
  refine ⟨work.trans listed, fun b hb => ?_⟩
  have loop := forIndices_upTo (n := 640) (x := c.plantUnits)
    (f := fun d e => Chip.relist d (c.classAt e) (c.movedAt e) (c.element e).sup.state e)
    (P := fun n d => d.elements = c.plantUnits.elements
      ∧ (d.branch b).repoll = listedUpTo (c.plantUnits.branch b).repoll c.leavesAt (c.joinsAt b) n)
    ⟨rfl, (listedUpTo_zero _ _ _).symm⟩
    (fun e he d ⟨same, list⟩ => by
      obtain ⟨record, sup, -⟩ := Chip.plantUnits_view rooted he
      have element : d.element e = c.plantUnits.element e := by rw [Chip.element, same, ← Chip.element]
      have root : d.branchOf e = rootFrom c.mirrorElements e := by
        have chain : ancestorsFrom d.elements 640 e = ancestorsFrom c.mirrorElements 640 e := by
          rw [same]; exact ancestorsFrom_congr (c.resuppressed_records 640) 640 e
        rw [Chip.branchOf, rootFrom, rootFrom, chain]
      refine ⟨((d.relist_unit e _ _ _).elements (by decide)).trans same, ?_⟩
      rw [d.relist_repoll _ _ _ _ hb, listedUpTo_succ, element, record, sup, root, list]
      rfl)
  rw [c.repollAfterTake_eq, ← lists b hb]
  exact loop.2

theorem Chip.loadable_eq {d : Chip} (same : d.elements = c.plantUnits.elements) {e : Nat} (he : e < 640) :
    d.loadable e = ((mirrorElement c.plant.mirror e).inUse && (mirrorElement c.plant.mirror e).kind == .tap
      && (c.supAfterTake e).state == .answering) := by
  obtain ⟨record, sup, -⟩ := Chip.plantUnits_view rooted he
  have element : d.element e = c.plantUnits.element e := by rw [Chip.element, same, ← Chip.element]
  rw [Chip.loadable, Chip.isTap, element, record, sup]

/-- The ports behind the parking of step 6. -/
theorem Chip.reparked_port {p : Nat} (hp : p < 2560) :
    (forIndices 640 Chip.repark c.plantListed).port p = c.portAfterTake p := by
  have he : p / 4 < 640 := by omega
  have elements : c.plantListed.elements = c.plantUnits.elements := c.plantListed_unit.elements (by decide)
  have before : c.plantListed.port p = if c.nowSuppressed (p / 4) then (c.port p).parked else c.port p := by
    rw [Chip.port_eq_of_reaches c.plantListed_unit (by decide), (Chip.plantUnits_links rooted).2.1 p hp]
  let loads := (mirrorElement c.plant.mirror (p / 4)).inUse && (mirrorElement c.plant.mirror (p / 4)).kind == .tap
    && (c.supAfterTake (p / 4)).state == .answering
  have loop := forIndices_upTo (n := 640) (x := c.plantListed) (f := Chip.repark)
    (P := fun n d => d.elements = c.plantUnits.elements ∧ d.port p =
      if p / 4 < n ∧ loads = false then (c.plantListed.port p).parked else c.plantListed.port p)
    ⟨elements, by rw [if_neg fun h => Nat.not_lt_zero _ h.1]⟩
    (fun e he d ⟨same, port⟩ => by
      refine ⟨((d.repark_unit e).elements (by decide)).trans same, ?_⟩
      rw [d.repark_port e hp, port, Chip.loadable_eq rooted same he]
      by_cases here : p / 4 = e
      · subst here
        simp only [Nat.lt_irrefl, false_and, if_false, true_and, Nat.lt_succ_self]
        rfl
      · have passed : p / 4 < e + 1 ↔ p / 4 < e := by omega
        simp only [here, passed, false_and, if_false])
  have answers : loads = true → c.nowSuppressed (p / 4) = false := fun on => by
    by_contra suppressed
    rw [Bool.not_eq_false] at suppressed
    simp [loads, Chip.supAfterTake, suppressed] at on
  rw [loop.2, before]
  have view : c.portAfterTake p = if loads = true then c.port p else (c.port p).parked := by
    unfold Chip.portAfterTake Port.parked
    dsimp only
    by_cases flying : (c.port p).condition = .inFlight
    · rw [if_pos (by rw [flying]; exact Bool.or_true _), if_pos flying, ite_self]
    · have grounded : ((c.port p).condition == .inFlight) = false := beq_eq_false_iff_ne.mpr flying
      rw [grounded, Bool.or_false, if_neg flying]
  rw [view]
  cases on : loads with
  | true => rw [if_neg fun h => Bool.noConfusion h.2, answers on, if_neg Bool.false_ne_true, if_pos rfl]
  | false =>
    rw [if_pos ⟨he, rfl⟩, if_neg Bool.false_ne_true]
    split
    · exact Port.parked_parked _
    · rfl

/-- What the steps of a take leave of the elements, the ports and the branch links. -/
theorem Chip.plantCut_view : c.plantCut.elements = c.plantUnits.elements
    ∧ (∀ p, p < 2560 →
        ((∃ b, b < 4 ∧ c.CutsAt c.classAt b p) → c.plantCut.port p = (c.port p).cut)
          ∧ ((∀ b, b < 4 → ¬ c.CutsAt c.classAt b p) → c.plantCut.port p = c.portAfterTake p))
    ∧ ∀ b, b < 4 → (c.plantCut.branch b).repoll = c.repollAfterTake b
        ∧ (c.plantCut.branch b).hold = (c.branch b).hold.map (fun x => x.cut c.classAt)
        ∧ (c.plantCut.branch b).dirty ⊆ (c.branch b).dirty := by
  let d := forIndices 640 Chip.repark c.plantListed
  have reparked : KeepsWork c.plantListed d := .loop Chip.repark_work 640 _
  obtain ⟨listed, lists⟩ := Chip.plantListed_lists rooted
  have work := listed.trans reparked
  have cut : c.plantCut = forIndices 4 (fun y b => y.cutExchange c.classAt b) d := rfl
  have cuts : ∀ b p, d.CutsAt c.classAt b p ↔ c.CutsAt c.classAt b p := fun b p => by
    unfold Chip.CutsAt; rw [work.holds b]
  refine ⟨(c.plantCut_unit.elements (by decide)).trans (c.plantListed_unit.elements (by decide)), fun p hp => ?_,
    fun b hb => ?_⟩
  · obtain ⟨parked, kept⟩ := cutExchanges_port d c.classAt hp
    have port : d.port p = c.portAfterTake p := Chip.reparked_port rooted hp
    rw [cut]
    refine ⟨fun ⟨b, hb, at_b⟩ => ?_, fun none => ?_⟩
    · rw [parked ⟨b, hb, (cuts b p).mpr at_b⟩, port, Chip.portAfterTake]
      split <;> rfl
    · rw [kept fun b hb at_b => none b hb ((cuts b p).mp at_b), port]
  · have branch := cutExchanges_branch d c.classAt hb
    rw [c.plantCut_lists b, lists b hb, cut, branch, work.holds b]
    exact ⟨rfl, rfl, work.dirty b⟩

end

end Sys2Proof.Machine

namespace Sys2Proof.Machine

/-! ### What the hand-over of the carrier states leaves of units that start afresh (R60, R79) -/

/-- Nothing has been heard of a unit that is UNVERIFIED or SUPPRESSED, and its history is empty. -/
def Element.silent (el : Element) : Prop :=
  (el.sup.state = .unverified ∨ el.sup.state = .suppressed) ∧ el.sup.history = 0 ∧ el.heard = none

/-- From c to d every element keeps its record, and of the units the silent ones stay so. -/
structure StaysSilent (c d : Chip) : Prop where
  records : SameRecords c d
  silent : ∀ x, 4 ≤ x → (c.element x).silent → (d.element x).silent

section
variable {c d e : Chip}

theorem StaysSilent.refl (c : Chip) : StaysSilent c c := ⟨.refl c, fun _ _ h => h⟩
theorem StaysSilent.trans (h : StaysSilent c d) (h' : StaysSilent d e) : StaysSilent c e :=
  ⟨h.records.trans h'.records, fun x hx was => h'.silent x hx (h.silent x hx was)⟩
theorem StaysSilent.ite {p : Prop} [Decidable p] (h : StaysSilent c d) (h' : StaysSilent c e) :
    StaysSilent c (if p then d else e) := by split <;> assumption
theorem StaysSilent.loop {f : Chip → Nat → Chip} (hf : ∀ c k, StaysSilent c (f c k)) (n : Nat) (c : Chip) :
    StaysSilent c (forIndices n f c) :=
  forIndices_keeps (P := StaysSilent c) n (.refl c) fun d k _ h => h.trans (hf d k)
theorem StaysSilent.of_bare (h : SameBare c d) : StaysSilent c d := by
  refine ⟨h.record, fun x _ was => ?_⟩
  unfold Element.silent at was ⊢
  rw [h.sup, h.heard]
  exact was
theorem StaysSilent.of_elements (h : d.elements = c.elements) : StaysSilent c d := .of_bare (.of_elements h)

end

section
variable (c : Chip)

/-- A root's supervision record is no unit's. -/
theorem Chip.updSup_staysSilent {b : Nat} (root : b < 4) (f : SupRecord → SupRecord) :
    StaysSilent c (c.updSup b f) := by
  refine ⟨c.updSup_records b f, fun x unit was => ?_⟩
  have same : (c.updSup b f).element x = c.element x := vget_vupd_other c.elements b x _ (by omega)
  rw [same]
  exact was
theorem Chip.suppress_staysSilent (x : Nat) : StaysSilent c (c.suppress x) := by
  have suppressed : StaysSilent c (c.updSup x SupRecord.suppressed) := by
    refine ⟨c.updSup_records x _, fun y _ was => ?_⟩
    by_cases here : y = x ∧ y < 640
    · obtain ⟨rfl, hy⟩ := here
      have own : (c.updSup y SupRecord.suppressed).element y =
          { c.element y with sup := (c.element y).sup.suppressed } := vget_vupd_same c.elements y _ hy
      rw [own]
      exact ⟨.inr rfl, was.2⟩
    · have same : (c.updSup x SupRecord.suppressed).element y = c.element y := by
        by_cases outside : 640 ≤ x
        · have none : (c.updSup x SupRecord.suppressed).elements = c.elements :=
            vupd_outside c.elements (fun el => { el with sup := el.sup.suppressed }) outside
          rw [Chip.element, none, ← Chip.element]
        · exact vget_vupd_other c.elements x y _ (by omega)
      rw [same]
      exact was
  exact suppressed.trans (.of_elements (c.suppress_elements x))
theorem Chip.suppressBelow_staysSilent (e : Nat) : StaysSilent c (c.suppressBelow e) :=
  .loop (fun d x => .ite (d.suppress_staysSilent x) (.refl d)) 640 c
theorem Chip.openRequest_bare {o : Opening} (inside : o.object < 640) : SameBare c (c.openRequest o) := by
  have opened : MarksOnly 640 c (c.openNow o) := Chip.openNow_marksOnly fun h => by omega
  unfold Chip.openRequest
  exact .ite (.of_elements rfl) opened.bare
theorem Chip.recordFailure_bare {e : Nat} (inside : e < 640) (m : Option Nat) : SameBare c (c.recordFailure e m) := by
  unfold Chip.recordFailure
  split
  · exact .of_elements rfl
  · split <;> exact c.openRequest_bare inside
theorem Chip.failElement_staysSilent {b : Nat} (root : b < 4) (m : Option Nat) :
    StaysSilent c (c.failElement b m) := by
  have failing := c.updSup_staysSilent root fun r => { r with state := .failing, failure := m }
  have parked : StaysSilent c ((c.updSup b fun r => { r with state := .failing, failure := m }).parkElement b) :=
    failing.trans (.of_elements ((Chip.parkElement_reaches _ b).elements (by decide)))
  have recorded := (parked.trans (Chip.suppressBelow_staysSilent _ b)).trans
    (.of_bare (Chip.recordFailure_bare _ (e := b) (by omega) m))
  unfold Chip.failElement
  exact .ite (recorded.trans (.of_elements (Chip.updBranch_elements _ _ _))) recorded
theorem Chip.verifyElement_staysSilent {b : Nat} (root : b < 4) : StaysSilent c (c.verifyElement b) := by
  have answers := (c.updSup_staysSilent root fun r => { r with state := .answering, failure := none }).trans
    (.of_bare (Chip.setMark_bare _ .plant b none))
  exact (answers.trans (.of_elements (Chip.unparkElement_elements _ b))).trans (.of_bare (Chip.closeOf_bare _ _ _ _ _))

/-- The hand-over to UNVERIFIED roots verifies or fails them. -/
theorem Chip.handCarriers_staysSilent : StaysSilent c c.handCarriers := by
  refine forIndices_keeps (P := StaysSilent c) 4 (.refl c) fun d b root h => h.trans ?_
  split
  · next due =>
    rw [Bool.and_eq_true, beq_iff_eq] at due
    cases k : (d.branch b).carrier with
    | present =>
      have verified : d.handCarrier b .present = d.verifyElement b := by simp [Chip.handCarrier, due.2]
      rw [verified]
      exact d.verifyElement_staysSilent root
    | lost =>
      have failed : d.handCarrier b .lost = d.failElement b d.now := by simp [Chip.handCarrier, due.2]
      rw [failed]
      exact d.failElement_staysSilent root _
    | unsettled => exact .refl d
  · exact .refl d

/-- With no root UNVERIFIED no carrier state is handed over. -/
theorem Chip.handCarriers_none (decided : ∀ b, b < 4 → (c.element b).sup.state ≠ .unverified) : c.handCarriers = c :=
  forIndices_keeps (P := fun d => d = c) 4 rfl fun d b root same => by
    rw [same]
    refine if_neg fun due => decided b root ?_
    rw [Bool.and_eq_true, beq_iff_eq] at due
    exact due.2

end

/-! ### What the selections make of one branch link (R41, R46, R57) -/

/-- A branch link selects on its own: what the other links do before and after bears on nothing it looks at. -/
theorem Chip.settle_branch (c : Chip) {b : Nat} (hb : b < 4) : ∃ d : Chip, d.branch b = c.branch b
    ∧ d.elements = c.elements ∧ d.part = c.part ∧ c.settle.branch b = (d.armBranch b).branch b := by
  have other : ∀ (y : Chip) k j, j ≠ k → (y.armBranch k).branch j = y.branch j := fun y k j ne =>
    y.armBranch_branch_other ne
  have tail : Reaches [.rack, .orders, .engine] c.armBranches c.settle :=
    (((Chip.armRack_reaches _).then (by rfl) (Chip.armOrders_reaches _) (bs := [.rack, .orders])).then (by rfl)
      (Chip.requestBus_reaches _))
  have fixed : (forIndices b Chip.armBranch c).fixed = c.fixed :=
    forIndices_keeps (P := fun d : Chip => d.fixed = c.fixed) b rfl fun d k _ same => (d.armBranch_fixed k).trans same
  refine ⟨forIndices b Chip.armBranch c, forIndices_before (π := Chip.branch) other c b, Chip.fixed_elements fixed,
    Chip.fixed_part fixed, ?_⟩
  have links : c.armBranches.branch b = (forIndices 4 Chip.armBranch c).branch b := rfl
  rw [Chip.branch, tail.branches (by decide), ← Chip.branch, links, forIndices_each (π := Chip.branch) other, if_pos hb]

/-- An exchange under way goes on. -/
theorem Chip.settle_branch_held {c : Chip} {b : Nat} (held : (c.branch b).hold.isSome = true) :
    c.settle.branch b = c.branch b := Chip.settle_branch_quiet (Chip.quietBranch_held held)

section
variable {c : Chip} {b : Nat} (hb : b < 4)
include hb

/-- A closed link keeps its repoll list. -/
theorem Chip.settle_branch_closed (closed : c.linkOpen b = false) :
    (c.settle.branch b).repoll = (c.branch b).repoll := by
  obtain ⟨d, branch, elements, part, selected⟩ := c.settle_branch hb
  have closed' : d.linkOpen b = false :=
    ((SameUnits.of_elements elements).linkOpen (Chip.running_congr part) b).trans closed
  have kept : SameLists d (d.armBranch b) := by
    unfold Chip.armBranch
    rw [closed', if_neg Bool.false_ne_true]
    exact .ite (.refl d) (.ite (.refl d) (d.updBranch_lists b fun _ => rfl))
  rw [selected, kept b, branch]

/-- An open link with no exchange and no port to load polls the head of its repoll list (R58, R59). -/
theorem Chip.settle_branch_polls (free : (c.branch b).hold = none) (opened : c.linkOpen b = true)
    (empty : (c.branch b).dirty = []) {e : Nat} {rest : List Nat} (head : (c.branch b).repoll = e :: rest) :
    (c.settle.branch b).link = .sending ∧ (c.settle.branch b).hold.map (·.element) = some e
      ∧ (c.settle.branch b).repoll = rest := by
  obtain ⟨d, branch, elements, part, selected⟩ := c.settle_branch hb
  have opened' : d.linkOpen b = true :=
    ((SameUnits.of_elements elements).linkOpen (Chip.running_congr part) b).trans opened
  have waits : d.pollWaiting b = true := by rw [Chip.pollWaiting, branch, head]; rfl
  have select : d.select b = d.poll b := by
    unfold Chip.select
    dsimp only
    rw [branch, empty]
    dsimp only
    rw [if_pos waits, ← branch]
    rfl
  have poll : d.poll b = (((d.updBranch b fun r => { r with run := 0 }).updBranch b fun r =>
      { r with repoll := rest }).startPoll b e) := by
    unfold Chip.poll
    dsimp only
    rw [branch, head]
  have arm : d.armBranch b = d.select b := by
    rw [Chip.armBranch, branch, free, opened']
    rfl
  rw [selected, arm, select, poll, Chip.startPoll, Chip.startExchange, Chip.updBranch_branch _ _ hb,
    Chip.updBranch_branch _ _ hb]
  exact ⟨rfl, rfl, rfl⟩

end

/-- Where no open link without an exchange has a port to load, none is loaded. -/
theorem Chip.settle_loads_none {c : Chip} (idle : ∀ b, b < 4 → (c.branch b).hold = none → c.linkOpen b = true →
    (c.branch b).dirty = []) : c.settle.ports = c.ports := by
  have tail : Reaches [.rack, .orders, .engine] c.armBranches c.settle :=
    (((Chip.armRack_reaches _).then (by rfl) (Chip.armOrders_reaches _) (bs := [.rack, .orders])).then (by rfl)
      (Chip.requestBus_reaches _))
  have loop := forIndices_upTo (n := 4) (f := Chip.armBranch) (x := c) (P := fun n d =>
    d.fixed = c.fixed ∧ d.ports = c.ports ∧ ∀ b, n ≤ b → d.branch b = c.branch b)
    ⟨rfl, rfl, fun _ _ => rfl⟩
    (fun b hb d ⟨fixed, ports, later⟩ => by
      refine ⟨(d.armBranch_fixed b).trans fixed, ?_, fun k hk =>
        (d.armBranch_branch_other (by omega)).trans (later k (by omega))⟩
      have open_eq : d.linkOpen b = c.linkOpen b := (SameUnits.of_elements (Chip.fixed_elements fixed)).linkOpen
        (Chip.running_congr (Chip.fixed_part fixed)) b
      have branch := later b (Nat.le_refl b)
      rw [← ports]
      have selection := d.armBranch_selection b
      generalize d.armBranch b = y at selection ⊢
      cases selection with
      | stays quiet => rfl
      | silences none closed => rfl
      | idles none opened empty still => rfl
      | loads p rest none opened head =>
        rw [branch] at none head
        rw [idle b hb none (open_eq ▸ opened)] at head
        cases head
      | polls e repoll cursor none opened => rfl)
  exact (tail.ports (by decide)).trans loop.2.1

end Sys2Proof.Machine

namespace Sys2Proof.Machine

/-! ### A take at units that start afresh (R71 steps 4 and 5, log 51) -/

theorem Class.afresh {k : Class} (h : k.lost = true ∨ k.fresh = true) : k = .changed ∨ k = .removed ∨ k = .added := by
  cases k with
  | absent | unchanged => exact h.elim (fun lost => Bool.noConfusion lost) fun fresh => Bool.noConfusion fresh
  | changed => exact .inl rfl
  | removed => exact .inr (.inl rfl)
  | added => exact .inr (.inr rfl)

section
variable {c : Chip}

/-- A lost or new unit is UNVERIFIED or SUPPRESSED, with nothing heard of it. -/
theorem Chip.plantUnits_silent (rooted : Rooted c.mirrorElements) {e : Nat} (he : e < 640)
    (afresh : (c.classAt e).lost = true ∨ (c.classAt e).fresh = true) : (c.plantUnits.element e).silent := by
  obtain ⟨-, sup, heard, -⟩ := Chip.plantUnits_view rooted he
  have starts : c.unheardAt e = true ∧ c.supAfterReset e = SupRecord.fresh := by
    rw [Chip.unheardAt, Chip.supAfterReset]
    obtain k | k | k := Class.afresh afresh <;> rw [k] <;> exact ⟨rfl, rfl⟩
  obtain ⟨unheard, reset⟩ := starts
  unfold Element.silent
  rw [sup, heard, unheard]
  unfold Chip.supAfterTake
  dsimp only
  rw [reset]
  split
  · exact ⟨.inr rfl, rfl, rfl⟩
  · rw [ite_self]
    exact ⟨.inl rfl, rfl, rfl⟩

/-- Every element behind a take: its record the mirror's, a lost or new unit silent. -/
theorem Chip.takePlant_silent (passes : c.checkPlant = none) {e : Nat} (he : e < 640) :
    (c.takePlant.element e).record = mirrorElement c.plant.mirror e
      ∧ (4 ≤ e → (c.classAt e).lost = true ∨ (c.classAt e).fresh = true → (c.takePlant.element e).silent) := by
  have rooted := Chip.mirrorElements_rooted passes
  have cut : StaysSilent c.plantUnits c.plantCut := .of_elements (Chip.plantCut_view rooted).1
  have taken : StaysSilent c.plantUnits c.takePlant := by
    rw [Chip.takePlant_eq]
    exact .ite (cut.trans (Chip.handCarriers_staysSilent _)) cut
  refine ⟨?_, fun unit afresh => taken.silent e unit (Chip.plantUnits_silent rooted he afresh)⟩
  rw [taken.records e]
  exact (Chip.plantUnits_view rooted he).1

/-- A take leaves the taken intents. -/
theorem Chip.takePlant_records (c : Chip) : Alike Port.desired c c.takePlant := by
  have suppress : ∀ (d : Chip) e, Alike Port.desired d (d.resuppress e) := fun d e => by
    have updated := fun f => (d.updSup_handover e f).alike
    unfold Chip.resuppress
    exact .ite (.refl _ d) (.ite (.ite (.refl _ d) (d.suppress_handover e).alike) (.ite (updated _) (.refl _ d)))
  have repark : ∀ (d : Chip) e, Alike Port.desired d (d.repark e) := fun d e => by
    unfold Chip.repark
    exact .ite (.refl _ d) (d.parkElement_handover (fun _ => True) e).alike
  have cutOne : ∀ (d : Chip) b, Alike Port.desired d (d.cutExchange c.classAt b) := fun d b => by
    unfold Chip.cutExchange
    split
    · exact .refl _ d
    · next x _ =>
      have held := d.updBranch_alike Port.desired b fun r =>
        { r with hold := some { x with last := true, discard := true } }
      refine .ite (.refl _ d) ?_
      dsimp only
      split
      · next p _ =>
        have parked := held.trans (Alike.updPort _ p (f := fun r =>
          { r with condition := .parked, confirmed := false, sent := none }) (fun _ => rfl) fun _ => rfl)
        exact parked.trans (Chip.copySummary_alike _ _ p)
      · exact held
  have reset : Alike Port.desired c c.plantReset :=
    .of_reaches c.plantReset_reaches (by decide) (by decide) (by decide)
  have units : Alike Port.desired c c.plantUnits := reset.trans (.loop suppress 640 _)
  have listed : Alike Port.desired c c.plantListed :=
    units.trans (.of_reaches c.plantListed_unit (by decide) (by decide) (by decide))
  have cut : Alike Port.desired c c.plantCut := (listed.trans (.loop repark 640 _)).trans (.loop cutOne 4 _)
  rw [Chip.takePlant_eq]
  exact .ite (cut.trans (Chip.handCarriers_handover _).1.alike) cut

/-! ### A take that changes no root, and of which none is UNVERIFIED -/

/-- Every root is unchanged, and ANSWERING or FAILING. -/
abbrev RootsDecided (c : Chip) : Prop := ∀ b, b < 4 → c.classAt b = .unchanged
  ∧ ((c.element b).sup.state = .answering ∨ (c.element b).sup.state = .failing)

/-- A root has no ancestors: its state is what it was. -/
theorem Chip.supAfterTake_root {b : Nat} (hb : b < 4) (same : c.classAt b = .unchanged)
    (decided : (c.element b).sup.state = .answering ∨ (c.element b).sup.state = .failing) :
    (c.supAfterTake b).state = (c.element b).sup.state := by
  have top : c.failedAbove b = false := by
    have none : ancestorsFrom c.mirrorElements 640 b = [] := by rw [ancestorsFrom, if_pos hb]
    rw [Chip.failedAbove, none]
    rfl
  have state := Chip.supAfterReset_unchanged same
  have heard : ((c.supAfterReset b).state == .suppressed) = false := by
    rw [state]
    obtain answering | failing := decided
    · rw [answering]; rfl
    · rw [failing]; rfl
  unfold Chip.supAfterTake Chip.nowSuppressed
  dsimp only
  rw [top, heard, Bool.and_false, Bool.false_and, if_neg Bool.false_ne_true, Bool.and_false, if_neg Bool.false_ne_true]
  exact state

section
variable (passes : c.checkPlant = none) (roots : RootsDecided c)
include passes roots

/-- The root behind the take is in use and in the state it was. -/
theorem Chip.plantCut_root {b : Nat} (hb : b < 4) : (c.plantCut.element b).record.inUse = true
    ∧ (c.plantCut.element b).sup.state = (c.element b).sup.state := by
  have rooted := Chip.mirrorElements_rooted passes
  obtain ⟨same, decided⟩ := roots b hb
  have he : b < 640 := by omega
  obtain ⟨record, sup, -⟩ := Chip.plantUnits_view rooted he
  have element : c.plantCut.element b = c.plantUnits.element b := by
    rw [Chip.element, (Chip.plantCut_view rooted).1, ← Chip.element]
  rw [element, record, sup]
  exact ⟨Chip.classAt_unchanged he same, Chip.supAfterTake_root hb same decided⟩

/-- No carrier state is handed over. -/
theorem Chip.takePlant_whole : c.takePlant = c.plantCut := by
  have decided : ∀ b, b < 4 → (c.plantCut.element b).sup.state ≠ .unverified := fun b hb => by
    rw [(Chip.plantCut_root passes roots hb).2]
    obtain answering | failing := (roots b hb).2
    · rw [answering]; exact Supervision.noConfusion
    · rw [failing]; exact Supervision.noConfusion
  rw [Chip.takePlant_eq, Chip.handCarriers_none _ decided, ite_self]

/-- A branch link may make exchanges behind the take where its root answers, as before it. -/
theorem Chip.plantCut_linkOpen (running : c.running = true) {b : Nat} (hb : b < 4) :
    c.plantCut.linkOpen b = ((c.element b).sup.state == .answering) ∧ c.linkOpen b = c.plantCut.linkOpen b := by
  obtain ⟨used, state⟩ := Chip.plantCut_root passes roots hb
  have part : c.plantCut.part = c.part := by
    rw [← Chip.takePlant_whole passes roots]
    exact c.takePlant_reaches.part (by decide)
  have was : (c.element b).record.inUse = true := by
    have same := (roots b hb).1
    rw [Chip.classAt, classOf] at same
    by_contra unused
    have unused' : (vget c.elements b).record.inUse = false := Bool.not_eq_true _ ▸ unused
    rw [unused'] at same
    cases new : (vget c.mirrorElements b).record.inUse <;> rw [new] at same <;> cases same
  rw [Chip.linkOpen, Chip.linkOpen, Chip.running_congr part, running, used, state, was]
  exact ⟨rfl, rfl⟩

/-- A link that may make exchanges and has none has no port to load, behind the take as before it. -/
theorem Chip.plantCut_idle (settled : c.quiet = true) (running : c.running = true) {b : Nat} (hb : b < 4)
    (free : (c.plantCut.branch b).hold = none) (opened : c.plantCut.linkOpen b = true) :
    (c.plantCut.branch b).dirty = [] := by
  obtain ⟨-, hold, dirty⟩ := (Chip.plantCut_view (Chip.mirrorElements_rooted passes)).2.2 b hb
  have was : (c.branch b).hold = none := by
    rw [free] at hold
    exact Option.map_eq_none_iff.mp hold.symm
  have quiet := Chip.quiet_branch settled hb
  rw [Chip.quietBranch, was, (Chip.plantCut_linkOpen passes roots running hb).2, opened] at quiet
  simp only [Option.isSome_none, Bool.not_true, Bool.false_and, Bool.false_or, Bool.true_and, Bool.and_eq_true,
    List.isEmpty_iff] at quiet
  rw [quiet.1.2] at dirty
  exact List.subset_nil.mp dirty

/-- Every element behind the take and the selections (R71). -/
theorem Chip.wholeTake_element {e : Nat} (he : e < 640) :
    (c.takePlant.settle.element e).sup = c.supAfterTake e
      ∧ (c.takePlant.settle.element e).heard = (if c.unheardAt e then none else (c.element e).heard)
      ∧ (c.takePlant.settle.element e).doubt = (if c.unheardAt e then false else (c.element e).doubt) := by
  have rooted := Chip.mirrorElements_rooted passes
  have element : c.takePlant.settle.element e = c.plantUnits.element e := by
    rw [Chip.element, Chip.settle_elements, Chip.takePlant_whole passes roots, (Chip.plantCut_view rooted).1,
      ← Chip.element]
  obtain ⟨-, sup, heard, doubt, -⟩ := Chip.plantUnits_view rooted he
  rw [element]
  exact ⟨sup, heard, doubt⟩

theorem Chip.wholeTake_ports (settled : c.quiet = true) (running : c.running = true) {p : Nat} (hp : p < 2560) :
    ((∃ b, b < 4 ∧ c.CutsAt c.classAt b p) → c.takePlant.settle.port p = (c.port p).cut)
      ∧ ((∀ b, b < 4 → ¬ c.CutsAt c.classAt b p) → c.takePlant.settle.port p = c.portAfterTake p) := by
  have loads := Chip.settle_loads_none fun b hb => Chip.plantCut_idle passes roots settled running hb
  have port : c.takePlant.settle.port p = c.plantCut.port p := by
    rw [Chip.takePlant_whole passes roots, Chip.port, loads, ← Chip.port]
  rw [port]
  exact (Chip.plantCut_view (Chip.mirrorElements_rooted passes)).2.1 p hp

/-- The repoll list of a branch: of one with an exchange or a FAILING root as the take leaves it, of another behind the
poll that its link makes (R58, R59). -/
theorem Chip.wholeTake_repoll (settled : c.quiet = true) (running : c.running = true) {b : Nat} (hb : b < 4) :
    ((c.branch b).hold.isSome = true ∨ (c.element b).sup.state = .failing →
        (c.takePlant.settle.branch b).repoll = c.repollAfterTake b)
      ∧ ((c.branch b).hold = none → (c.element b).sup.state = .answering →
        ∀ e rest, c.repollAfterTake b = e :: rest → (c.takePlant.settle.branch b).link = .sending
          ∧ (c.takePlant.settle.branch b).hold.map (·.element) = some e
          ∧ (c.takePlant.settle.branch b).repoll = rest) := by
  obtain ⟨list, hold, -⟩ := (Chip.plantCut_view (Chip.mirrorElements_rooted passes)).2.2 b hb
  have opened := (Chip.plantCut_linkOpen passes roots running hb).1
  rw [Chip.takePlant_whole passes roots, ← list]
  refine ⟨fun kept => ?_, fun free answering e rest head => ?_⟩
  · obtain held | failing := kept
    · rw [Chip.settle_branch_held (by rw [hold, Option.isSome_map]; exact held)]
    · exact Chip.settle_branch_closed hb (by rw [opened, failing]; rfl)
  · have free' : (c.plantCut.branch b).hold = none := by rw [hold, free]; rfl
    have opened' : c.plantCut.linkOpen b = true := by rw [opened, answering]; rfl
    have empty := Chip.plantCut_idle passes roots settled running hb free' opened'
    exact Chip.settle_branch_polls hb free' opened' empty head

/-- The exchange under way at a branch (R61, R62). -/
theorem Chip.wholeTake_hold {b : Nat} (hb : b < 4) {x : Exchange} (hold : (c.branch b).hold = some x) :
    (c.takePlant.settle.branch b).hold = some (x.cut c.classAt) := by
  obtain ⟨-, cut, -⟩ := (Chip.plantCut_view (Chip.mirrorElements_rooted passes)).2.2 b hb
  rw [hold, Option.map_some] at cut
  rw [Chip.takePlant_whole passes roots, Chip.settle_branch_held (by rw [cut]; rfl), cut]

/-- The outage records, the notices and the marks (R71 steps 3 and 5). -/
theorem Chip.wholeTake_records
    (fits : c.journal.queue.length + (c.outages.records.filter c.withdrawn).length ≤ 56)
    (apart : RecordsApart c.outages.records) :
    c.takePlant.settle.outages = { c.outages with records := c.outages.records.map c.recordAfterTake }
      ∧ c.takePlant.settle.journal = { c.journal with queue := c.journal.queue ++ c.withdrawalNotices }
      ∧ ∀ e, e < 640 → (c.takePlant.settle.element e).mark =
          if (c.classAt e).lost then none else (c.element e).mark := by
  have rooted := Chip.mirrorElements_rooted passes
  have behind : Reaches portBlocks c.plantUnits c.plantCut := c.plantListed_unit.then (by rfl) c.plantCut_unit
  obtain ⟨outages, journal⟩ := Chip.plantUnits_records rooted fits apart
  rw [Chip.settle_outages, Chip.settle_journal, Chip.takePlant_whole passes roots, behind.outages (by decide),
    behind.journal (by decide)]
  refine ⟨outages, journal, fun e he => ?_⟩
  rw [Chip.element, Chip.settle_elements, behind.elements (by decide)]
  exact Chip.plantUnits_marks rooted fits apart he

end

end

/-! ### The capture of the plant take word (R68, R169) -/

/-- The part with a host write to the plant take word in its mirror. -/
def Chip.plantMirrored (c : Chip) (h : HalfWrite) : Chip :=
  c.setPlant { c.plant with
    mirror := Memory.writeHost c.plant.mirror c.config.plant.base (halfWord h c.config.plant.base) }

/-- The part with a host write to the plant take word captured: the mirror, and in FILL its valid marks. -/
def Chip.plantCaptured (c : Chip) (h : HalfWrite) : Chip :=
  (c.plantMirrored h).setPart
    { c.part with marks :=
        if c.part.state = .fill then markBytes c.part.marks (halfWord h c.config.plant.base) else c.part.marks }

theorem Chip.mirrorWord_plant (c : Chip) (h : HalfWrite) :
    ((c.mirrorWord (.plant 0) (halfWord h c.config.plant.base)).markWord (halfWord h c.config.plant.base)) =
      c.plantCaptured h := by
  unfold Chip.markWord Chip.plantCaptured
  by_cases fill : c.part.state = .fill
  · rw [if_pos fill]
    exact if_pos fill
  · rw [if_neg fill]
    exact if_neg fill

/-- While RUNNING no marks are kept. -/
theorem Chip.plantCaptured_running {c : Chip} (h : HalfWrite) (running : c.part.state = .running) :
    c.plantCaptured h = c.plantMirrored h := by
  rw [Chip.plantCaptured, if_neg (by rw [running]; exact PartState.noConfusion)]
  rfl

/-- PLANT_TAKE_REQUEST in a part that captures the take word: the capture, the take event, and what follows. -/
theorem exec_plantTakeRequest_eq {h : HalfWrite} {s : State} (free : BusFree s)
    (watched : s.chip.part.state = .fill ∨ s.chip.part.state = .running) (map : s.chip.part.mapInForce = true)
    (touched : touchesWord h = true) (kind : s.chip.kindOf s.chip.config.plant.base = .plant 0) :
    ∃ t, exec (.plantTakeRequest h) s = .next t ∧ t.chip = ((s.chip.plantCaptured h).plantEvent).settle
      ∧ t.array = Memory.writeHost s.array 0 (halfWord h s.chip.config.plant.base) ∧ t.pending = s.pending := by
  obtain ⟨idle, burst⟩ := free
  have host : s.hostBus = true := bne_iff_ne.mpr idle
  have run : exec (.plantTakeRequest h) s = .next (s.writeMapped s.chip.config.plant.base h) := rfl
  have rule : writeRule (.plant 0) s.chip.part.state = .capture := by obtain e | e := watched <;> rw [e] <;> rfl
  have writes : (halfWord h s.chip.config.plant.base).writes = true := (halfWord_writes _ _).trans touched
  have low : (halfWord h s.chip.config.plant.base).touchesLow = true := (halfWord_touchesLow _ _).trans touched
  have event : takeEventOf (.plant 0) (halfWord h s.chip.config.plant.base) = some .plantTake := by
    simp [takeEventOf, low]
  refine ⟨_, run, ?_⟩
  rw [State.writeMapped, host, map, Bool.and_self, if_pos rfl,
    State.writeAlone_capture burst writes (by rw [halfWord_addr, kind]; exact rule), halfWord_addr, kind, event]
  have handed : ∀ r : State, r.handEvents (some TakeEvent.plantTake).toList =
      r.onChip fun c => c.plantEvent.settle := fun r => rfl
  rw [handed]
  refine ⟨?_, ?_, ?_⟩
  · rw [State.onChip_chip, State.captureWord, State.onChip_chip, State.passWord_chip, State.quietLines_chip,
      Chip.mirrorWord_plant]
  · rw [State.onChip_array, State.captureWord_array, State.quietLines_array]
  · rw [State.onChip_pending, State.captureWord_pending, State.quietLines_pending]

/-- Whether anything is left to select does not depend on the Plant Monitor's words, nor on the valid marks. -/
theorem Chip.quiet_plantWords (c : Chip) (x : Plant) (marks : Memory) :
    ((c.setPlant x).setPart { c.part with marks := marks }).quiet = c.quiet := rfl
theorem Chip.quiet_setPlant (c : Chip) (x : Plant) : (c.setPlant x).quiet = c.quiet := rfl

/-- No event follows where the part takes no requests, or the word equals the generation in force. -/
theorem Chip.plantEvent_none {c : Chip} (h : c.takesRequests c.plant.gen = false
    ∨ c.plant.gen = some (takeWord c.plant.mirror)) : c.plantEvent = c := by
  refine if_neg ?_
  obtain h | h := h <;> simp [h, newGeneration]

/-- Otherwise the take is tried (R68). -/
theorem Chip.plantEvent_tried {c : Chip} (ht : c.takesRequests c.plant.gen = true)
    (hg : c.plant.gen ≠ some (takeWord c.plant.mirror)) : c.plantEvent = c.tryPlant :=
  if_pos (by simp [ht, newGeneration, hg])

/-- The valid marks after the capture (R183). -/
theorem marksAfter_plantCaptured {s t : State} {h : HalfWrite} (w : Memory.wf s.chip.part.marks = true)
    (ht : t.chip.part = (s.chip.plantCaptured h).part) : MarksAfter s t s.chip.config.plant.base h := by
  intro x
  have marks : t.chip.part.marks = _ := congrArg Part.marks ht
  rw [marks]
  show Memory.read (if s.chip.part.state = .fill then _ else _) x = _
  by_cases fill : s.chip.part.state = .fill
  · simp only [fill, true_and, if_true]
    exact read_markBytes_half w h _ x
  · simp only [fill, false_and, if_false]

end Sys2Proof.Machine

namespace Sys2Proof.Machine

/-! ### PLANT_TAKE_REQUEST (R68 to R71) -/

section
variable {c : Chip}

theorem Chip.unheardAt_iff {e : Nat} :
    c.unheardAt e = true ↔ (c.classAt e).fresh = true ∨ c.classAt e = .removed := by
  simp [Chip.unheardAt]

/-- An exchange on an unchanged element, or one discarded before, goes on as it was. -/
theorem Exchange.cut_keeps {x : Exchange} {k : Nat → Class} (keeps : x.discard = true ∨ k x.element = .unchanged) :
    x.cut k = x := if_pos (by simpa using keeps)
theorem Exchange.cut_cuts {x : Exchange} {k : Nat → Class} (heard : x.discard = false)
    (other : k x.element ≠ .unchanged) : x.cut k = { x with last := true, discard := true } :=
  if_neg (by simp [heard, other])

/-- The exchange of a branch behind a take of decided roots, and the port whose load it cuts short (R61, R62). -/
theorem Chip.wholeTake_exchange (passes : c.checkPlant = none) (roots : RootsDecided c) (settled : c.quiet = true)
    (running : c.running = true) {b : Nat} (hb : b < 4) {x : Exchange} (hold : (c.branch b).hold = some x) :
    (x.discard = true ∨ c.classAt x.element = .unchanged → (c.takePlant.settle.branch b).hold = some x)
      ∧ (x.discard = false → c.classAt x.element ≠ .unchanged →
        (c.takePlant.settle.branch b).hold = some { x with last := true, discard := true }
          ∧ ∀ p, x.port = some p → p < 2560 → c.takePlant.settle.port p = (c.port p).cut) := by
  have cut := Chip.wholeTake_hold passes roots hb hold
  refine ⟨fun keeps => ?_, fun heard other => ⟨?_, fun p port hp => ?_⟩⟩
  · rw [cut, Exchange.cut_keeps keeps]
  · rw [cut, Exchange.cut_cuts heard other]
  · exact (Chip.wholeTake_ports passes roots settled running hp).1 ⟨b, hb, x, hold, heard, other, port⟩

/-- A refused take shows its code and changes nothing else; nothing is left to select. -/
theorem Chip.plantOutcome_settle (settled : c.quiet = true) (o : OutcomeCode) :
    (c.plantOutcome o).settle = c.plantOutcome o := Chip.settle_quiet _ ((c.quiet_setPlant _).trans settled)

end

/-- Settles O28: the word is captured in every case; a refusal is the Plant Monitor's alone, a take is followed step by
step, each over all elements, and then what the links select. -/
theorem plantTakeChecksThenTakes : Obligations.PlantTakeChecksThenTakes := by
  constructor
  · intro h s settled canonical free running map touched kind a m d new
    have state : s.chip.part.state = .running := by simpa [Chip.running] using running
    have quiet : d.quiet = true := (s.chip.quiet_setPlant _).trans settled
    have runs : d.running = true := running
    obtain ⟨t, run, chip, array, pending⟩ := exec_plantTakeRequest_eq free (.inr state) map touched kind
    have takes : d.takesRequests d.plant.gen = true := by rw [Chip.takesRequests, runs, Bool.true_or]
    have event : t.chip = d.tryPlant.settle := by
      rw [chip, Chip.plantCaptured_running h state, ← Chip.plantEvent_tried takes new]
      rfl
    have reach : Reaches plantBlocks s.chip d.tryPlant :=
      (s.chip.setPlant_reaches _).then (by rfl) d.tryPlant_reaches
    refine ⟨t, run, array ▸ halfWritten_writeHost canonical h a, fun o refused => ?refused, fun passes => ?taken,
      sameTime_of_reaches reach event (by decide), sameLineUp_of_reaches reach event (by decide), ?sources, ?store,
      sameBus_of_settle event reach (by decide) (by decide) (by decide) (by decide), pending⟩
    case sources => rw [event, Chip.settle_sources, reach.sources (by decide)]
    case store => rw [event, Chip.settle_store, reach.store (by decide)]
    case refused =>
      rw [Chip.tryPlant_refused refused, Chip.plantOutcome_settle quiet] at event
      rw [SameLinks, SameSubscribers, SameQueues, event]
      exact ⟨rfl, rfl, rfl, ⟨rfl, rfl, rfl⟩, ⟨rfl, rfl⟩, ⟨rfl, rfl⟩⟩
    case taken =>
      rw [Chip.tryPlant_taken passes] at event
      have element : ∀ e, t.chip.element e = d.takePlant.element e := fun e => by
        rw [event, Chip.element, Chip.settle_elements, ← Chip.element]
      refine ⟨?plant, fun e he => ?record, fun e unit he afresh => ?afresh, fun i => ?intent, fun roots => ?whole⟩
      case plant => rw [event, Chip.settle_plant]; exact d.takePlant_plant
      case record => rw [element]; exact (Chip.takePlant_silent passes he).1
      case afresh => rw [element]; exact (Chip.takePlant_silent passes he).2 unit afresh
      case intent =>
        rw [event, Chip.sub, Chip.settle_subs, ← Chip.sub]
        exact (d.takePlant_records.records i).1
      case whole =>
        have decided : RootsDecided d := roots
        rw [event]
        refine ⟨fun e he => ?_, fun b hb => ?_, fun p hp spared => ?_, fun fits apart => ?_⟩
        · obtain ⟨sup, heard, doubt⟩ := Chip.wholeTake_element passes decided he
          exact ⟨sup, heard.trans (if_congr Chip.unheardAt_iff rfl rfl),
            doubt.trans (if_congr Chip.unheardAt_iff rfl rfl)⟩
        · obtain ⟨kept, polls⟩ := Chip.wholeTake_repoll passes decided quiet runs hb
          exact ⟨kept, polls, fun x hold => Chip.wholeTake_exchange passes decided quiet runs hb hold⟩
        · exact (Chip.wholeTake_ports passes decided quiet runs hp).2 fun b hb ⟨x, hold, _, _, port⟩ =>
            spared b x hb hold port
        · exact Chip.wholeTake_records passes decided fits apart
  · intro h s settled canonical free watched map touched kind marked a m d
    obtain ⟨t, run, chip, array, pending⟩ := exec_plantTakeRequest_eq free watched map touched kind
    generalize hc : s.chip.plantCaptured h = c at chip
    have captured : c = d.setPart c.part := by rw [← hc]; rfl
    have quiet : c.quiet = true := by rw [← hc]; exact (s.chip.quiet_plantWords _ _).trans settled
    have plant : c.plant = { s.chip.plant with mirror := m } := by rw [← hc]; rfl
    have state : c.part.state = s.chip.part.state := by rw [← hc]; rfl
    have reach : Reaches (Block.part :: plantBlocks) s.chip c.plantEvent := by
      have words : Reaches [.plant, .part] s.chip c := by
        rw [← hc]; exact (Chip.setPlant_reaches _ _).then (by rfl) (Chip.setPart_reaches _ _)
      exact words.then (by rfl) c.plantEvent_reaches
    have part : t.chip.part = c.part := by rw [chip, Chip.settle_part, c.plantEvent_reaches.part (by decide)]
    have marks : MarksAfter s t a h := marksAfter_plantCaptured marked (by rw [part, hc])
    have partAfter : t.chip.part = { s.chip.part with marks := t.chip.part.marks } := by rw [part, ← hc]; rfl
    have written := array ▸ halfWritten_writeHost canonical h a
    refine ⟨fun unheeded => ?captured, fun g fill gen other => ?event⟩
    case captured =>
      have event : c.plantEvent = c := by
        refine Chip.plantEvent_none ?_
        rw [plant]
        refine unheeded.imp (fun early => ?_) id
        obtain ⟨fill, none⟩ := early
        simp [Chip.takesRequests, Chip.running, state, fill, none]
      rw [event, Chip.settle_quiet c quiet] at chip
      refine ⟨t, run, written, marks, ?_, pending⟩
      rw [← partAfter, part, ← captured]
      exact chip
    case event =>
      have stopped : c.running = false := by rw [Chip.running, state, fill]; rfl
      have takes : c.takesRequests c.plant.gen = true := by
        rw [plant]
        simp [Chip.takesRequests, state, fill, gen]
      have new : c.plant.gen ≠ some (takeWord c.plant.mirror) := by
        rw [plant]
        exact fun same => other (Option.some.inj (gen.symm.trans same))
      have checks : c.checkPlant = d.checkPlant := by rw [captured]; exact Chip.checkPlant_congr rfl rfl rfl
      have event : t.chip = c.tryPlant.settle := by rw [chip, Chip.plantEvent_tried takes new]
      have idle : c.plantEvent.running = false :=
        (Chip.running_congr (c.plantEvent_reaches.part (by decide))).trans stopped
      refine ⟨t, run, written, marks, partAfter, fun o refused => ?refused, fun passes => ?taken,
        sameTime_of_reaches reach chip (by decide), sameLineUp_of_reaches reach chip (by decide), ?sources, ?store,
        ?orders, pending⟩
      case sources => rw [chip, Chip.settle_sources, reach.sources (by decide)]
      case store => rw [chip, Chip.settle_store, reach.store (by decide)]
      case orders => rw [chip, (Chip.settle_stopped idle).2.1, reach.orders (by decide)]
      case refused =>
        rw [Chip.tryPlant_refused (checks.trans refused), Chip.plantOutcome_settle quiet] at event
        rw [part, event, captured]
        rfl
      case taken =>
        have passes' : c.checkPlant = none := checks.trans passes
        have rooted := Chip.mirrorElements_rooted passes'
        rw [Chip.tryPlant_taken passes'] at event
        have cut : c.takePlant = c.plantCut := by
          have reached := c.takePlant_eq
          have still : c.plantCut.running = false := by
            have units := (c.plantReset_reaches.then (by rfl) (forIndices_reaches Chip.resuppress_unit 640 _)
              (bs := plantBlocks))
            have parts : Reaches plantBlocks c c.plantCut :=
              (units.then (by rfl) c.plantListed_unit (bs := plantBlocks)).then (by rfl) c.plantCut_unit
            exact (Chip.running_congr (parts.part (by decide))).trans stopped
          rw [reached, if_neg (by rw [still]; exact Bool.false_ne_true)]
        refine ⟨?_, fun e he => ?_⟩
        · rw [event, Chip.settle_plant, c.takePlant_plant, plant]
        · obtain ⟨record, sup, -⟩ := Chip.plantUnits_view rooted he
          rw [event, Chip.element, Chip.settle_elements, cut, (Chip.plantCut_view rooted).1, ← Chip.element, record,
            sup, plant]
          refine ⟨rfl, ?_⟩
          rw [captured]
          rfl

end Sys2Proof.Machine
